-- ==== Sys2Proof/Word.lean ====
section
/-!
DEFINITION. The word types of the Denberdo: registers are 32 bits, pairs, PCs and addresses in registers 64 bits,
instruction words 96 bits, bytes 8 bits (02 R27, 01 Table 1-1). A key of a memory cell is a plain `Nat`.
-/
namespace Sys2Proof

/-- A 32-bit register value. -/
abbrev Word := BitVec 32

/-- A 64-bit value: a register pair, a PC, a virtual address. -/
abbrev DWord := BitVec 64

/-- One byte of memory. -/
abbrev Byte := BitVec 8

/-- A 96-bit instruction word (R27). -/
abbrev InstrWord := BitVec 96

/-- The code of a register field (R9): 0 to 223 name G registers, 224 to 254 S registers, 255 is ZERO. -/
abbrev RegCode := BitVec 8

/-- A finite map with natural keys, held as a list of pairs: keys strictly rising, no entry equal to the
default of the map (see `Sys2Proof.Machine.tput`). -/
abbrev Table (α : Type) := List (Nat × α)

end Sys2Proof
end

