-- ==== Sys2Proof/Machine/Table.lean ====
section
/-!
DEFINITION. Finite maps with natural keys as lists in one canonical form: keys strictly rising, and no entry equal to the
map's default, so that equal maps are equal lists. Memories are such maps from addresses to bytes with default 0 (what an
unlisted byte reads as: 29 R473 for device memory, 08 R138 and 13 R220 for the scratchpads).
-/
namespace Sys2Proof.Machine

/-- The entry of key `k`, `d` where none is listed. -/
def tget {α : Type} (d : α) : Table α → Nat → α
  | [], _ => d
  | (k', v) :: r, k => if k' = k then v else tget d r k

/-- The entry of key `k`, if one is listed. -/
def tfind {α : Type} : Table α → Nat → Option α
  | [], _ => none
  | (k', v) :: r, k => if k' = k then some v else tfind r k

/-- Every entry but that of `k`. -/
def tdel {α : Type} : Table α → Nat → Table α
  | [], _ => []
  | (k', v) :: r, k => if k' = k then tdel r k else (k', v) :: tdel r k

/-- Insertion at the place of `k` in rising order. -/
def tins {α : Type} (k : Nat) (v : α) : Table α → Table α
  | [] => [(k, v)]
  | (k', v') :: r => if k < k' then (k, v) :: (k', v') :: r else (k', v') :: tins k v r

/-- The map with `v` at `k`, whatever stood there. -/
def tset {α : Type} (t : Table α) (k : Nat) (v : α) : Table α := tins k v (tdel t k)

/-- The map with `v` at `k` in canonical form: a default leaves no entry. -/
def tput {α : Type} [DecidableEq α] (d : α) (t : Table α) (k : Nat) (v : α) : Table α :=
  if v = d then tdel t k else tset t k v

/-- Keys strictly rising, all above `lo`. -/
def keysAbove {α : Type} : Nat → Table α → Bool
  | _, [] => true
  | lo, (k, _) :: r => decide (lo ≤ k) && keysAbove (k + 1) r

/-- The canonical form over default `d`. -/
def twf {α : Type} [DecidableEq α] (d : α) (t : Table α) : Bool := keysAbove 0 t && t.all (fun e => decide (e.2 ≠ d))

/-- The canonical form of a memory: addresses strictly rising, and no entry equal to what an unlisted byte reads as, 0. -/
def Memory.wf (m : Table Byte) : Bool := twf 0 m

/-- `f` on the listed entry of `k`; nothing where none is listed. -/
def tmod {α : Type} (t : Table α) (k : Nat) (f : α → α) : Table α :=
  t.map (fun e => if e.1 = k then (e.1, f e.2) else e)

/-- The little-endian number of the `n` bytes at `a` (00 R3). -/
def readLE (t : Table Byte) (a : Nat) : Nat → Nat
  | 0 => 0
  | n + 1 => (tget 0 t a).toNat + 256 * readLE t (a + 1) n

/-- The `n` bytes of a number, lowest first. -/
def leBytes (v : Nat) : Nat → List Byte
  | 0 => []
  | n + 1 => BitVec.ofNat 8 (v % 256) :: leBytes (v / 256) n

/-- The number of bytes lowest first. -/
def ofLE : List Byte → Nat
  | [] => 0
  | b :: r => b.toNat + 256 * ofLE r

/-- Bytes written from address `a` upwards. -/
def writeBytes (t : Table Byte) (a : Nat) : List Byte → Table Byte
  | [] => t
  | b :: r => writeBytes (tput 0 t a b) (a + 1) r

/-- The `n` bytes from address `a` upwards. -/
def readBytes (t : Table Byte) (a n : Nat) : List Byte := (List.range n).map (fun i => tget 0 t (a + i))

/-- Bits [hi:lo] of a number. -/
def bits (x hi lo : Nat) : Nat := x / 2 ^ lo % 2 ^ (hi + 1 - lo)

/-- Bit `i` of a number. -/
def bitOf (x i : Nat) : Bool := decide (x / 2 ^ i % 2 = 1)

/-- The signed value of an `n`-bit number. -/
def sextN (n x : Nat) : Int := if x % 2 ^ n ≥ 2 ^ (n - 1) then (x % 2 ^ n : Nat) - (2 ^ n : Nat) else (x % 2 ^ n : Nat)

/-- An integer as an unsigned number of `n` bits. -/
def wrapN (n : Nat) (x : Int) : Nat := (x % (2 ^ n : Nat)).toNat

/-- `f` on the element at index `i` of a list. -/
def updAt {α : Type} (f : α → α) : List α → Nat → List α
  | [], _ => []
  | x :: r, 0 => f x :: r
  | x :: r, i + 1 => x :: updAt f r i

/-- The lanes of a mask, rising. -/
def lanesOf (m : BitVec 32) : List Nat := (List.range 32).filter (fun l => m.getLsbD l)

/-- The mask of a list of lanes. -/
def maskOf : List Nat → BitVec 32
  | [] => 0
  | l :: r => (1#32 <<< l) ||| maskOf r

/-- The first element that satisfies `p`, with its index. -/
def findIdxAux {α : Type} (p : α → Bool) : List α → Nat → Option (Nat × α)
  | [], _ => none
  | x :: r, i => if p x then some (i, x) else findIdxAux p r (i + 1)

def findIdx {α : Type} (p : α → Bool) (l : List α) : Option (Nat × α) := findIdxAux p l 0

/-- The element of the largest key, the earliest of several. -/
def argMax {α : Type} (f : α → Int) : List α → Option α
  | [] => none
  | x :: r => match argMax f r with
    | none => some x
    | some y => if f y > f x then some y else some x

/-- Insertion by rising key, after equal keys. -/
def insBy {α : Type} (key : α → Nat) (x : α) : List α → List α
  | [] => [x]
  | y :: r => if key x < key y then x :: y :: r else y :: insBy key x r

/-- A list by rising key. -/
def sortBy {α : Type} (key : α → Nat) (l : List α) : List α := l.foldl (fun acc x => insBy key x acc) []

/-- A list without the elements at one index. -/
def delAt {α : Type} : List α → Nat → List α
  | [], _ => []
  | _ :: r, 0 => r
  | x :: r, i + 1 => x :: delAt r i

def tspanAux {α : Type} (d : α) : Nat → Table α → Nat → List α
  | 0, _, _ => []
  | n + 1, t, a => match t with
    | [] => d :: tspanAux d n [] (a + 1)
    | (k, v) :: r => if k = a then v :: tspanAux d n r (a + 1) else d :: tspanAux d n t (a + 1)

/-- The `n` entries from key `a` upwards of a map in canonical form. -/
def tspan {α : Type} (d : α) (t : Table α) (a n : Nat) : List α := tspanAux d n (t.dropWhile (fun e => decide (e.1 < a))) a

/-- The entries from key `a` upwards replaced by a list. -/
def tsplice {α : Type} [DecidableEq α] (d : α) (t : Table α) (a : Nat) (vs : List α) : Table α :=
  t.takeWhile (fun e => decide (e.1 < a)) ++
  (vs.zipIdx.filterMap (fun (v, i) => if v = d then none else some (a + i, v))) ++
  t.dropWhile (fun e => decide (e.1 < a + vs.length))

end Sys2Proof.Machine
end

