-- ==== Sys2Proof/Machine/Float.lean ====
section
/-!
DEFINITION. Number formats and rounding (04): exact values, the formats of R79, R81 and R84, RoundTo (02 R45, 04 R89, R90),
exact arithmetic with the cases of 05 R97, and enclosures of the functions of 05 R104.
-/
namespace Sys2Proof.Machine

/-- An exact value (02 R45): a real with a sign, so that zero carries one, or ±Inf, or NaN. `fin s n d` is ± n / d. -/
inductive Xv where
  | nan
  | inf (neg : Bool)
  | fin (neg : Bool) (num den : Nat)
  deriving DecidableEq, Repr

/-- The rounding modes (R89). -/
inductive Mode where | rn | rz | ru | rd | ro
  deriving DecidableEq, Repr

/-- A floating-point format: T fraction bits, exponent of the smallest normal, the magnitude code of the largest finite
value, the codes of +Inf and NaN, and the weight of the sign bit (0: unsigned). -/
structure Fmt where
  t : Nat
  emin : Int
  maxCode : Nat
  /-- magnitude code of Inf, when the format has one -/
  inf : Option Nat
  nan : Nat
  sign : Nat
  /-- whether zero carries a sign -/
  negZero : Bool
  deriving DecidableEq, Repr

/-- binary32, binary16 and BF16 (R79). -/
def fp32 : Fmt := ⟨23, -126, 0x7F7FFFFF, some 0x7F800000, 0x7FC00000, 2 ^ 31, true⟩
def fp16 : Fmt := ⟨10, -14, 0x7BFF, some 0x7C00, 0x7E00, 2 ^ 15, true⟩
def bf16 : Fmt := ⟨7, -126, 0x7F7F, some 0x7F80, 0x7FC0, 2 ^ 15, true⟩

/-- binaryKpP (R81). -/
def kpP (k p : Nat) (unsg inf : Bool) : Fmt :=
  let e := if unsg then k - p + 1 else k - p
  let bias : Int := 2 ^ (e - 1)
  if unsg then
    ⟨p - 1, 1 - bias, if inf then 2 ^ k - 3 else 2 ^ k - 2, if inf then some (2 ^ k - 2) else none, 2 ^ k - 1, 0, false⟩
  else
    ⟨p - 1, 1 - bias, if inf then 2 ^ (k - 1) - 2 else 2 ^ (k - 1) - 1,
      if inf then some (2 ^ (k - 1) - 1) else none, 2 ^ (k - 1), 2 ^ (k - 1), false⟩

/-- n × 2^e as an exact value. -/
def xDyadic (neg : Bool) (n : Nat) (e : Int) : Xv :=
  if 0 ≤ e then .fin neg (n * 2 ^ e.toNat) 1 else .fin neg n (2 ^ (-e).toNat)

/-- The value of a code (R79, R81). -/
def Fmt.value (f : Fmt) (code : Nat) : Xv :=
  let neg := decide (f.sign ≠ 0) && decide (f.sign ≤ code)
  let mag := if neg then code - f.sign else code
  if mag ≤ f.maxCode && !(decide (code = f.nan) && !f.negZero) then
    let e := mag / 2 ^ f.t
    let m := mag % 2 ^ f.t
    if e = 0 then xDyadic neg m (f.emin - f.t) else xDyadic neg (2 ^ f.t + m) (f.emin - f.t + (e - 1))
  else if some mag = f.inf then .inf neg else .nan

/-- ⌊log2 (n / d)⌋ for n, d > 0. -/
def log2Q (n d : Nat) : Int :=
  let l : Int := (Nat.log2 n : Int) - Nat.log2 d
  let below := if 0 ≤ l then decide (n < d * 2 ^ l.toNat) else decide (n * 2 ^ (-l).toNat < d)
  if below then l - 1 else l

/-- n / (d × 2^q) rounded to an integer under a mode, for a value of sign `neg`. In a format of precision 1, which has no last fraction
bit, `.ro` asks for an odd `k` and `.rn` gives a tie to the even one (log entry 19). -/
def roundInt (mode : Mode) (neg : Bool) (n d : Nat) : Nat :=
  let k := n / d
  let r := n % d
  match mode with
  | .rn => if 2 * r < d then k else if d < 2 * r then k + 1 else k + k % 2
  | .rz => k
  | .ru => if r = 0 ∨ neg then k else k + 1
  | .rd => if r = 0 ∨ !neg then k else k + 1
  | .ro => if r = 0 ∨ k % 2 = 1 then k else k + 1

/-- RoundTo (02 R45, 04 R90). -/
def roundTo (f : Fmt) (sat : Bool) (mode : Mode) (x : Xv) : Nat :=
  let sg (neg : Bool) (mag : Nat) : Nat := if neg then mag + f.sign else mag
  match x with
  | .nan => f.nan
  | .inf neg =>
    if neg && decide (f.sign = 0) then (if sat then 0 else f.nan)
    else match f.inf with
      | some c => sg neg c
      | none => if sat then sg neg f.maxCode else f.nan
  | .fin neg n d =>
    let zr := if neg && f.negZero then f.sign else 0
    if n = 0 then zr else
    let e := max (log2Q n d) f.emin
    let q := e - f.t
    let m := if 0 ≤ q then roundInt mode neg n (d * 2 ^ q.toNat) else roundInt mode neg (n * 2 ^ (-q).toNat) d
    let mag := (q - (f.emin - f.t)).toNat * 2 ^ f.t + m
    if m = 0 then zr
    else if neg && decide (f.sign = 0) then (if sat then 0 else f.nan)
    else if mag ≤ f.maxCode then sg neg mag
    else if sat then sg neg f.maxCode
    else match f.inf with
      | none => f.nan
      | some c => match mode with
        | .rn => sg neg c
        | .rz | .ro => sg neg f.maxCode
        | .ru => if neg then sg neg f.maxCode else c
        | .rd => if neg then sg neg c else f.maxCode

/-- Conversion to an integer of K bits (R84): `sg` signed, result modulo 2^K. -/
def roundToInt (k : Nat) (sg sat : Bool) (mode : Mode) (x : Xv) : Nat :=
  let lo : Int := if sg then -(2 ^ (k - 1) : Nat) else 0
  let hi : Int := if sg then (2 ^ (k - 1) : Nat) - 1 else (2 ^ k : Nat) - 1
  match x with
  | .nan => 0
  | .inf neg => if sat then wrapN k (if neg then lo else hi) else 0
  | .fin neg n d =>
    let m : Int := roundInt mode neg n d
    let v := if neg then -m else m
    wrapN k (if sat then (if v < lo then lo else if hi < v then hi else v) else v)

/-! ### Exact arithmetic (05 R97) -/

def Xv.neg : Xv → Xv
  | .nan => .nan
  | .inf s => .inf (!s)
  | .fin s n d => .fin (!s) n d

def Xv.isNan : Xv → Bool | .nan => true | .inf _ | .fin .. => false
def Xv.isZero : Xv → Bool | .fin _ 0 _ => true | .nan | .inf _ | .fin .. => false

/-- n1/d1 and n2/d2 over a common denominator. -/
def commonDen (n1 d1 n2 d2 : Nat) : Nat × Nat × Nat :=
  if d1 = d2 then (n1, n2, d1)
  else if d2 % d1 = 0 then (n1 * (d2 / d1), n2, d2)
  else if d1 % d2 = 0 then (n1, n2 * (d1 / d2), d1)
  else (n1 * d2, n2 * d1, d1 * d2)

/-- Exact sum; `rd` when the mode is RD, which makes an exact zero sum −0. -/
def Xv.add (rd : Bool) (a b : Xv) : Xv :=
  match a, b with
  | .nan, _ => .nan
  | _, .nan => .nan
  | .inf s, .inf t => if s = t then .inf s else .nan
  | .inf s, .fin .. => .inf s
  | .fin .., .inf t => .inf t
  | .fin s n d, .fin t m e =>
    let (x, y, c) := commonDen n d m e
    if n = 0 ∧ m = 0 then (if s = t then .fin s 0 1 else .fin rd 0 1)
    else if s = t then .fin s (x + y) c
    else if x = y then .fin rd 0 1
    else if y < x then .fin s (x - y) c else .fin t (y - x) c

def Xv.mul (a b : Xv) : Xv :=
  match a, b with
  | .nan, _ => .nan
  | _, .nan => .nan
  | .inf s, .inf t => .inf (xor s t)
  | .inf s, .fin t n _ => if n = 0 then .nan else .inf (xor s t)
  | .fin s n _, .inf t => if n = 0 then .nan else .inf (xor s t)
  | .fin s n d, .fin t m e => .fin (xor s t) (n * m) (d * e)

def Xv.div (a b : Xv) : Xv :=
  match a, b with
  | .nan, _ => .nan
  | _, .nan => .nan
  | .inf _, .inf _ => .nan
  | .inf s, .fin t _ _ => .inf (xor s t)
  | .fin s _ _, .inf t => .fin (xor s t) 0 1
  | .fin s n d, .fin t m e =>
    if m = 0 then (if n = 0 then .nan else .inf (xor s t)) else .fin (xor s t) (n * e) (d * m)

/-- a × 2^k. -/
def Xv.scale (a : Xv) (k : Int) : Xv :=
  match a with
  | .fin s n d => if 0 ≤ k then .fin s (n * 2 ^ k.toNat) d else .fin s n (d * 2 ^ (-k).toNat)
  | .nan => .nan
  | .inf s => .inf s

/-- The order of two values that are no NaN, zeros equal: −1, 0, 1. -/
def Xv.cmp (a b : Xv) : Int :=
  let v (x : Xv) : Int := match x with | .inf true => -1 | .inf false => 1 | .nan | .fin .. => 0
  match a, b with
  | .fin s n d, .fin t m e =>
    let x : Int := if s then -(n * e : Nat) else (n * e : Nat)
    let y : Int := if t then -(m * d : Nat) else (m * d : Nat)
    if x < y then -1 else if y < x then 1 else 0
  | _, _ => if v a < v b then -1 else if v b < v a then 1 else 0

/-- FMIN and FMAX on codes (05 R101): a NaN counts only when both are NaN, −0 lies below +0. -/
def minmaxCode (f : Fmt) (isMax : Bool) (a b : Nat) : Nat :=
  let x := f.value a
  let y := f.value b
  if x.isNan && y.isNan then f.nan
  else if x.isNan then b
  else if y.isNan then a
  else
    let c := x.cmp y
    let negA := decide (f.sign ≤ a)
    let aLess := decide (c < 0) || (decide (c = 0) && negA)
    if aLess then (if isMax then b else a) else (if isMax then a else b)

/-! ### Square roots -/

/-- ⌊√n⌋ bit by bit from bit `k`. -/
def isqrtAux (n : Nat) : Nat → Nat → Nat
  | 0, r => if (r + 1) * (r + 1) ≤ n then r + 1 else r
  | k + 1, r => let t := r + 2 ^ (k + 1); isqrtAux n k (if t * t ≤ n then t else r)

def isqrt (n : Nat) : Nat := isqrtAux n (Nat.log2 n / 2 + 1) 0

/-- √(n/d) to at least 40 significant bits, with half a unit added where it is inexact, so that every rounding to fewer bits
rounds as the root itself. -/
def sqrtQ (n d : Nat) : Xv :=
  let sh := 100 + 2 * (Nat.log2 d + 1)
  let m := n * d * 2 ^ (2 * sh)
  let r := isqrt m
  if r * r = m then .fin false r (d * 2 ^ sh) else .fin false (2 * r + 1) (d * 2 ^ (sh + 1))

/-! ### Enclosures in fixed point: numbers scaled by 2^p, a lower and an upper bound -/

/-- Σ of `f k` over k < n. -/
def sumN (f : Nat → Int) (n : Nat) : Int := (List.range n).foldl (fun x k => x + f k) 0

/-- atanh(1/q) from below within n + 1 units: Σ 1 / ((2k + 1) q^(2k+1)). -/
def atanhInv (p q n : Nat) : Int := sumN (fun k => ((2 ^ p / ((2 * k + 1) * q ^ (2 * k + 1)) : Nat) : Int)) n

/-- arctan(1/q) within n + 1 units. -/
def atanInv (p q n : Nat) : Int :=
  sumN (fun k => let t : Int := ((2 ^ p / ((2 * k + 1) * q ^ (2 * k + 1)) : Nat) : Int); if k % 2 = 0 then t else -t) n

/-- ln 2 = 2 atanh(1/3), with bounds. -/
def ln2B (p : Nat) : Int × Int :=
  let n := p / 3 + 4
  let s := 2 * atanhInv p 3 n
  (s, s + 2 * (n + 2))

/-- π = 16 arctan(1/5) − 4 arctan(1/239), with bounds. -/
def piB (p : Nat) : Int × Int :=
  let n := p / 4 + 4
  let s := 16 * atanInv p 5 n - 4 * atanInv p 239 n
  (s - 20 * (n + 2), s + 20 * (n + 2))

/-- Taylor terms y^k / k!, truncated, summed with signs by `sg`. -/
def taylor (p : Nat) (y : Int) (sg : Nat → Int) : Nat → Nat → Int → Int → Int
  | 0, _, _, acc => acc
  | n + 1, k, term, acc => taylor p y sg n (k + 1) (term * y / 2 ^ p / (k + 1)) (acc + sg k * term)

def taylorN (p : Nat) : Nat := p / 2 + 20

/-- e^y for 0 ≤ y < 1, with bounds. -/
def expB (p : Nat) (yl yh : Int) : Int × Int :=
  let n := taylorN p
  (taylor p yl (fun _ => 1) n 0 (2 ^ p) 0 - 1, taylor p yh (fun _ => 1) n 0 (2 ^ p) 0 + 3 * n + 3)

/-- sin y for 0 ≤ y ≤ π/2, with bounds. -/
def sinB (p : Nat) (yl yh : Int) : Int × Int :=
  let n := taylorN p
  let sg (k : Nat) : Int := match k % 4 with | 1 => 1 | 3 => -1 | _ => 0
  (taylor p yl sg n 0 (2 ^ p) 0 - (4 * n + 4), taylor p yh sg n 0 (2 ^ p) 0 + (4 * n + 4))

/-- A bound pair as exact values over 2^p. -/
def fixedV (p : Nat) (v : Int) : Xv := .fin (decide (v < 0)) v.natAbs (2 ^ p)

/-- The rounding of a value that lies in the enclosure `b p`, for the first precision of the list at which both bounds round
alike. -/
def encRound (b : Nat → Int × Int) (ps : List Nat) : Nat :=
  match ps with
  | [] => 0
  | p :: r =>
    let (lo, hi) := b p
    let x := roundTo fp32 false .rn (fixedV p lo)
    let y := roundTo fp32 false .rn (fixedV p hi)
    if x = y then x else match r with
      | [] => y
      | _ :: _ => encRound b r

def precisions : List Nat := [96, 256, 640, 1536]

/-- 2^a for a = n/d (05 R104), with −150 < a < 128. -/
def exp2Code (neg : Bool) (n d : Nat) : Nat :=
  let a : Int := if neg then -(n : Int) else n
  let k := a / (d : Int)
  let f := a % (d : Int)
  if f = 0 then roundTo fp32 false .rn (xDyadic false 1 k) else
  encRound (fun p =>
    let (ll, lh) := ln2B p
    let (lo, hi) := expB p (ll * f / d) (lh * f / d + 1)
    let sh := (k + 160).toNat
    (lo * 2 ^ sh / 2 ^ 160, hi * 2 ^ sh / 2 ^ 160 + 1)) (precisions.map (· + 160))

/-- ln m for 1 ≤ m < 2, m = n/d: 2 atanh((n − d) / (n + d)), with bounds. -/
def lnB (p n d : Nat) : Int × Int :=
  let z : Int := ((n - d) * 2 ^ p / (n + d) : Nat)
  let k := p / 3 + 6
  let s (z : Int) : Int := ((List.range k).foldl (fun (a : Int × Int) (i : Nat) =>
    (a.1 + a.2 / (2 * (i : Int) + 1), a.2 * z / 2 ^ p * z / 2 ^ p)) (0, z)).1
  (2 * s z - 2, 2 * s (z + 1) + 6 * k + 6)

/-- log2 of n/d > 0. -/
def log2Code (n d : Nat) : Nat :=
  let e := log2Q n d
  let (m, c) := if 0 ≤ e then (n, d * 2 ^ e.toNat) else (n * 2 ^ (-e).toNat, d)
  if m = c then roundTo fp32 false .rn (.fin (decide (e < 0)) e.natAbs 1) else
  encRound (fun p =>
    let (ll, lh) := ln2B p
    let (lo, hi) := lnB p m c
    (e * 2 ^ p + lo * 2 ^ p / lh, e * 2 ^ p + hi * 2 ^ p / ll + 1)) precisions

/-- sin(π t) for 0 < t < 1/2, t = n/d, rounded with sign `neg`. -/
def sinPiCode (neg : Bool) (n d : Nat) : Nat :=
  let c := encRound (fun p =>
    let (pl, ph) := piB p
    sinB p (pl * n / d) (ph * n / d + 1)) precisions
  if neg then c + 2 ^ 31 else c

/-- sin(π n/d) for n/d ≥ 0 by exact reduction, `zneg` the sign of a zero result. -/
def sinPiQ (zneg neg : Bool) (n d : Nat) : Nat :=
  let r := n % (2 * d)
  let neg := xor neg (decide (d ≤ r))
  let t := if d ≤ r then r - d else r
  if t = 0 then (if zneg then 2 ^ 31 else 0)
  else
    let u := if d < 2 * t then d - t else t
    if 2 * u = d then (if neg then 0xBF800000 else 0x3F800000) else sinPiCode neg u d

/-- tanh of n/d > 0. -/
def tanhCode (n d : Nat) : Nat :=
  if 16 * d ≤ n then 0x3F800000 else
  encRound (fun p =>
    let y : Int := (n * 2 ^ p / (d * 32) : Nat)
    let (el, eh) := expB p y (y + 1)
    let sq (x : Int) (up : Int) : Int := x * x / 2 ^ p + up
    let el := (List.range 6).foldl (fun x _ => sq x 0) el
    let eh := (List.range 6).foldl (fun x _ => sq x 1) eh
    ((el - 2 ^ p) * 2 ^ p / (el + 2 ^ p), (eh - 2 ^ p) * 2 ^ p / (eh + 2 ^ p) + 1)) precisions

end Sys2Proof.Machine
end

