-- ==== Sys2Proof/Syntax.lean ====
section
/-!
DEFINITION. The instruction set as syntax: the operand forms, and ONE inductive `Instr` with a constructor for every row
of spec/opcode_table.json. Rows of instruction words come first, by major opcode (02 Table 2-6); rows that are steps of
the hardware, the firmware, the host or the fabric follow. Fields an instruction does not use (R28) have no place here.
-/
namespace Sys2Proof

/-- The issue fields common to every instruction word (02 Table 2-1). -/
structure Hdr where
  /-- guard predicate, P0 to P7 -/
  pg : BitVec 3
  /-- 1 negates the guard -/
  negp : Bool
  /-- scoreboards to wait for -/
  rsbm : BitVec 6
  /-- 0 none, 1 to 6 names SB0 to SB5 -/
  wsb : BitVec 3
  yld : Bool
  stall : BitVec 4
  deriving DecidableEq, Repr

/-- The B operand of FORM 00 (a register) or FORM 01 (IMM) (R29). -/
inductive Src where
  | reg (c : RegCode)
  | imm (v : Word)
  deriving DecidableEq, Repr

/-- A selector that is a register in FORM 00 and an `n`-bit field of IMM in FORM 11 (FSHF, BFX, BFI, PRMT). -/
inductive Sel (n : Nat) where
  | reg (c : RegCode)
  | imm (v : BitVec n)
  deriving DecidableEq, Repr

/-- Wrapping and saturating addition (R59). -/
inductive SatMode where | wrap | sat | usat
  deriving DecidableEq, Repr

/-- IADDX variants; the carry-in predicate field stands with the variants that read it (R60). -/
inductive CarryMode where
  | add | addc (c : RegCode) | sub | subc (c : RegCode)
  deriving DecidableEq, Repr

/-- Signedness of IMULH (R61). -/
inductive HiMode where | s | u | su
  deriving DecidableEq, Repr

/-- Integer comparisons (Table 3-3). -/
inductive Cmp where
  | ltS | eq | leS | gtS | ne | geS | ltU | eqU | leU | gtU | neU | geU
  deriving DecidableEq, Repr

/-- FSETP comparisons (Table 5-2). -/
inductive FCmp where
  | lt | eq | le | gt | ne | ge | num | nan | ltu | equ | leu | gtu | neu | geu
  deriving DecidableEq, Repr

/-- The *rm* rounding field (R99). -/
inductive Rm where | rn | rz | ru | rd
  deriving DecidableEq, Repr

/-- The *cv* rounding field (R99). -/
inductive Cv where | rn | rz | ro
  deriving DecidableEq, Repr

/-- The *cv* field where 3 selects the slot's own rounding (R114). -/
inductive CvD where | rn | rz | ro | slot
  deriving DecidableEq, Repr

/-- The full-width floating-point formats (R79). -/
inductive FKind where | f32 | f16 | bf16
  deriving DecidableEq, Repr

/-- Integer types of CVTFI and CVTIF (Table 5-1). -/
inductive IKind where | s32 | u32 | s64 | u64
  deriving DecidableEq, Repr

/-- Load sizes and extensions (Table 6-2). -/
inductive LdSize where | u8 | s8 | u16 | s16 | w32 | d64 | q128 | u32d | s32d
  deriving DecidableEq, Repr

/-- Store sizes (R124). -/
inductive StSize where | b8 | b16 | b32 | b64 | b128
  deriving DecidableEq, Repr

/-- Sizes of atomics (Table 15-2). -/
inductive AtSize where | w32 | d64 | q128
  deriving DecidableEq, Repr

/-- Sizes of RELST, ACQLD and ACQWT. -/
inductive WSize where | w32 | d64
  deriving DecidableEq, Repr

/-- ORD (Table 15-2). -/
inductive Ord4 where | relaxed | acquire | release | acqRel
  deriving DecidableEq, Repr

/-- Scope codes 0 to 11 (Table 14-1). -/
inductive Scope where
  | lane | group | team | cluster | die | part | device | system | peer | mesh | domain | fabric
  deriving DecidableEq, Repr

/-- Atomic operations (Table 15-4); `.cas` alone reads the C field. -/
inductive AtomOp where
  | add | minS | maxS | minU | maxU | and | or | xor | exch | cas (c : RegCode) | inc | dec | fadd | fmin | fmax
  deriving DecidableEq, Repr

/-- VOTE modes (Table 9-1). -/
inductive VoteMode where | all | any | uni | ballot
  deriving DecidableEq, Repr

/-- SHFL modes. -/
inductive ShflMode where | pick | shift | rot | xor
  deriving DecidableEq, Repr

/-- The lane operand of SHFL: a register, or the signed *b* and the width log of FORM 11 (R164). -/
inductive ShflB where
  | reg (c : RegCode)
  | imm (b : BitVec 6) (lw : BitVec 3)
  deriving DecidableEq, Repr

/-- REDUX operations. -/
inductive ReduxOp where
  | add | minS | maxS | minU | maxU | and | or | xor | fadd | fmin | fmax
  deriving DecidableEq, Repr

/-- MATCH modes; `.all` alone has a C predicate. -/
inductive MatchMode where
  | any | all (c : RegCode)
  deriving DecidableEq, Repr

/-- The completion part of an engine command's IMM (Table 18-2). -/
structure Cmd where
  scope : Scope
  /-- D names a barrier cell in place of a completion counter -/
  bar : Bool
  /-- the completion tag, when TV is 1 -/
  tag : Option (BitVec 6)
  deriving DecidableEq, Repr

/-- What PART assigns (Table 22-3): a function, or a mask of cores given as core numbers 160 × die + %core. -/
inductive PartTarget where
  | func (f : Nat)
  | cores (cs : List Nat)
  deriving DecidableEq, Repr

/-- A register that the host or the Keystone pair writes and that has no behaviour of its own (22 Table 22-1, 23 Table 23-1). -/
inductive HostReg where
  | xvec (f : Nat) | s1root (f : Nat)
  | mfunc (m : Nat) | mpeer (m : Nat) | mbudget (m : Nat) | mbw (m : Nat)
  /-- the Outstanding Page Request Allocation of a function's PRI capability, its ATS Enable, and its PASID (20 R358, R361) -/
  | priAlloc (f : Nat) | ats (f : Nat) | pasid (f : Nat)
  /-- WRSV and WMAX of a function on a die, which the Keystone pair sets (20 R360) -/
  | wrsv (f die : Nat) | wmax (f die : Nat)
  /-- the command doorbell, with a command of a code that Table 22-3 does not list: the value is the code (22 R385) -/
  | doorbell
  deriving DecidableEq, Repr

/-- Register-page fields that are refused while teams exist (R378). -/
inductive LpReg where | lpbase | lpsize | lpteams | savebase | savelen
  deriving DecidableEq, Repr

/-- A packet of the fabric (25 Table 25-2), its payload as bytes. `sealed` holds the key epoch and SEQ of a domain
packet (27 R453, R454); `genuine` says that its tag verifies under that key. -/
structure Packet where
  dst : Nat
  src : Nat
  type : Nat
  vc : Nat
  stat : Nat
  rid : Nat
  addr : Nat
  /-- a reserved header field or TYPE is broken (R418) -/
  broken : Bool
  sealed : Option (Nat × Nat)
  genuine : Bool
  payload : List Byte
  /-- the Airan port by which it left or reached the device (R418, R420) -/
  port : Nat := 0
  deriving DecidableEq, Repr

/-- A place where a soft error strikes (R184, R216, R227, R231), or the die-to-die link errs (R414). -/
inductive ErrPlace where
  | reg (gk lane n : Nat)
  | weight (plane : Nat) (shadow : Bool) (e : Nat)
  | bank (plane word : Nat)
  | scratch (team w8 : Nat)
  | l1 (core func line sector : Nat)
  | chip (w8 : Nat)
  | mem (addr : Nat)
  /-- a byte of host memory in the L2 line that the device holds -/
  | host (addr : Nat)
  /-- an error on the die-to-die link, which the link corrects (25 R414) -/
  | link (die : Nat)
  deriving DecidableEq, Repr

/-- What a host CXL.mem access does (R465, R362). -/
inductive HostAcc where
  | read (ma n : Nat)
  | write (ma : Nat) (bytes : List Byte)
  /-- a compare-and-swap of 8 bytes, as the host swaps MOVE (R362) -/
  | cas (ma : Nat) (old new : DWord)
  /-- the host takes the line under HDM-DB: it enters the snoop filter (R466) -/
  | hold (ma : Nat)
  deriving DecidableEq, Repr

/-- A conversion through the drain of a Q bank (Table 11-1, 11-2): RAW words unchanged, or a conversion with the
rounding, saturation, slot and INT32 reading. -/
inductive Drain where
  | raw
  | cvt (cv : CvD) (sat : Bool) (slot : BitVec 3) (intw : Bool)
  deriving DecidableEq, Repr

/-- The range of bank rows of a MAT instruction: BANK, Q0 and CNT (Table 11-2). -/
structure Rows where
  bank : BitVec 2
  q0 : BitVec 8
  /-- n − 1 -/
  cnt : BitVec 8
  deriving DecidableEq, Repr

/-- The completion part of XRESH (26 Table 26-7) has one bit more: D names a channel block (PERS). -/
structure ReshCmd where
  pers : Bool
  scope : Scope
  tag : Option (BitVec 6)
  deriving DecidableEq, Repr

/-- The rungs of the reset ladder a power or host move can ask of a die's engine (22 R390). -/
inductive EngCls where | copy | comp | coll
  deriving DecidableEq, Repr

/-- ONE constructor per row of spec/opcode_table.json. -/
inductive Instr where
  -- 0x01 to 0x2D, INT (03)
  | mov (h : Hdr) (wide : Bool) (d : RegCode) (a : Src)
  | movs (h : Hdr) (d : RegCode) (code : BitVec 12)
  | movsw (h : Hdr) (d : RegCode) (code : BitVec 12)
  | iadd (h : Hdr) (m : SatMode) (d a : RegCode) (b : Src)
  | isub (h : Hdr) (m : SatMode) (d a : RegCode) (b : Src)
  | iaddx (h : Hdr) (m : CarryMode) (d a b : RegCode) (pout : BitVec 3)
  | imul (h : Hdr) (d a : RegCode) (b : Src)
  | imulh (h : Hdr) (m : HiMode) (d a : RegCode) (b : Src)
  | imad (h : Hdr) (d a : RegCode) (b : Src) (c : RegCode)
  | imadw (h : Hdr) (sg : Bool) (d a : RegCode) (b : Src) (c : RegCode)
  | idiv (h : Hdr) (sg : Bool) (d a : RegCode) (b : Src)
  | irem (h : Hdr) (sg : Bool) (d a : RegCode) (b : Src)
  | imin (h : Hdr) (sg : Bool) (d a : RegCode) (b : Src)
  | imax (h : Hdr) (sg : Bool) (d a : RegCode) (b : Src)
  | iabs (h : Hdr) (sat : Bool) (d a : RegCode)
  | and (h : Hdr) (d a : RegCode) (b : Src)
  | or (h : Hdr) (d a : RegCode) (b : Src)
  | xor (h : Hdr) (d a : RegCode) (b : Src)
  | andn (h : Hdr) (d a : RegCode) (b : Src)
  | lop3 (h : Hdr) (d a b c : RegCode) (lut : BitVec 8)
  | shl (h : Hdr) (d a : RegCode) (b : Src)
  | shr (h : Hdr) (d a : RegCode) (b : Src)
  | sar (h : Hdr) (d a : RegCode) (b : Src)
  | rol (h : Hdr) (d a : RegCode) (b : Src)
  | fshf (h : Hdr) (right : Bool) (d a b : RegCode) (n : Sel 5)
  | popc (h : Hdr) (d a : RegCode)
  | clz (h : Hdr) (d a : RegCode)
  | brev (h : Hdr) (d a : RegCode)
  | bfx (h : Hdr) (sg : Bool) (d a : RegCode) (f : Sel 16)
  | bfi (h : Hdr) (d a b : RegCode) (f : Sel 16)
  | prmt (h : Hdr) (d a b : RegCode) (f : Sel 20)
  | sel (h : Hdr) (wide : Bool) (d a : RegCode) (b : Src) (c : RegCode)
  | isetp (h : Hdr) (m : Cmp) (d a : RegCode) (b : Src)
  | icmps (h : Hdr) (m : Cmp) (d a : RegCode) (b : Src)
  | plop (h : Hdr) (d a b c : RegCode) (lut : BitVec 8)
  | p2g (h : Hdr) (d : RegCode)
  | g2p (h : Hdr) (a : RegCode) (mask : BitVec 7)
  | iadd64 (h : Hdr) (d a : RegCode) (b : Src)
  | isub64 (h : Hdr) (d a : RegCode) (b : Src)
  | lea (h : Hdr) (sg : Bool) (d a b : RegCode) (sh : BitVec 3)
  | isetp64 (h : Hdr) (m : Cmp) (d a : RegCode) (b : Src)
  | shl64 (h : Hdr) (d a : RegCode) (b : Src)
  | shr64 (h : Hdr) (arith : Bool) (d a : RegCode) (b : Src)
  | idp4 (h : Hdr) (asg bsg sat : Bool) (d a : RegCode) (b : Src) (c : RegCode)
  | idp2 (h : Hdr) (asg bsg sat : Bool) (d a : RegCode) (b : Src) (c : RegCode)
  -- 0x40 to 0x5B, FP (05)
  | fadd (h : Hdr) (rm : Rm) (sub : Bool) (d a : RegCode) (b : Src)
  | fmul (h : Hdr) (rm : Rm) (d a : RegCode) (b : Src)
  | ffma (h : Hdr) (rm : Rm) (np nc : Bool) (d a : RegCode) (b : Src) (c : RegCode)
  | fmin (h : Hdr) (d a : RegCode) (b : Src)
  | fmax (h : Hdr) (d a : RegCode) (b : Src)
  | fsetp (h : Hdr) (m : FCmp) (d a : RegCode) (b : Src)
  | fclass (h : Hdr) (f : FKind) (d a : RegCode)
  | fdiv (h : Hdr) (d a : RegCode) (b : Src)
  | fsqrt (h : Hdr) (d a : RegCode)
  | frcp (h : Hdr) (d a : RegCode)
  | frsq (h : Hdr) (d a : RegCode)
  | fex2 (h : Hdr) (d a : RegCode)
  | flg2 (h : Hdr) (d a : RegCode)
  | fsinpi (h : Hdr) (d a : RegCode)
  | fcospi (h : Hdr) (d a : RegCode)
  | ftanh (h : Hdr) (d a : RegCode)
  | hadd2 (h : Hdr) (bf : Bool) (rm : Rm) (sub : Bool) (d a : RegCode) (b : Src)
  | hmul2 (h : Hdr) (bf : Bool) (rm : Rm) (d a : RegCode) (b : Src)
  | hfma2 (h : Hdr) (bf : Bool) (rm : Rm) (d a : RegCode) (b : Src) (c : RegCode)
  | hmnmx2 (h : Hdr) (bf max : Bool) (d a : RegCode) (b : Src)
  | cvtff (h : Hdr) (cv : Cv) (sat : Bool) (dst src : FKind) (d a : RegCode)
  | cvtfi (h : Hdr) (cv : Cv) (k : IKind) (sat : Bool) (d a : RegCode)
  | cvtif (h : Hdr) (cv : Cv) (k : IKind) (d a : RegCode)
  | cvtpk (h : Hdr) (cv : CvD) (sat : Bool) (d a b : RegCode) (slot : BitVec 3)
  | cvtunpk (h : Hdr) (cv : Cv) (sat : Bool) (d a b : RegCode) (slot : BitVec 3)
  | frnd (h : Hdr) (rm : Rm) (d a : RegCode)
  | fscale (h : Hdr) (rm : Rm) (d a : RegCode) (b : Src)
  | fgetexp (h : Hdr) (d a : RegCode)
  -- 0x60 to 0x6A, CTL (06)
  | bra (h : Hdr) (off : BitVec 29) (slot : BitVec 3)
  | brx (h : Hdr) (a : RegCode)
  | call (h : Hdr) (d : RegCode) (off : BitVec 29) (slot : BitVec 3)
  | callx (h : Hdr) (d a : RegCode)
  | ret (h : Hdr) (a : RegCode)
  | exit (h : Hdr)
  | trap (h : Hdr) (code : BitVec 16)
  | nop (h : Hdr)
  | yield (h : Hdr)
  | bpt (h : Hdr) (code : BitVec 16)
  | sleep (h : Hdr) (b : Src)
  -- 0x70 to 0x75, MEM (06)
  | ld (h : Hdr) (sz : LdSize) (d a : RegCode) (off : Word)
  | st (h : Hdr) (sz : StSize) (a : RegCode) (off : Word) (b : RegCode)
  | ldl (h : Hdr) (sz : LdSize) (d a : RegCode) (off : Word)
  | stl (h : Hdr) (sz : StSize) (a : RegCode) (off : Word) (b : RegCode)
  | pref (h : Hdr) (l2 : Bool) (a : RegCode) (off : Word)
  | ldc (h : Hdr) (sz : LdSize) (d a : RegCode) (off : Word)
  -- 0x80 to 0x8A, GRP (09)
  | kjoin (h : Hdr) (k : BitVec 4)
  | kleave (h : Hdr) (k : BitVec 4)
  | kwait (h : Hdr) (k : BitVec 4)
  | ksetG (h : Hdr) (k : BitVec 4) (a : RegCode)
  | ksetCohort (h : Hdr) (k : BitVec 4)
  | ksetClr (h : Hdr) (k : BitVec 4)
  | ksetLive (h : Hdr) (k : BitVec 4)
  | kmov (h : Hdr) (d : RegCode) (k : BitVec 4)
  | kmovK (h : Hdr) (k j : BitVec 4)
  | elect (h : Hdr) (d : RegCode)
  | vote (h : Hdr) (m : VoteMode) (neg : Bool) (d a : RegCode)
  | shfl (h : Hdr) (m : ShflMode) (d a : RegCode) (b : ShflB) (c : RegCode)
  | redux (h : Hdr) (op : ReduxOp) (d a : RegCode)
  | matchLanes (h : Hdr) (wide : Bool) (m : MatchMode) (d a : RegCode)
  | rdlane (h : Hdr) (wide : Bool) (d a : RegCode) (b : Src)
  -- 0x90 to 0x98, MAT (11)
  | mlds (h : Hdr) (sp : Bool) (a b c : RegCode) (slot : BitVec 3)
  | mswap (h : Hdr)
  | mstr (h : Hdr) (set gang : Bool) (a b c : RegCode) (slot : BitVec 3) (bank : BitVec 2) (q0 : BitVec 8)
  | mstrr (h : Hdr) (set gang : Bool) (a c : RegCode) (slot : BitVec 3) (rows : Rows)
  | mzero (h : Hdr) (rows : Rows)
  | mbias (h : Hdr) (int : Bool) (a : RegCode) (rows : Rows)
  | mdrn (h : Hdr) (x : Drain) (z : Bool) (a b : RegCode) (rows : Rows)
  | mdrnr (h : Hdr) (x : Drain) (z : Bool) (d b : RegCode) (rows : Rows)
  | mgangLead (h : Hdr) (a : RegCode)
  | mgangJoin (h : Hdr) (a : RegCode) (bank : BitVec 2)
  | mgangLeave (h : Hdr)
  -- 0xA0 to 0xB7, MEM (15)
  | lds (h : Hdr) (sz : LdSize) (d a : RegCode) (off : Word)
  | sts (h : Hdr) (sz : StSize) (a : RegCode) (off : Word) (b : RegCode)
  | ldcl (h : Hdr) (sz : LdSize) (d a : RegCode) (off : Word)
  | stcl (h : Hdr) (sz : StSize) (a : RegCode) (off : Word) (b : RegCode)
  | ldx (h : Hdr) (sz : LdSize) (d a : RegCode) (off : Word)
  | stx (h : Hdr) (sz : StSize) (a : RegCode) (off : Word) (b : RegCode)
  | atom (h : Hdr) (op : AtomOp) (sz : AtSize) (ord : Ord4) (scope : Scope) (d a b : RegCode)
  | atoms (h : Hdr) (op : AtomOp) (sz : AtSize) (cl : Bool) (d a b : RegCode)
  | red (h : Hdr) (op : AtomOp) (sz : AtSize) (rel : Bool) (scope : Scope) (a b : RegCode)
  | fence (h : Hdr) (ord : Ord4) (scope : Scope)
  | relst (h : Hdr) (sz : WSize) (scope : Scope) (a b : RegCode)
  | relop (h : Hdr) (op : AtomOp) (sz : AtSize) (scope : Scope) (d a b : RegCode)
  | acqld (h : Hdr) (sz : WSize) (scope : Scope) (d a : RegCode)
  | acqwt (h : Hdr) (m : Cmp) (sz : WSize) (scope : Scope) (d a b c : RegCode)
  | remacq (h : Hdr) (a : RegCode)
  | barinit (h : Hdr) (a b : RegCode)
  | bararv (h : Hdr) (grp : Bool) (scope : Scope) (d c a : RegCode)
  | barwt (h : Hdr) (scope : Scope) (d c a b : RegCode)
  | bartst (h : Hdr) (scope : Scope) (d c a b : RegCode)
  | barexp (h : Hdr) (a b : RegCode)
  | bardrop (h : Hdr) (grp : Bool) (a : RegCode)
  | ldnc (h : Hdr) (sz : LdSize) (d a : RegCode) (off : Word)
  | cctlIvl (h : Hdr) (a : RegCode) (off : Word)
  | cctlIvall (h : Hdr)
  | cctlIvi (h : Hdr) (a : RegCode) (off : Word)
  | cctlIviall (h : Hdr)
  | cctlDrain (h : Hdr)
  | sigrdTest (h : Hdr) (d a : RegCode)
  | sigrdHash (h : Hdr) (d a : RegCode)
  | sigrdWord (h : Hdr) (d : RegCode) (slot : BitVec 2) (word : BitVec 5)
  -- 0xC0 to 0xCE, ENG (18)
  | xcopy (h : Hdr) (cmd : Cmd) (d a b c : RegCode)
  | xgath (h : Hdr) (cmd : Cmd) (d a b c : RegCode)
  | xscat (h : Hdr) (cmd : Cmd) (d a b c : RegCode)
  | xpack (h : Hdr) (cv : CvD) (sat auto : Bool) (cmd : Cmd) (slot : BitVec 3) (d a b c : RegCode)
  | xunpk (h : Hdr) (cv : Cv) (sat : Bool) (cmd : Cmd) (slot : BitVec 3) (d a b c : RegCode)
  | xfill (h : Hdr) (cmd : Cmd) (d a b c : RegCode)
  | wtany (h : Hdr) (d a : RegCode)
  | wtall (h : Hdr) (d a : RegCode)
  | ffrdy (h : Hdr) (d a : RegCode)
  | tagclr (h : Hdr) (a : RegCode)
  | cntwt (h : Hdr) (scope : Scope) (d c a b : RegCode)
  | rnginit (h : Hdr) (d a b c : RegCode)
  | rngnxt (h : Hdr) (d a : RegCode)
  | launch (h : Hdr) (wait : Bool) (d a : RegCode)
  | cjoin (h : Hdr)
  -- 0xD0 to 0xD8, SYS (19)
  | rte (h : Hdr)
  | movx (h : Hdr) (d : RegCode) (code : BitVec 12)
  | movxW (h : Hdr) (a : RegCode) (code : BitVec 12)
  | movxw (h : Hdr) (d : RegCode) (code : BitVec 12)
  | movxwW (h : Hdr) (a : RegCode) (code : BitVec 12)
  | tlbiv (h : Hdr) (a : RegCode) (off : Word)
  | tlbia (h : Hdr)
  | halttOthers (h : Hdr)
  | halttRelease (h : Hdr)
  | xdrainWait (h : Hdr)
  | xdrainCancel (h : Hdr)
  | fltqAck (h : Hdr) (a : RegCode)
  | fltqResume (h : Hdr)
  | fltqFail (h : Hdr)
  | dumpr (h : Hdr) (d a : RegCode)
  -- 0xE0 to 0xE4, NET (26, 25)
  | xresh (h : Hdr) (cmd : ReshCmd) (d a b : RegCode)
  | xredPush (h : Hdr) (scope : Scope) (tag : Option (BitVec 6)) (a b c : RegCode)
  | xredCancel (h : Hdr) (a : RegCode)
  | xmcast (h : Hdr) (scope : Scope) (tag : Option (BitVec 6)) (a b c : RegCode)
  | cwait (h : Hdr) (scope : Scope) (d c a b : RegCode)
  | pfence (h : Hdr) (vdn : Option RegCode)
  -- steps of the hardware and the firmware that a step of the model may ask for next
  | fetchLineArrival (core i : Nat)
  | pipeGroupChoice (core pipe : Nat)
  | kdeadDetect (gk : Nat)
  | sleepExpiry (gk lane : Nat)
  | epochAdvance
  | l1LineExpiry (core i : Nat)
  | wtbDrain (core i : Nat)
  | homeAccess (core i : Nat)
  | storeAck (core i : Nat)
  | loadFill (core i : Nat)
  | pageWalk (die : Nat)
  | runAheadStop (gk : Nat)
  | cardAccept (die : Nat)
  | cardStart (die cls : Nat)
  | cardSegmentDone (die card : Nat)
  | cardComplete (die card : Nat)
  | mldsComplete (plane : Nat)
  | mswapWavefront (plane : Nat)
  | mstrRowWrite (plane : Nat)
  | dispatchDecision (part die : Nat)
  | headUnitHold (part level : Nat)
  | planeSwitch (core : Nat)
  | launchAccept (func queue : Nat)
  | teamEnd (team : Nat)
  | gridComplete (grid : Nat)
  | spillReturn (grid : Nat)
  | blockedUnitSwap (part : Nat)
  | timeSliceEnd (part : Nat)
  | contextSave (core plane : Nat)
  | contextDump (core plane : Nat)
  | contextResume (func image core : Nat)
  | notify
  | notifyEnqueue
  | gangAttempt
  | meterReport (func : Nat)
  | powerSample (watts : Nat)
  | trowelRound (m : Nat)
  | forwardingEnd (m : Nat)
  | movedTimeout (core i : Nat)
  | responseSlotTimeout (core i : Nat)
  | earlyRetry
  | collectiveGroupBroken (group : Nat)
  | rekeyStart (dom : Nat)
  | keyInstall (dom : Nat)
  | rekeyBarrierArrival (dom member : Nat)
  | rekeyDone (dom : Nat)
  | seqExhausted (dom : Nat)
  | divisionComplete (gk i : Nat)
  | drainComplete (plane : Nat)
  | planeCleared (plane : Nat)
  | migResume (m : Nat)
  | deviceReady
  | remoteRequestReceive (pkt : Packet)
  | s2inv (func fpa len : Nat)
  | migCopyReceive (m : Nat) (pkt : Packet)
  -- 08, 09, 13, 14: events of a core
  | priResponse (func fpa : Nat) (ok : Bool)
  -- 22: the function host interface
  | queueSubmit (func queue : Nat) (pasid : Bool) (rec : List Byte)
  | resetQueue (func queue : Nat)
  | resetEngine (die : Nat) (cls : EngCls) (i : Nat)
  | resetPartition (part : Nat)
  | resetDie (die : Nat)
  | resetFlr
  | resetDevice
  | moduleResetPin
  | part (t : PartTarget) (p : Nat)
  | lend (core src dst : Nat)
  | recallCore (core src dst : Nat)
  | gang (l : List (Nat × Nat × Nat))
  | qthaw (func queue : Nat)
  | ringset (base len : Nat)
  | metrd (func fpa : Nat)
  | s2set (func root : Nat)
  | vfFlr (func : Nat)
  | vfEnableClear
  | metreqWrite (func v : Nat)
  | fqSetupWrite (func : Nat) (isLen : Bool) (v : Nat)
  | lpSaveRegWrite (func : Nat) (r : LpReg) (v : Nat)
  | errWordClear (func i v : Nat)
  | ringheadWrite (v : Nat)
  | overflowClear
  | domfailClear (func : Nat)
  | pwrlimWrite (v : Nat)
  | registerWrite (r : HostReg) (v : Nat)
  | keystoneRestart (failed : Bool)
  | ageingReplan (retire : Option Nat)
  | powerOn
  -- 23: live migration
  | migStart (m : Nat)
  | migAccept (m : Nat)
  | migAbort (m : Nat)
  | migForce (m : Nat)
  | migClear (m : Nat)
  -- 25, 26, 27: fabric, switch, domains
  | remoteResponseReceive (pkt : Packet)
  | fmVdnBind (func vdn : Nat)
  | fmVdnTableWrite (vdn : Nat) (v : Nat)
  | fmRedirectWrite (i v : Nat)
  | fmMeshSet (func mesh : Nat) (members : List Nat)
  | slotreq (pkt : Packet)
  | slotgrant (pkt : Packet)
  | push (pkt : Packet)
  | result (pkt : Packet)
  | mcast (pkt : Packet)
  | a2a (pkt : Packet)
  | cancel (pkt : Packet)
  | ack (pkt : Packet)
  | domainJoin (func dom epoch : Nat) (ok pre leads : Bool) (members : List Nat)
  -- 29: host memory, bring-up
  | hostMemAccess (a : HostAcc)
  | birsp (ma : Nat) (bytes : List Byte)
  | hostSnoop (ma : Nat)
  | atsInvalidation (func va len : Nat)
  | softError (p : ErrPlace) (corrected : Bool)
  | vfEnableSet (n : Nat)
  | bindRecordWrite (part slot : Nat) (rec : List Byte)
  | chipScratchpadGrant (func : Nat) (granules : List Nat)
  | domainLeave (func : Nat)
  | airanPortChange (port : Nat) (up : Bool)
  | configImageWrite (ver : Nat) (ok : Bool)
  deriving DecidableEq, Repr

end Sys2Proof
end

