-- ==== Sys2Proof/Machine/State.lean ====
section
/-!
DEFINITION. The state of the Denberdo as plain data: lanes (01), groups and teams (08), context planes, arrays and banks
(10), cores with their caches and buffers (13, 14), dies with cards and walkers (17, 20), functions with their register
pages and queues (22), partitions with their dispatchers (12), grids, the memories, the host interface, live migration
(23), the fabric (25, 26), trust domains (27) and power (29); then the model's own fields. Reset and the reasons a step can
stop stand at the end.
-/
namespace Sys2Proof.Machine

/-! ### Lane (01 R8, 19 R333) -/

/-- A register or predicate write that later issue points may not see yet (02 R36, R38). `dest` is a G code, or 256 + n
for Pn. `due` is the declared time from which it is visible; `none` while a variable-latency result is outstanding under
token `tok`. -/
structure Flight where
  dest : Nat
  val : Word
  due : Option Nat
  /-- false while the value of an outstanding result is not read or computed yet -/
  known : Bool
  tok : Nat
  /-- the data address of an uncorrectable soft error that the value carries (01 R23) -/
  mark : Option DWord
  deriving DecidableEq, Repr

/-- What stage 2 names (20 R358). -/
inductive Tgt where
  | loc (ma : Nat)
  | host (ha : Nat)
  | fab (vdn ma : Nat)
  | notify (func page off : Nat)
  deriving DecidableEq, Repr

/-- What a lane waits on (08 R148). `pc` stays at the waiting instruction. -/
inductive Wait where
  | none
  /-- KWAIT on K k (09 R158) -/
  | k (k : Nat)
  /-- ACQWT, or CNTWT when `cnt` (15 R273, 18 R326): virtual and function-physical address and target, comparison, size, operand, scope,
  D and C fields, and whether the address is a sync cell's VALUE (14 R257) -/
  | acq (cnt : Bool) (va : DWord) (fpa : Nat) (tgt : Tgt) (cmp : Cmp) (wide : Bool) (b : DWord) (sc : Scope) (d c : RegCode) (cell : Bool)
  /-- BARWT (15 R278) -/
  | bar (va : DWord) (fpa : Nat) (tgt : Tgt) (tok : Word) (sc : Scope) (d c : RegCode)
  /-- WTANY, or WTALL when `all` (18 R324) -/
  | tags (all : Bool) (mask : DWord) (d : RegCode)
  /-- LAUNCH.wait with its record (18 R329) -/
  | launch (rec : List Byte) (d : RegCode)
  | cjoin
  /-- CWAIT (26 R447) -/
  | chan (va : DWord) (fpa : Nat) (tgt : Tgt) (inst : Word) (sc : Scope) (d c : RegCode)
  /-- SLEEP until a clock value (06 R123) -/
  | sleep (till : Nat)
  /-- the fetch line of this FPA line is pending (08 R150) -/
  | fetch (line : Nat)
  /-- stage-2 pages sent to the host and not answered (19 R342) -/
  | pri (fpas : List Nat)
  /-- the page is moving; the access walks again after an S2INV (20 R361) -/
  | moving (fpa : Nat)
  /-- the walk of the virtual page of the fetch line is pending (08 R150) -/
  | walk (page : Nat)
  /-- a halted lane's wake, recorded with the results to write by code (19 R349); DUMPR shows the wait code still -/
  | satisfied (code : Nat) (ws : List (Nat × Word))
  /-- a wake while the lane's plane is being saved (21 R366): its results are written and its PC is past the wait -/
  | woken
  deriving DecidableEq, Repr

/-- One lane. -/
structure Lane where
  /-- G registers, landed values (default 0) -/
  g : Table Word := []
  /-- P0 to P6, landed values -/
  p : BitVec 7 := 0
  pc : DWord := 0
  /-- declared time: the sum of 1 + STALL over the lane's issue points (02 R35) -/
  dt : Nat := 0
  flights : List Flight := []
  /-- destinations of variable-latency results whose scoreboard no instruction has waited for, with the WSB code (02 R38) -/
  unw : List (Nat × Nat) := []
  xpc : DWord := 0
  xnpc : DWord := 0
  xaddr : DWord := 0
  xcause : Word := 0
  /-- 19 Table 19-2 -/
  xstate : Word := 0
  /-- XSAVE0 to XSAVE3 (default 0) -/
  xsave : Table DWord := []
  wait : Wait := .none
  /-- where the lane continues when its wait ends, and the token of the waiting instruction -/
  resume : DWord := 0
  wtok : Nat := 0
  /-- the FPA line (FPA / 64) of the fetch line that the lane has entered, its entry checks (01 R24) made -/
  fline : Option Nat := none
  skip : Nat := 0
  skipAt : Nat := 0
  /-- soft-error marks of landed registers, by G code, with the data address -/
  marks : Table DWord := []
  /-- poisoned registers and predicates in run-ahead (19 R340), coded as `Flight.dest` -/
  poison : List Nat := []
  deriving DecidableEq, Repr

/-! ### Group (08 R138) -/

/-- A write of an S register that some reader may not see yet (08 R145): the writing lanes with their due times, and the
clock from which every other lane sees it. A variable-latency instruction has one for each of its lanes, in rising order, and the value
of the highest lane that has not left stands. -/
structure SFlight where
  reg : Nat
  val : Word
  /-- the writing lanes, rising, with their declared times; the times mean nothing while a variable-latency result is outstanding
  (`clk = none`) -/
  dues : List (Nat × Nat)
  clk : Option Nat
  known : Bool
  tok : Nat
  mark : Option DWord
  /-- the result of its lane has come, and those of higher lanes of its instruction have not -/
  came : Bool := false
  deriving DecidableEq, Repr

/-- A barrier entry of the membership list (14 R257). -/
structure Member where
  va : DWord
  tgt : Tgt
  mgen : Word
  /-- clock of the last use and 8; below the clock and 8 for an entry that comes back in an image, by its recency (21 R371) -/
  used : Nat
  deriving DecidableEq, Repr

/-- An outstanding variable-latency instruction: its token, its WSB code and the lanes it still has to complete in
(02 R37). -/
structure Out where
  tok : Nat
  wsb : Nat
  lanes : BitVec 32
  deriving DecidableEq, Repr

/-- One page of a fault batch: page address, 1 read, 2 write, 3 fetch (19 Table 19-3). -/
structure PageEnt where
  page : Nat
  kind : Nat
  deriving DecidableEq, Repr

/-- The registers of a group that a checkpoint keeps (19 R339). -/
structure Ckpt where
  lanes : List Lane
  s : Table Word
  sflights : List SFlight
  smarks : Table DWord
  k : Table Word
  sb : Table Nat
  outs : List Out
  divs : List Nat
  sdone : Table Nat
  upper : BitVec 32
  deriving DecidableEq, Repr

/-- Run-ahead in progress (19 R339 to R342). -/
structure RunAhead where
  ckpt : Ckpt
  /-- the plane that holds the checkpoint -/
  plane : Nat
  ran : Nat
  s1pages : List PageEnt
  s2pages : List PageEnt
  /-- the faulting instruction, its cohort, and the first fault: true for PAGE1 -/
  fpc : DWord
  fva : DWord
  mask : BitVec 32
  page1 : Bool
  /-- why it stops (19 Table 19-4), once it does -/
  stop : Option Nat
  /-- the token of its fault record on the way to a peer (19 R336) -/
  sent : Option Nat := none
  deriving DecidableEq, Repr

/-- A PFENCE that waits (25 R429): its token, its lanes, and the VDN that it waits for, or all. -/
structure PFence where
  tok : Nat
  lanes : BitVec 32
  vdn : Option Nat
  deriving DecidableEq, Repr

/-- One group. -/
structure Group where
  lanes : List Lane := []
  s : Table Word := []
  sflights : List SFlight := []
  smarks : Table DWord := []
  /-- SB0 to SB5 -/
  sb : Table Nat := []
  /-- outstanding variable-latency instructions (02 R37) -/
  outs : List Out := []
  /-- tokens of the divisions outstanding, in issue order (03 R55) -/
  divs : List Nat := []
  k : Table Word := []
  live : BitVec 32 := 0
  halted : BitVec 32 := 0
  members : List Member := []
  /-- clock before which the group issues nothing (02 R35) -/
  nextIssue : Nat := 0
  /-- lanes placed last for the next cohort (08 R151) -/
  yielded : BitVec 32 := 0
  /-- the lanes whose pair has issued its lower slot and not yet its upper one (02 R34) -/
  upper : BitVec 32 := 0
  /-- by token of an instruction whose lanes wake one by one: 1 + the highest lane that has written its S register (08 R145) -/
  sdone : Table Nat := []
  /-- skip count on the pipe (12 R208) -/
  pskip : Nat := 0
  ra : Option RunAhead := none
  /-- 128-byte blocks of a peer that the record reads of the instruction about to issue have brought: VDN, address, bytes -/
  rbuf : List (Nat × Nat × List Byte) := []
  fences : List PFence := []
  deriving DecidableEq, Repr

/-- An outstanding instruction as an agent that completes it knows it: its group, its token, the lanes concerned. -/
structure Token where
  gk : Nat
  tok : Nat
  lanes : BitVec 32
  deriving DecidableEq, Repr

/-! ### Teams and grids (08, 17) -/

/-- The fields of a launch record (08 Table 8-2). -/
structure Rec where
  entry : Nat := 0
  args : Nat := 0
  ntx : Nat := 1
  nty : Nat := 1
  ntz : Nat := 1
  gpt : Nat := 1
  /-- N -/
  regs : Nat := 32
  /-- KiB -/
  spad : Nat := 0
  qb : Nat := 0
  tags : Nat := 0
  w : Nat := 1
  h : Nat := 1
  prio : Nat := 0
  chk : Bool := false
  ccnt : Nat := 0
  spb : Nat := 0
  spn : Nat := 0
  /-- SLOT0 to SLOT7 (04 R91) -/
  slots : List DWord := []
  deriving DecidableEq, Repr

/-- Gang state of a team (11 R195). -/
inductive Gang where
  | none
  /-- a leader with the ranks at positions 1 to 3 (`none`: empty or left) and whether it is formed -/
  | lead (ranks : List (Option Nat)) (formed : Bool)
  /-- a member with its leader's rank and its bank; `met` once the leader has listed it -/
  | member (leader : Nat) (bank : Nat) (met : Bool)
  deriving DecidableEq, Repr

/-- A resident team. -/
structure Team where
  func : Nat
  grid : Nat
  /-- linear index t (R141) -/
  idx : Nat
  rank : Nat
  /-- 160 × die + %core, and the plane 0 to 2 -/
  core : Nat
  plane : Nat
  lrec : Rec
  spad : Table Byte := []
  /-- marked 8-byte words (13 R216) -/
  spadMarks : List Nat := []
  /-- bytes that stores replaced while matrix instructions were outstanding: address, old value, first token after the store (11 R187) -/
  spadOld : List (Nat × Byte × Nat) := []
  qmask : BitVec 4 := 0
  tagBase : Nat := 0
  lpslot : Option Nat := none
  children : Nat := 0
  gang : Gang := .none
  /-- the group that halted the others (19 R349) -/
  halter : Option Nat := none
  /-- XDRAINs outstanding: each with the first card that it does not wait for (19 R350) -/
  drains : List (Token × Nat) := []
  /-- order of placement (12 R208) -/
  order : Nat := 0
  /-- all groups have ended; the cards have not (08 R142) -/
  ended : Bool := false
  deriving DecidableEq, Repr

/-- An accepted grid. -/
structure Grid where
  func : Nat
  queue : Nat
  lrec : Rec
  eff : Nat
  /-- the team that launched it, for a child (17 R306) -/
  parent : Option Nat := none
  /-- teams placed so far, and teams not ended -/
  placed : Nat := 0
  ended : Nat := 0
  abandoned : Bool := false
  /-- complete but for a counter that waits on PRI (08 R143) -/
  waitPri : Option Nat := none
  /-- order of acceptance -/
  order : Nat := 0
  /-- child records in the spill area of the grid: first and next serial number (17 R307) -/
  spillHead : Nat := 0
  spillTail : Nat := 0
  /-- parents of the spilled records, oldest first -/
  spillParents : List Nat := []
  deriving DecidableEq, Repr

/-! ### Context planes (10, 14, 17) -/

/-- A slot of a signature ring (14 R247). -/
structure RSlot where
  bits : BitVec 1024 := 0
  epoch : Nat := 0
  sat : Bool := false
  deriving DecidableEq, Repr

/-- The live or shadow plane of the array (10 R168, R169): expanded weights as X codes (04 R87) by stored row × 64 + column,
and the class, sparsity and kind set by the load. -/
structure WPlane where
  w : Table Nat := []
  /-- metadata nibbles of a sparse tile, by logical group × 64 + column (R173) -/
  md : Table Nat := []
  cls : Nat := 16
  sparse : Bool := false
  int : Bool := false
  /-- marked weights (R184) -/
  marks : List Nat := []
  deriving DecidableEq, Repr

/-- Where a stream takes its rows from: a team's scratchpad, or the words captured from registers (11 R191, R192). -/
inductive MatSrc where
  | pad (team a : Nat)
  | regs (rows : List (List Byte))
  /-- a row that a gang's leader has sent: its bytes, its scales, whether a marked byte is among them (10 R181) -/
  | row (bytes : List Byte) (scales : List Nat) (marked : Bool)
  deriving DecidableEq, Repr

/-- A matrix instruction that has issued and is not complete (10 R170), with what it captured at issue. -/
inductive MatOp where
  | load (tok : Token) (team : Nat) (cls : Nat) (sp int : Bool) (slot : DWord) (a b c : Nat)
  | swap (tok : Token)
  /-- a stream: bank, first bank row, next row and number of rows, `.set`, whether its rows are those of a sparse tile,
  the activation slot, the rows, the team and offset of the scales, and the gang members that receive each row: position, team
  and bank -/
  | stream (tok : Token) (bank q0 next rows : Nat) (set sp : Bool) (slot : DWord) (src : MatSrc) (team c : Nat)
      (members : List (Nat × Nat × Nat))
  | zero (tok : Token) (bank q0 n : Nat)
  | bias (tok : Token) (team : Nat) (int : Bool) (bank q0 n a : Nat)
  /-- a drain to scratchpad, or with `dest` to registers from that code in the token's lanes; `half`: it has written some bytes -/
  | drain (tok : Token) (team : Nat) (bank q0 n : Nat) (x : Drain) (z : Bool) (slot : DWord) (scale : Word) (a : Nat)
      (dest : Option Nat) (half : Bool)
  deriving DecidableEq, Repr

/-- A context plane of a core. -/
structure Plane where
  func : Option Nat := none
  teams : List Nat := []
  cleared : Bool := true
  tagReady : DWord := 0
  tagCount : Table Nat := []
  tagStatus : Table Nat := []
  ring : List RSlot := [{}, {}, {}]
  liveW : WPlane := {}
  shadowW : WPlane := {}
  /-- Q banks: bank × 16384 + row × 64 + column (default 0) -/
  banks : Table Word := []
  bankMarks : List Nat := []
  matq : List MatOp := []
  deriving DecidableEq, Repr

/-! ### Translation (20) -/

/-- A cached valid leaf: the group of `2^run` pages that begins at page `base`, the walked page and its leaf. -/
structure TlbE where
  func : Nat
  base : Nat
  len : Nat
  page : Nat
  leaf : DWord
  deriving DecidableEq, Repr

/-- Stage-1 and stage-2 translations held by a core, or by the walkers and engines of a die (20 R359). -/
structure Tlb where
  s1 : List TlbE := []
  s2 : List TlbE := []
  deriving DecidableEq, Repr

/-- A queued walk (20 R360): the virtual page, and the agents whose caches take it: a core (some c), or the die's own engines and
walkers. Misses on one page of a function merge into one. -/
structure WalkReq where
  func : Nat
  /-- the virtual page -/
  page : Nat
  agents : List (Option Nat)
  /-- stage 1 alone is walked (15 R281) -/
  one : Bool := false
  deriving DecidableEq, Repr

/-- A page request that the host has not answered (20 R361): the page FPA, whether it carried the Last bit, and its PASID. The function is
the requester ID. -/
structure PriReq where
  page : Nat
  last : Bool
  pasid : Nat := 0
  deriving DecidableEq, Repr

/-- Why a walk found no usable leaf (20 R354, R357, R361). -/
inductive WalkFail where
  | page1
  | page2 (fpa : Nat)
  | access2
  | moving (fpa : Nat)
  deriving DecidableEq, Repr

/-- A walk that an agent has made and that found no leaf, by function and virtual page. -/
structure NoLeaf where
  func : Nat
  page : Nat
  why : WalkFail
  deriving DecidableEq, Repr

/-! ### Core (13, 02, 25) -/

/-- KIND of an L1 line (13 Table 13-5): what stage 2 gave. -/
inductive LineKind where | loc | host | fab
  deriving DecidableEq, Repr

/-- An L1 line (13 Table 13-5). `line` is FPA[51:9]; bytes by offset 0 to 511 (default 0). `stable` keeps the page's attribute. -/
structure L1Line where
  func : Nat
  line : Nat
  valid : BitVec 16
  fepoch : Nat
  kind : LineKind
  stable : Bool
  data : Table Byte
  marks : List Nat := []
  deriving DecidableEq, Repr

/-- Where a write-through buffer entry stands: buffered, sent towards its home, performed there. -/
inductive WtbSt where | buffered | sent | performed
  deriving DecidableEq, Repr

/-- A write-through buffer entry (13 R228): one 32-byte sector of one function. `fpa` is the sector's FPA. -/
structure WtbE where
  func : Nat
  fpa : Nat
  tgt : Tgt
  mask : BitVec 32
  data : Table Byte
  /-- the planes into whose rings its line goes at the acknowledgement (14 R249) -/
  rings : List Nat
  st : WtbSt := .buffered
  /-- its place in the order in which the homes have served the core's requests, once it is performed (14 R246) -/
  seq : Nat := 0
  /-- outstanding instructions that it completes -/
  toks : List Token := []
  deriving DecidableEq, Repr

/-- A grain-aligned block that a load asked for (13 R225): the line FPA / 512, the block's offset in it and its length, the
home of its first byte, and %epoch when the request left (14 R245). Of a peer's block `keep` selects the sectors that L1 takes. -/
structure Fill where
  func : Nat
  line : Nat
  off : Nat
  len : Nat
  keep : BitVec 16 := 0xFFFF
  tgt : Tgt
  stable : Bool
  fepoch : Nat
  deriving DecidableEq, Repr

/-- A load outstanding towards its home (06 R127). The values are captured when the load issues; LOAD_FILL makes them visible
and installs the blocks. -/
structure PendLoad where
  what : Token
  fills : List Fill
  /-- the home slices that have served it, and its place in the order in which homes have served the core's requests (14 R246) -/
  slices : List Nat := []
  seq : Nat := 0
  /-- false once an acquire's walk or an atomic would have invalidated the fill (14 R246, R259) -/
  install : Bool := true
  deriving DecidableEq, Repr

/-- An instruction-cache line (02 R33): function, FPA line (FPA / 64) and its 64 bytes. -/
structure ILine where
  func : Nat
  line : Nat
  bytes : List Byte
  /-- the line failed CHECK twice -/
  bad : Bool := false
  deriving DecidableEq, Repr

/-- A fetch on its way: requested by the function's lanes, with its translation. -/
structure Fetch where
  func : Nat
  line : Nat
  tgt : Tgt
  retried : Bool := false
  /-- false while a request to a peer has found no response slot (25 R424) -/
  sent : Bool := true
  deriving DecidableEq, Repr

/-- What an operation at a home does to one location (15 R258, R269, R276 to R279), as a packet also carries it. -/
inductive HomeOp where
  /-- FN of Table 15-4, bytes, B, C, and whether RELOP makes the completion test of a barrier cell (15 R271) -/
  | atom (fn size b c : Nat) (relop : Bool)
  | barInit (expect : Nat)
  | barArrive (n : Nat)
  | barTest (tok : Nat)
  | barExpect (n : Nat)
  | barDrop (n : Nat)
  /-- BROKEN is set if MGEN is `mgen` (14 R257) -/
  | barBreak (mgen : Nat)
  /-- RNGINIT (18 R327): NEXT, END, WORKERS and MINCHUNK -/
  | rngInit (next stop workers chunk : Nat)
  /-- RNGNXT (17 R305) -/
  | rngNext
  /-- the increment of a completion counter whose target may be a sync cell (08 R143) -/
  | gridDone
  deriving DecidableEq, Repr

/-- What a response brings back to its requester (25 R423). Lanes stand with their byte offset in the request's block. -/
inductive RWhat where
  | load (gk tok : Nat) (sz : LdSize) (d : RegCode) (lanes : List (Nat × Nat)) (va : DWord) (acq : Option Scope)
      (fill : Option Fill)
  /-- the old value or the result of a home operation: D, and the predicate of a barrier instruction -/
  | op (gk tok : Nat) (size : Nat) (d : RegCode) (c : Option RegCode) (lanes : List (Nat × Nat)) (acq : Option Scope)
      (ops : List HomeOp) (va : DWord)
  /-- the watches of ACQWT, CNTWT, BARWT or CWAIT in one block: the request is made again until the conditions hold; whether it is the
  first -/
  | watch (gk tok : Nat) (lanes : List Nat) (first : Bool)
  | fetch (func line : Nat)
  | pref (gk tok : Nat) (fill : Fill)
  /-- a block of a record that an instruction of the group reads (18 R315, R329) -/
  | recd (gk vdn ma : Nat)
  /-- a block that the device itself reads for a function: an image, a record, a spilled child -/
  | dev (func vdn ma : Nat)
  /-- a block of a card's source -/
  | card (die id vdn ma : Nat)
  /-- the increment of a card's counter, or an update of its barrier or channel -/
  | cardCtr (die id : Nat)
  deriving DecidableEq, Repr

/-- A response slot in use (25 R423): the packets of its request that are not answered, by their number in it, the payloads that have come
and whether one was marked; the clock of the request and of the first MOVED. -/
structure RReq where
  pkts : Table Packet
  got : Table (List Byte) := []
  marked : Bool := false
  since : Nat
  movedAt : Option Nat := none
  what : RWhat
  func : Nat
  deriving DecidableEq, Repr

/-- A remote store that is not acknowledged (25 R424). -/
structure RStore where
  pkt : Packet
  what : Token
  func : Nat
  movedAt : Option Nat := none
  deriving DecidableEq, Repr

/-- A peer entry (25 R423): its VDN, its response slots 0 to 7, its unacknowledged stores in the order sent. -/
structure Peer where
  vdn : Nat
  slots : Table RReq := []
  stores : List RStore := []
  deriving DecidableEq, Repr

/-- A request to a peer that the device makes by itself and that has not found room yet: function, VDN, type, address, payload, and what
its response brings; a store carries a token instead. -/
structure RLater where
  func : Nat
  vdn : Nat
  type : Nat
  addr : Nat
  payload : List Byte
  what : RWhat
  tok : Option Token := none
  deriving DecidableEq, Repr

/-- One core. -/
structure Core where
  live : Nat := 0
  part : Option Nat := none
  lentTo : Option Nat := none
  l1 : List L1Line := []
  wtb : List WtbE := []
  icache : List ILine := []
  fetches : List Fetch := []
  tlb : Tlb := {}
  wfail : List NoLeaf := []
  loads : List PendLoad := []
  /-- requests to peers that the device makes for the core and that have found no room, oldest first (25 R423, R424) -/
  later : List RLater := []
  /-- requests of the core that homes have served (14 R246) -/
  served : Nat := 0
  /-- peer entries 0 to 15 -/
  peers : Table Peer := []
  /-- per pipe: the group of the previous issue, when that issue carried YLD -/
  yld : Table Nat := []
  deriving DecidableEq, Repr

/-- Where an instruction stands in the issue point of its line (02 R34): alone, the lower slot of a pair, or the upper
slot of a pair whose lower slot has taken effect. -/
inductive PairPos where | single | lower | upper
  deriving DecidableEq, Repr

/-- What issues next, as PIPE_GROUP_CHOICE left it: a group and its cohort. -/
structure Cur where
  gk : Nat
  cohort : BitVec 32
  pos : PairPos
  deriving DecidableEq, Repr

/-! ### Job cards (17, 21 Table 21-8, 26) -/

/-- Where a card stands. -/
inductive CardSt where
  /-- formed, on its way to the Plumb scheduler (R296) -/
  | formed
  /-- accepted, with edges that are not satisfied -/
  | waiting
  /-- in its function's virtual queue, with its place in the order of joining (R300) -/
  | ready (place : Nat)
  | running (engine : Nat)
  /-- paused at a stage-1 fault at this address; whether its KIND 2 record is still to be written (19 R338) -/
  | paused (engine : Nat) (va : Nat) (unwritten : Bool)
  /-- its elements are carried, or it has ended: its completion is due -/
  | finished (engine : Nat)
  deriving DecidableEq, Repr

/-- Bytes that a card stores into a block of a peer: their offset, and whether they carry a mark (13 R231). -/
structure Piece where
  off : Nat
  bytes : List Byte
  marked : Bool
  deriving DecidableEq, Repr

/-- A job card (R290), with the fields of a JOB record. -/
structure Card where
  /-- order of forming -/
  id : Nat
  func : Nat
  team : Nat
  /-- linear index of the team (R141) -/
  tidx : Nat
  plane : Nat
  core : Nat
  maj : Nat
  fn : Nat
  imm : Nat
  /-- the mode of the issuing lanes (R301) -/
  sup : Bool
  pattern : DWord := 0
  slot : DWord := 0
  /-- counter, barrier or channel address; 0 for none -/
  counter : Nat := 0
  /-- coordinates in run order; for collective cards first tile or step, tile count (of an XRESH, tiles pushed in its step), instance -/
  orig : List Int := []
  srec : List Byte := []
  drec : List Byte := []
  xrec : List Byte := []
  st : CardSt := .formed
  /-- earlier cards that it waits for -/
  edges : List Nat := []
  /-- completed segments (21 R365), or tiles pushed (26 R449) -/
  done : Nat := 0
  status : Nat := 0
  /-- the address at which it was refused (19 Table 19-3) -/
  fva : Nat := 0
  /-- its signature (14 R262) -/
  sig : List RSlot := []
  /-- source bytes that peers have sent for the segment in hand, by 2^90 + VDN × 2^52 + address, with 1, or 2 for a marked block, 2^80
  above a block's key; and the pieces of collectives that have come -/
  buf : Table Byte := []
  /-- its segment in hand has begun, and the elements of it that are still to be carried, in their order -/
  inseg : Bool := false
  todo : List Nat := []
  /-- scale bytes that XPACK.auto has given the blocks of the segment in hand, by the block's first element (18 R322) -/
  scales : List (Nat × Nat) := []
  /-- the bytes that it has written since the segment began: 1, or 2 for a marked one (13 R216, R231); local addresses, host addresses from
  2^60, the chip scratchpad from 2^61, a team's scratchpad from 2^62 + team × 2^40 -/
  wrote : Table Nat := []
  /-- stores of the segment in hand to peers that have not left: VDN, 128-byte block, pieces with their offsets and whether they carry
  a mark -/
  outq : List (Nat × Nat × List Piece) := []
  /-- the token of stores to peers that are not acknowledged -/
  tok : Option Nat := none
  /-- the answer of a peer to the update of its completion -/
  ctrDone : Option Nat := none
  /-- cancelled while it runs: it ends with the segment in hand (19 R350) -/
  ending : Bool := false
  /-- a paused card that FLTQ.resume lets go on once its record is written (19 R338) -/
  again : Bool := false
  /-- tiles or parts whose results have arrived (26 R447) -/
  got : List Nat := []
  /-- 0: no instance yet; 1: its slot is asked for; 2: granted (26 R439) -/
  phase : Nat := 0
  /-- its JOB record says that it has been started before (21 Table 21-8) -/
  started : Bool := false
  /-- a collective card whose plane is saved: it pushes nothing, and its results keep landing (26 R449) -/
  out : Bool := false
  deriving DecidableEq, Repr

/-! ### Die, function, partition -/

/-- One die (17, 20, 10 R184). -/
structure Die where
  tlb : Tlb := {}
  walkq : List WalkReq := []
  /-- walks that hold a walker, oldest first (20 R360) -/
  walking : List WalkReq := []
  /-- running values of the two SmoothPicks of the walkers (20 R360), by function -/
  walkCur1 : Table Int := []
  walkCur2 : Table Int := []
  wfail : List NoLeaf := []
  /-- cards formed and not accepted, oldest first; cards accepted, in order of acceptance -/
  cardQ : List Card := []
  cards : List Card := []
  /-- running values of the arbiters (R300), by 128 × class + function -/
  arb : Table Int := []
  /-- the next place in a virtual queue -/
  place : Nat := 0
  /-- soft errors and other reports counted by the die's error log (10 R184, 01 R23) -/
  errlog : Nat := 0
  deriving DecidableEq, Repr

/-- The meters of a function (22 Table 22-4). -/
structure Meter where
  ccyc : Nat := 0
  /-- MAC0 to MAC5 -/
  mac : Table Nat := []
  ebytes : Nat := 0
  hbmbs : Nat := 0
  fbytes : Nat := 0
  /-- reports made -/
  seq : Nat := 0
  /-- the last finalised report, 512 bytes -/
  final : Option (List Byte) := none
  deriving DecidableEq, Repr

/-- The collective mesh of a function (26 R432): extents, and the member VDNs by coordinate, axis 0 outermost. -/
structure Mesh where
  ext : List Nat
  vdns : List Nat
  deriving DecidableEq, Repr

/-- The algorithm that a reduction slot fixes (26 R441). -/
structure Alg where
  axes : Nat
  elt : Nat
  op : Nat
  skip : Nat
  tileb : Nat
  ntile : Nat
  deriving DecidableEq, Repr

/-- A reduction slot of the Airan switch, or a request for one (26 R439 to R441). -/
structure SwSlot where
  /-- the VDNs of the group by rank -/
  group : List Nat
  handle : Nat
  /-- the instance modulo 2^20 -/
  inst : Nat
  alg : Alg
  /-- the requester with the weight of its function, and the clock of arrival -/
  vdn : Nat
  weight : Nat
  since : Nat
  /-- 0 XRED or a step of XRESH, 1 XMCAST, 2 a step of a persistent XRESH -/
  kind : Nat
  /-- members told of the grant -/
  granted : List Nat := []
  /-- contributions by rank × 2^60 + tile × 2^20 + offset, and the pieces that have come, by 256 × that + length -/
  parts : Table Byte := []
  came : List Nat := []
  /-- tiles reduced -/
  tiles : List Nat := []
  /-- tile × 2^20 + offset of the pieces that carry soft-error marks (13 R231) -/
  marks : List Nat := []
  /-- receiver rank × 2^48 + sender rank × 2^32 + tile of the tiles acknowledged -/
  acked : List Nat := []
  deriving DecidableEq, Repr

/-- The Airan switch (26 R432, R439). -/
structure Switch where
  meshes : List Mesh := []
  slots : List SwSlot := []
  queue : List SwSlot := []
  /-- requests that have arrived in this cycle, with their packets -/
  inbox : List (SwSlot × Packet) := []
  /-- packets that have left the switch, oldest first -/
  out : List Packet := []
  /-- SEQ of the collective channel by domain (27 R455), and its replay windows by (epoch × 4 + channel) × 4096 + SRC (R456) -/
  seq : Table Nat := []
  replay : Table (Nat × Nat) := []
  deriving DecidableEq, Repr

/-- A saved image of a plane (21 R363): what the Keystone pair keeps of it. -/
structure Saved where
  func : Nat
  /-- where the image lies in the save area, and its length -/
  va : Nat
  len : Nat
  /-- the teams in placement order with their grids -/
  teams : List (Nat × Nat)
  core : Nat
  plane : Nat
  /-- images of one decision cycle that are restored together (R363) -/
  batch : Nat
  /-- swapped out under 17 R311, not placed until its wait is satisfied -/
  blocked : Bool
  /-- effective priority of its unit -/
  eff : Nat
  /-- children of each team that are not complete, and the lane-private slots of the teams -/
  kids : List (Nat × Nat) := []
  lps : List Nat := []
  /-- waits of each team: some lane in LAUNCH.wait, some lane in CJOIN (17 R311) -/
  waits : List (Nat × Bool × Bool) := []
  /-- the gang state of its teams: grid, linear index, rank, and the team's own (11 R197) -/
  gangs : List (Nat × Nat × Nat × Gang) := []
  /-- the core and the plane that a decision of the dispatcher has given it (12 R202) -/
  place : Option (Nat × Nat) := none
  /-- its cards as they stood, in the order of the JOB records -/
  cards : List Card := []
  deriving DecidableEq, Repr

/-- Why a plane is saved (21 R363). -/
inductive SaveWhy where | slice | swap | dump
  deriving DecidableEq, Repr

/-- A save in progress: the plane, the decision that it belongs to, and why. -/
structure SaveJob where
  plane : Nat
  batch : Nat
  why : SaveWhy
  /-- an image whose stores to a peer are on their way: their token, its place and its length -/
  out : Option (Nat × Nat × Nat) := none
  deriving DecidableEq, Repr

/-- One function (22 R377, R378, Table 22-1). -/
structure Func where
  exist : Bool := false
  /-- the function existed, and VF Enable was cleared (22 R389) -/
  gone : Bool := false
  part : Option Nat := none
  frozen : Bool := false
  xvec : DWord := 0
  s1root : DWord := 0
  s2root : Nat := 0
  lpbase : DWord := 0
  lpsize : Nat := 0
  lpteams : Nat := 0
  fqbase : DWord := 0
  fqlen : Nat := 0
  fqhead : Word := 0
  fqtail : Word := 0
  fqLost : Nat := 0
  /-- ERR0 to ERR63 (22 Table 22-2) -/
  err : Table Word := []
  /-- the VDN bound to the function (25 R419) -/
  vdn : Option Nat := none
  clockOff : Int := 0
  /-- WRSV and WMAX by die (20 R360; defaults 0 and 64) -/
  wrsv : Table Nat := []
  wmax : Table Nat := []
  /-- chip-scratchpad granules in order of the grant (13 R219) -/
  grant : List Nat := []
  /-- records held by queue, oldest first (22 R379) -/
  queues : Table (List (List Byte)) := []
  savebase : Nat := 0
  savelen : Nat := 0
  /-- the buffer of a meter report that is asked for; METSTAT -/
  metreq : Option Nat := none
  metstat : Nat := 0
  meter : Meter := {}
  mesh : Option Mesh := none
  /-- PRI page requests sent and not answered; the allocation that the host wrote (20 R361) -/
  pri : List PriReq := []
  priMax : Nat := 32
  /-- the PASID that the host has enabled -/
  pasid : Nat := 0
  /-- groups of pages whose requests wait for room, oldest first -/
  priWait : List (List Nat) := []
  /-- ATS is enabled, and the 4 KiB pages of host addresses whose translations the device keeps (20 R358) -/
  ats : Bool := true
  atc : List Nat := []
  /-- blocks that peers have sent for a read of the device's own: VDN, address, bytes -/
  devBuf : List (Nat × Nat × List Byte) := []
  /-- fault records on their way to a peer: token, and stores that are not acknowledged (19 R336) -/
  fqOut : List (Nat × Nat) := []
  /-- by handle: the current instance, NTILE, and the tiles pushed in it (26 R440) -/
  hsets : Table (Nat × Nat × List Nat) := []
  /-- DOMSTAT.STATE with the domain number, and DOMFAIL (27 Table 27-4) -/
  domState : Nat := 0
  dom : Nat := 0
  domFail : Nat := 0
  /-- the least epoch under which the function seals requests (27 R459) -/
  sealFrom : Nat := 0
  /-- SEQ counters by channel (27 R455); replay windows by (epoch × 4 + channel) × 4096 + SRC: H + 1 and the map (R456) -/
  seqs : Table Nat := []
  replay : Table (Nat × Nat) := []
  deriving DecidableEq, Repr

/-- One partition: its dispatch unit (12, 17 R306). -/
structure Part where
  /-- bind records as numbers of 512 bits (default 0) -/
  slots : Table Nat := []
  /-- running values of the smooth round robin, by 128 × level + function (R203) -/
  cur : Table Int := []
  /-- the head unit and its pass-overs, by 128 × level + function (R205) -/
  passed : Table (Nat × Nat) := []
  /-- the function that holds and its unit, by level -/
  holds : Table (Nat × Nat) := []
  /-- child grids in the pending pool, oldest first -/
  pool : List Nat := []
  /-- the die whose dispatcher decides next (R202) -/
  turn : Nat := 0
  deriving DecidableEq, Repr

/-- An entry of the VDN table (25 Table 25-3). -/
structure VdnEnt where
  ports : BitVec 64 := 0
  valid : Bool := false
  accept : Bool := false
  deriving DecidableEq, Repr

/-- An entry of the redirect table (25 Table 25-4). -/
structure RedEnt where
  vdn : Nat := 0
  w : Bool := false
  r : Bool := false
  old : Nat := 0
  new : Nat := 0
  len : Nat := 0
  valid : Bool := false
  deriving DecidableEq, Repr

/-- A store to a notify page that waits for its enqueue or its event (22 R380): the target, the writing lane with its
mode, its plane and core, and the bytes stored. -/
structure Notify where
  func : Nat
  page : Nat
  off : Nat
  writer : Nat
  core : Nat
  plane : Nat
  sup : Bool
  bytes : List Byte
  deriving DecidableEq, Repr

/-- A trust domain as this device knows it (27 R450, R457, R458). -/
structure Dom where
  /-- member VDNs -/
  members : List Nat := []
  /-- this device's Keystone pair leads the domain -/
  leader : Bool := false
  epoch : Nat := 0
  /-- the members that have arrived, while a rekey is in progress -/
  rekey : Option (List Nat) := none
  /-- the next key is installed here, and the senders have switched to it -/
  switched : Bool := false
  /-- a further rekey is due -/
  again : Bool := false
  /-- cards that had collective packets out when the next key was installed: the card, whether it had asked for a slot, and the tiles that it
  had pushed, or 1 + its step (R458) -/
  pushes : List (Nat × Bool × Nat) := []
  deriving DecidableEq, Repr

/-- A migration control block (23 Table 23-1). -/
structure Mig where
  func : Nat := 0
  peer : Nat := 0
  budget : Nat := 0
  bw : Nat := 0
  /-- STATE, Table 23-2 -/
  st : Nat := 0
  round : Nat := 0
  pred : Nat := 0
  resid : Nat := 0
  blackout : Nat := 0
  /-- the clock of the decision cycle, of the manifest's arrival, or of step 6 -/
  since : Nat := 0
  /-- on the destination, the manifest; on the source, the meter bytes of the decision cycle -/
  manifest : Option (List Byte) := none
  /-- the VDN that is forwarded -/
  vdn : Option Nat := none
  /-- on the source, where the Trowel stands: 0 before a snapshot or a sweep, 1 copying, 2 the map is announced in PRECOPY or the manifest
  sent in STOPPING; on the destination: 0 receiving, 1 step 6 has come, 2 restored. Then the blocks still to copy (machine address / 512),
  and copies that are not acknowledged -/
  phase : Nat := 0
  todo : List Nat := []
  unacked : Nat := 0
  /-- packets of peers held from the final sweep on (R400) -/
  hold : List Packet := []
  /-- the pages that the source maps locally, as it has told the destination: FPA page, machine page, number (R392); announcements that
  the destination answers once it accepts -/
  map : List (Nat × Nat × Nat) := []
  owed : List Packet := []
  /-- the manifest as it comes, by offset -/
  pieces : Table (List Byte) := []
  /-- what copies have written on the destination: machine addresses / 128, or 2^60 + offset in the chip scratchpad / 128 -/
  recv : List Nat := []
  /-- the clock at which a copy was last sent or acknowledged -/
  last : Nat := 0
  /-- blocks of the final sweep that the host has written since, with their bytes at the sweep (R400) -/
  kept : List (Nat × List Byte) := []
  deriving DecidableEq, Repr

/-- A track window that is VALID (23 Table 23-3). Its dirty map is the 16 × `len` bytes of device memory at `map`, which no function's access
reaches: `dirty` holds its set bits. -/
structure Win where
  func : Nat
  /-- MA / 64 KiB, and the length in 64 KiB -/
  base : Nat
  len : Nat
  /-- MAP, a multiple of 16 -/
  map : Nat
  /-- the blocks whose bit is set: machine addresses / 512, ascending -/
  dirty : List Nat := []
  deriving DecidableEq, Repr

/-- A gang launch that has not started (22 R386): its sequence number, its parts, and the clock of the next attempt. -/
structure GangCmd where
  seq : Nat
  parts : List (Nat × Nat × Nat)
  next : Nat
  deriving DecidableEq, Repr

/-- A sync object that is still to become BROKEN once its page translates (14 R257): the core and the function with its stage-1 root, the
address, and of a barrier's member the MGEN that it must have. -/
structure Break where
  core : Nat
  func : Nat
  root : DWord
  va : Nat
  mgen : Option Nat
  deriving DecidableEq, Repr

/-- The whole machine. -/
structure State where
  cores : Table Core := []
  /-- by 3 × core + plane -/
  planes : Table Plane := []
  teams : Table Team := []
  /-- by 32 × team + %gid -/
  groups : Table Group := []
  grids : Table Grid := []
  dies : Table Die := []
  funcs : Table Func := []
  parts : Table Part := []
  saved : List Saved := []
  /-- local machine memory as the homes hold it, L2 included (default 0, 29 R473) -/
  mem : Table Byte := []
  /-- marked bytes (13 R231) -/
  memMarks : List Nat := []
  /-- local lines, MA / 512, that the L2 slices may hold dirty, least recently written first (13 R230) -/
  l2Dirty : List Nat := []
  hostMem : Table Byte := []
  /-- marked bytes of host memory in lines that the device holds (13 R231) -/
  hostMarks : List Nat := []
  /-- chip scratchpad by granule × 2^20 + offset -/
  chip : Table Byte := []
  chipMarks : List Nat := []
  /-- %clock of the device, in cycles of the reference clock (08 R144) -/
  clock : Nat := 0
  /-- %epoch (14 R244) -/
  epoch : Nat := 0
  /-- device-held L2 lines of host memory, by host address / 512, with the partition that fetched each (13 R234) -/
  hostLines : Table Nat := []
  /-- snoop filter: local lines, MA / 512, that the host holds (29 R466), and those with a BISnpInv outstanding -/
  snoop : List Nat := []
  biPend : List Nat := []
  /-- lines that the host has given back for a device write that is still to come, and host accesses that wait for it, oldest
  first (29 R466) -/
  biGo : List Nat := []
  hostWait : List HostAcc := []
  vdnTable : Table VdnEnt := []
  redirect : Table RedEnt := []
  /-- working Airan ports (25 R420) -/
  ports : BitVec 64 := 0
  /-- packets dropped for a reserved field, by port (25 R418) -/
  portErr : Table Nat := []
  /-- packets of the fabric that have left (25), oldest first -/
  netOut : List Packet := []
  /-- fabric requests that wait for a BIRsp, oldest first -/
  netWait : List Packet := []
  /-- the Airan switch, collective traffic held for an instance to start (26 R443), and packets sent again after a NACK with
  the clock at which -/
  sw : Switch := {}
  collHeld : List Packet := []
  early : List (Nat × Packet) := []
  notifyQ : List Notify := []
  -- the host event ring (22 Table 22-6)
  ringBase : Nat := 0
  ringLen : Nat := 0
  ringHead : Word := 0
  ringTail : Word := 0
  /-- OVERFLOW of RINGSTAT -/
  ringOverflow : Bool := false
  /-- events held until a RINGSET, oldest first: 64 bytes each (22 R384) -/
  held : List (List Byte) := []
  /-- sync objects that become BROKEN once their pages are there (14 R257, 20 R361) -/
  breaks : List Break := []
  /-- the plane saves in progress (21 R364) -/
  saving : List SaveJob := []
  /-- PF commands written since the last FLR or DEVICE rung; gang launches in progress (22 R385, R386) -/
  cmdSeq : Nat := 0
  gangs : List GangCmd := []
  /-- recalls whose saves are not over: core, borrower, sequence number (21 R368) -/
  recalls : List (Nat × Nat × Nat) := []
  /-- VF Enable and NumVFs as the host set them; the device is ready (29 R473); it stays in recovery (29 R472) -/
  vfEnable : Bool := false
  numVFs : Nat := 0
  isReady : Bool := false
  recovery : Bool := false
  /-- flash: the minimum version, the configuration image's version and whether its signature holds, and the last
  finalised reports (29 R472, 22 R390) -/
  minVer : Nat := 0
  flashVer : Nat := 0
  flashOk : Bool := true
  flashMeters : Table (List Byte) := []
  -- power and ageing (29 Table 29-4)
  pwrlim : Nat := 3000
  pwrnow : Nat := 0
  /-- steps of 125 MHz by which power capping lowers the core clock of every region (29 R469) -/
  caps : Nat := 0
  /-- the highest core clock planned for a region, in MHz (29 R470; default 4000) -/
  plan : Table Nat := []
  /-- by how much the core clock of a region has fallen behind the reference clock, in 4000ths of a cycle (00 R5) -/
  lag : Table Nat := []
  agestat : Nat := 0
  agehrs : Nat := 0
  /-- the last ten samples of module power, newest first -/
  powerHist : List Nat := []
  /-- regions whose retirement waits for a migration (29 R471) -/
  retireWait : List Nat := []
  /-- the clock of the Keystone pair's last mismatch (22 R388) -/
  ksLast : Option Nat := none
  /-- migration control blocks and valid track windows (23); VDNs that have moved away and whose window has ended (25 R421) -/
  migs : Table Mig := []
  wins : List Win := []
  movedVdns : List Nat := []
  /-- requests forwarded to the destination of a migration and not answered yet (23 R405, 27 R458) -/
  fwd : List Packet := []
  /-- trust domains, and packets that wait for a rekey (27 R455) -/
  doms : Table Dom := []
  sealWait : List Packet := []
  /-- moves that wait until the host has given a line back (29 R466) -/
  afterBi : List Instr := []
  -- the model's own fields
  /-- the moves of agents that come next (log entry 1) -/
  agenda : List Instr := []
  cur : Option Cur := none
  /-- default moves made so far -/
  turn : Nat := 0
  nextTeam : Nat := 0
  nextGrid : Nat := 0
  nextTok : Nat := 1
  nextCard : Nat := 0
  nextBatch : Nat := 0
  /-- index of the next free value (log entry 10) -/
  freeCtr : Nat := 0
  deriving DecidableEq, Repr

/-- Why the machine stops. -/
inductive Fault where
  /-- a translation names a machine address that Table 13-4 backs with nothing, which the spec says stage 2 never yields;
  raised by every access through `Machine/Memory.lean`; safe -/
  | unbacked (ma : Nat)
  deriving DecidableEq, Repr

/-- Why an instruction has no meaning here. -/
inductive Refusal where
  /-- an arm of `exec` that is not written yet; safe -/
  | notModelled (mnemonic : String)
  deriving DecidableEq, Repr

/-- The module after power-on and before DEVICE_READY (22 R390, 29 R473). -/
def State.reset : State := {}

end Sys2Proof.Machine
end

