-- ==== Sys2Proof/Machine/Format.lean ====
section
/-!
DEFINITION. Format slots (04 R91 to R93), element formats, the value of an element and Expand (R85 to R88), conversion into
an element (R84, R90), packed bit strings, and the X format (R87).
-/
namespace Sys2Proof.Machine

/-- The element formats a slot names (Table 4-6). -/
inductive EFmt where
  | unbound
  | float (f : Fmt) (width : Nat)
  | int (k : Nat) (sg : Bool)
  deriving DecidableEq, Repr

def slotFmtCode (s : DWord) : Nat := bits s.toNat 7 0
def slotSck (s : DWord) : Nat := bits s.toNat 11 8
def slotBlk (s : DWord) : Nat := bits s.toNat 15 12
def slotRnd (s : DWord) : Nat := bits s.toNat 17 16
def slotSat (s : DWord) : Bool := bitOf s.toNat 18
def slotInf (s : DWord) : Bool := bitOf s.toNat 19
def slotUsgn (s : DWord) : Bool := bitOf s.toNat 20

/-- A code of the binaryKpP family: K and P (R92). -/
def familyOf (c : Nat) : Option (Nat × Nat) :=
  if bits c 7 6 = 1 ∧ bits c 5 4 ≠ 3 ∧ bits c 3 3 = 0 then
    let k := 4 + 2 * bits c 5 4
    let p := c % 8
    if 1 ≤ p ∧ p < k then some (k, p) else none
  else none

/-- The element format of a slot; `none` for a reserved code. -/
def slotFmt (s : DWord) : Option EFmt :=
  match slotFmtCode s with
  | 0x00 => some .unbound
  | 0x01 => some (.float fp32 32)
  | 0x02 => some (.float fp16 16)
  | 0x03 => some (.float bf16 16)
  | 0x08 => some (.int 8 true)
  | 0x09 => some (.int 8 false)
  | 0x0A => some (.int 4 true)
  | c => (familyOf c).map (fun (k, p) => .float (kpP k p (slotUsgn s) (slotInf s)) k)

/-- A slot is valid (R93). -/
def slotValid (s : DWord) : Bool :=
  let c := slotFmtCode s
  decide (bits s.toNat 63 21 = 0) && decide (slotRnd s ≠ 3) && decide (slotSck s ≤ 2) && decide (slotBlk s ≤ 3) &&
  (slotFmt s).isSome &&
  (decide (slotSck s = 0) || !([0x01, 0x08, 0x09, 0x0A].contains c)) &&
  (decide (slotBlk s = 0) || decide (slotSck s ≠ 0)) &&
  ((familyOf c).isSome || !(slotUsgn s || slotInf s)) &&
  (decide (c ≠ 0) || decide (s = 0))

/-- Block length of a slot's scales (Table 4-5). -/
def blockLen (s : DWord) : Nat := 16 * 2 ^ slotBlk s

/-- Bits of an element. -/
def EFmt.width : EFmt → Nat
  | .unbound => 0
  | .float _ w => w
  | .int k _ => k

/-- Whether the format is an integer one. -/
def EFmt.isInt : EFmt → Bool | .int .. => true | .unbound | .float .. => false

/-- The exact value of an element code. -/
def EFmt.value (e : EFmt) (c : Nat) : Xv :=
  match e with
  | .unbound => .nan
  | .float f _ => f.value c
  | .int k sg => let v : Int := if sg then sextN k c else c; .fin (decide (v < 0)) v.natAbs 1

/-- The scale that a raw scale value means (R86): none, an exponent byte, a BF16 value. -/
def scaleVal (sck raw : Nat) : Xv :=
  match sck with
  | 0 => .fin false 1 1
  | 1 => if raw % 256 = 255 then .nan else xDyadic false 1 ((raw % 256 : Nat) - 127)
  | _ => bf16.value (raw % 65536)

/-- Expand (R45, R88): the exact product of an element's value and its scale. -/
def expand (e : EFmt) (c : Nat) (scale : Xv) : Xv := (e.value c).mul scale

/-- Conversion of an exact value into an element (R84, R90). -/
def EFmt.put (e : EFmt) (sat : Bool) (mode : Mode) (x : Xv) : Nat :=
  match e with
  | .unbound => 0
  | .float f _ => roundTo f sat mode x
  | .int k sg => roundToInt k sg sat mode x

/-- The X format (R87) as a format of 34 bits. -/
def fmtX : Fmt := ⟨23, -510, 1022 * 2 ^ 23 + (2 ^ 23 - 1), some (1023 * 2 ^ 23), 0x1FFC00000, 2 ^ 33, true⟩

/-- The X code of an exact value, which expansion never rounds. -/
def toX (x : Xv) : Nat := roundTo fmtX false .rn x

/-- Element `i` of width `w` of a little-endian bit string (R85). -/
def element (v w i : Nat) : Nat := v / 2 ^ (w * i) % 2 ^ w

/-- The bit string of elements of width `w`. -/
def packBits (w : Nat) : List Nat → Nat
  | [] => 0
  | x :: r => x % 2 ^ w + 2 ^ w * packBits w r

def rmMode : Rm → Mode | .rn => .rn | .rz => .rz | .ru => .ru | .rd => .rd
def cvMode : Cv → Mode | .rn => .rn | .rz => .rz | .ro => .ro

/-- The conversion rounding of a slot. -/
def slotMode (s : DWord) : Mode := match slotRnd s with | 0 => .rn | 1 => .rz | _ => .ro

/-- The *cv* field whose value 3 selects the slot's own rounding (R114). -/
def cvdMode (c : CvD) (s : DWord) : Mode :=
  match c with | .rn => .rn | .rz => .rz | .ro => .ro | .slot => slotMode s

/-- Slot `n` of a launch record. -/
def Rec.slot (r : Rec) (n : Nat) : DWord := r.slots[n]?.getD 0

end Sys2Proof.Machine
end

