-- ==== Sys2Proof/Machine/Flags.lean ====
section
/-!
DEFINITION. Predicates and the computations that yield one: comparisons of integers (03 Table 3-3), carry out of a 32-bit
sum (03 R60). The Denberdo has no other flags (03 R53, 04 R80): P0 to P6 are written only by the instruction whose field
names them.
-/
namespace Sys2Proof.Machine

/-- The comparison of Table 3-3 on two words of `n` bits. -/
def cmpHolds {n : Nat} (m : Cmp) (a b : BitVec n) : Bool :=
  match m with
  | .ltS => a.slt b
  | .eq | .eqU => decide (a = b)
  | .leS => a.sle b
  | .gtS => b.slt a
  | .ne | .neU => decide (a ≠ b)
  | .geS => b.sle a
  | .ltU => a.ult b
  | .leU => a.ule b
  | .gtU => b.ult a
  | .geU => b.ule a

/-- The 33-bit sum of A, B or NOT B, and the carry in (R60): the result and the carry out. -/
def addCarry (sub : Bool) (a b : Word) (cin : Bool) : Word × Bool :=
  let bb := if sub then 2 ^ 32 - 1 - b.toNat else b.toNat
  let t := a.toNat + bb + cin.toNat
  (BitVec.ofNat 32 t, decide (2 ^ 32 ≤ t))

/-- The table of LOP3 and PLOP at one input combination (R65, R74). -/
def lutBit (lut : BitVec 8) (a b c : Bool) : Bool := lut.getLsbD (a.toNat + 2 * b.toNat + 4 * c.toNat)

end Sys2Proof.Machine
end

