-- ==== Sys2Proof/Config.lean ====
section
/-!
DEFINITION. What the spec leaves open. Every constant here is a free value: it has no body that a proof could use, so a
statement holds whatever it is (log entries 11 and 12).
-/
namespace Sys2Proof

/-- The place of lane `lane` in the order, which the spec does not state, of the accesses of the lanes of one cohort to
common bytes (06 R128, 15 R264, 18 R328): lanes take effect by rising key. `n` is the index of the free value. -/
opaque Config.laneKey : (n lane : Nat) → Nat

/-- The place of an element, where several elements of one card land on one byte (17 R293, 18 R320). -/
opaque Config.elemKey : (n elem : Nat) → Nat

/-- The word that a stream writes at a plane whose sparsity, class or kind is another than its own (10 R181, 11 R196; log entry 58): the
rules state no result there. `n` is the index of the free value, `i` the column. -/
opaque Config.freeWord : (n i : Nat) → BitVec 32

/-- Which value a byte of the scratchpad has where an access and an outstanding matrix instruction of one group meet on it, and which
bytes a drain writes first (11 R187): either value is allowed for each byte. `n` is the index of the free value. -/
opaque Config.mixByte : (n addr : Nat) → Bool

/-- The place of a granule of the chip scratchpad in the order that says which 32 of the 64 lie on die 0 and which 32 on die 1 (13 R210,
R219): the spec gives no mapping of granule numbers to dies (log entry 46). -/
opaque Config.granuleKey : (granule : Nat) → Nat

/-- Whether a line that L2 may hold dirty could not be written back when its die was reset (25 R415). `n` is the index of the free
value (log entry 14). -/
opaque Config.lineLost : (n line : Nat) → Bool

/-- The VDN that the fabric manager has given the switch, the SRC of what it seals for a domain (27 R450): it is set outside the device. -/
opaque Config.switchVdn : (dom : Nat) → BitVec 12

/-- The data address that a mark of a Q bank word names (01 R22, 10 R184): a bank word has no address. -/
opaque Config.bankAddr : (plane word : Nat) → BitVec 64

/-- The signature bits of a meter report (22 R387), whose algorithm the spec does not give. -/
opaque Config.meterSig : (report : List Byte) → List Byte

/-- The data address that the mark of a register names where no access gave one: after its image was restored (21 R371), which
keeps the mark bit alone, and where a soft error strikes the register itself (01 R23). -/
opaque Config.markAddr : (lane reg : Nat) → BitVec 64

/-- The part of a blackout that has passed when the manifest has come (23 R402), in nanoseconds: it lies between the clocks of two devices.
`n` is the index of the free value. -/
opaque Config.blackout : (n : Nat) → BitVec 64

/-- Where the dirty map of a track window lies (23 R393), in units of 16 bytes: the spec gives no place but that it is outside every
function's stage-2 map. `n` is the index of the free value. -/
opaque Config.mapAt : (n : Nat) → BitVec 48

/-- What memory reads that a migration had written, once the destination has discarded what it received (23 R406). `n` is the index of the
free value. -/
opaque Config.discarded : (n addr : Nat) → BitVec 8

/-- The highest clock in MHz that the Keystone pair plans for a region from its ring oscillators and path-delay replicas (29 R470).
`n` is the index of the free value. -/
opaque Config.plannedClock : (n region : Nat) → Nat

/-- The HBM4 that a function occupies over a millisecond, in units of 64 KiB (22 Table 22-4): what is counted as occupied is not stated. `n`
is the index of the free value. -/
opaque Config.hbmOccupancy : (n func : Nat) → BitVec 64

end Sys2Proof
end

