-- ==== Sys2Proof/Machine/Memory.lean ====
section
/-!
DEFINITION. Memory as the agents reach it: the two stages of translation with their caches (20), the homes (13 R221, 14
R238), the L1 and the write-through buffer (13 R223 to R229), signatures and rings (14 R247 to R250). Every byte order is
little-endian (00 R3).
-/
namespace Sys2Proof.Machine

/-! ### Clocks (00 R5, 29 R469, R470) -/

/-- The region of a core: a row of its die. -/
def regionOf (core : Nat) : Nat := 10 * (core / 160) + core % 160 / 16

/-- The core clock of a region in MHz: its planned clock, lowered by power capping to no less than 2.0 GHz. -/
def State.regionClock (s : State) (r : Nat) : Nat := max 2000 (tget 4000 s.plan r - 125 * s.caps)

/-- CLKNOW: the lowest core clock among the regions. -/
def State.clknow (s : State) : Nat := (List.range 22).foldl (fun m r => min m (s.regionClock r)) 4000

/-- Cycles of a core's own clock so far. -/
def State.cycle (s : State) (core : Nat) : Nat := s.clock - (tget 0 s.lag (regionOf core) + 3999) / 4000

/-- Cycles of the core that a group is on. -/
def State.cycleOf (s : State) (gk : Nat) : Nat := match tfind s.teams (gk / 32) with | some t => s.cycle t.core | none => s.clock

/-- A time bound given as cycles of the 4.0 GHz clock, while the lowest core clock is CLKNOW (R5). -/
def State.bound (s : State) (n : Nat) : Nat := (n * 4000 + s.clknow - 1) / s.clknow

/-- The regions' clocks over one cycle of the reference clock. -/
def State.slowClocks (s : State) : State :=
  if s.caps = 0 ∧ s.plan = [] then s else
  { s with lag := (List.range 20).foldl (fun t r => tput 0 t r (tget 0 t r + (4000 - s.regionClock r))) s.lag }

/-! ### Parts of the state by name -/

def State.core (s : State) (c : Nat) : Core := tget {} s.cores c
def State.setCore (s : State) (c : Nat) (x : Core) : State := { s with cores := tput {} s.cores c x }
def State.plane (s : State) (p : Nat) : Plane := tget {} s.planes p
def State.setPlane (s : State) (p : Nat) (x : Plane) : State := { s with planes := tput {} s.planes p x }
def State.die (s : State) (d : Nat) : Die := tget {} s.dies d
def State.setDie (s : State) (d : Nat) (x : Die) : State := { s with dies := tput {} s.dies d x }
def State.func (s : State) (f : Nat) : Func := tget {} s.funcs f
def State.setFunc (s : State) (f : Nat) (x : Func) : State := { s with funcs := tput {} s.funcs f x }
def State.group (s : State) (gk : Nat) : Group := tget {} s.groups gk
def State.setGroup (s : State) (gk : Nat) (x : Group) : State := { s with groups := tput {} s.groups gk x }
def State.team? (s : State) (t : Nat) : Option Team := tfind s.teams t
def State.setTeam (s : State) (t : Nat) (x : Team) : State := { s with teams := tset s.teams t x }
def State.grid? (s : State) (g : Nat) : Option Grid := tfind s.grids g
def State.setGrid (s : State) (g : Nat) (x : Grid) : State := { s with grids := tset s.grids g x }

/-- The groups of a team that exist, by key. -/
def State.groupsOf (s : State) (t : Nat) : List Nat := (s.groups.filter (fun e => e.1 / 32 = t)).map (·.1)

/-! ### Table entries (20 Tables 20-1 to 20-3) -/

/-- R, W and X accesses. -/
inductive Acc where | read | write | fetch
  deriving DecidableEq, Repr

/-- The next table of a valid pointer entry. -/
def ptrNext (e : Nat) : Option Nat :=
  if bitOf e 0 && decide (bits e 15 1 = 0) && decide (bits e 63 52 = 0) then some (bits e 51 16 * 65536) else none

/-- A stage-1 leaf that is valid (R355). -/
def leaf1Ok (e : Nat) : Bool :=
  bitOf e 0 && decide (bits e 7 6 ≠ 3) && decide (bits e 12 9 < 14) && decide (bits e 15 13 = 0) && decide (bits e 63 52 = 0)

/-- A stage-2 leaf that is valid (R355, Table 20-3). -/
def leaf2Ok (e : Nat) : Bool :=
  bitOf e 0 && decide (bits e 9 8 ≠ 3) && decide (bits e 13 10 < 14) && decide (bits e 15 14 = 0) &&
    (match bits e 6 5 with
     | 0 => decide (bits e 63 52 = 0)
     | 3 => decide (bits e 63 28 = 0)
     | _ => true)

/-- The coherence grain of a page in bytes (13 R225). -/
def leafGrain (e : Nat) : Nat := match bits e 7 6 with | 0 => 32 | 1 => 128 | _ => 512

/-- A leaf's permission for an access. -/
def leafPerm (e : Nat) : Acc → Bool
  | .read => bitOf e 1
  | .write => bitOf e 2
  | .fetch => bitOf e 3

/-- The machine addresses that Table 13-4 backs. -/
def maBacked (ma : Nat) : Bool :=
  decide (ma < 0xC000000000) || (decide (0x10000000000 ≤ ma) && decide (ma < 0x28000000000))

/-- What a translation names (20). `leaf` is the stage-1 leaf, `shared` the stage-2 attribute. -/
structure Tr where
  fpa : Nat
  tgt : Tgt
  leaf : Nat
  shared : Bool
  deriving DecidableEq, Repr

/-- STABLE of a page (13 R232). -/
def Tr.stable (t : Tr) : Bool := bitOf t.leaf 5 && !t.shared

/-- The line lies at a peer. -/
def Tgt.isFab : Tgt → Bool | .fab .. => true | .loc _ | .host _ | .notify .. => false

def Tgt.isLoc : Tgt → Bool | .loc _ => true | .host _ | .fab .. | .notify .. => false

/-- KIND of a line of this target (13 Table 13-5). -/
def Tgt.kind : Tgt → LineKind | .loc _ => .loc | .host _ => .host | .fab .. | .notify .. => .fab

/-- KIND is local. -/
def L1Line.loc (l : L1Line) : Bool := decide (l.kind = .loc)

/-- Whether L1 may hold the line for an access in this mode (13 R224). -/
def Tr.cached (t : Tr) (sup : Bool) : Bool :=
  !t.shared && !(sup && bitOf t.leaf 8) &&
    (match t.tgt with
     | .loc _ => true
     | .host _ | .fab .. => t.stable
     | .notify .. => false)

/-- The outcome of a translation. `miss`: the walk has not been made. -/
inductive XRes where
  | ok (t : Tr)
  | page1
  | access1
  | page2 (fpa : Nat)
  | access2
  | moving (fpa : Nat)
  | miss
  | unbacked (ma : Nat)
  deriving DecidableEq, Repr

/-- A walk's outcome: the leaf read, or why there is none. -/
inductive WRes where
  | leaf (e : Nat)
  | fail (f : WalkFail)
  | unbacked (ma : Nat)
  deriving DecidableEq, Repr

/-- Stage 2 (R357): three levels in local machine memory, indexed by FPA[51:42], [41:29] and [28:16]. A leaf whose MOVE is
1 or 2 does not translate (R361). -/
def walk2 (mem : Table Byte) (root fpa : Nat) : WRes :=
  if root = 0 then .fail (.page2 fpa) else
  let a2 := root / 65536 * 65536 + 8 * bits fpa 51 42
  if !maBacked a2 then .unbacked a2 else
  match ptrNext (readLE mem a2 8) with
  | none => .fail (.page2 fpa)
  | some t1 =>
    let a1 := t1 + 8 * bits fpa 41 29
    if !maBacked a1 then .unbacked a1 else
    match ptrNext (readLE mem a1 8) with
    | none => .fail (.page2 fpa)
    | some t0 =>
      let a0 := t0 + 8 * bits fpa 28 16
      if !maBacked a0 then .unbacked a0 else
      let e := readLE mem a0 8
      if bits e 9 8 = 1 ∨ bits e 9 8 = 2 then .fail (.moving fpa)
      else if leaf2Ok e then .leaf e else .fail (.page2 fpa)

/-- The cached leaf that covers a page of a function (R356, R359). -/
def tlbFind (l : List TlbE) (func page : Nat) : Option TlbE :=
  l.find? (fun e => decide (e.func = func) && decide (e.base ≤ page) && decide (page < e.base + e.len))

/-- The entry that a walked leaf of page `page` gives, for the whole group of its RUN (R356). -/
def tlbEntry (func page run : Nat) (leaf : Nat) : TlbE :=
  ⟨func, page / 2 ^ run * 2 ^ run, 2 ^ run, page, BitVec.ofNat 64 leaf⟩

/-- Where a stage-2 leaf at page `page`, walked at `wpage`, puts the byte `fpa`. The pages of a run of a notify leaf name the notify
pages from the leaf's own on (R356; log entry 49). -/
def leaf2Target (e wpage fpa : Nat) : Tgt :=
  let page := fpa / 65536
  let off := fpa % 65536
  match bits e 6 5 with
  | 0 => .loc (wrapN 36 (((bits e 51 16 + page : Nat) : Int) - wpage) * 65536 + off)
  | 1 => .host (wrapN 48 (((bits e 63 16 + page : Nat) : Int) - wpage) * 65536 + off)
  | 2 => .fab (bits e 27 16) (wrapN 36 (((bits e 63 28 + page : Nat) : Int) - wpage) * 65536 + off)
  | _ => .notify (bits e 22 16) (wrapN 5 (((bits e 27 23 + page : Nat) : Int) - wpage)) off

/-- A VA whose bits [63:55] equal bit 54 (R354). -/
def vaCanonical (va : Nat) : Bool := decide (bits va 63 54 = 0) || decide (bits va 63 54 = 2 ^ 10 - 1)

/-- S1ROOT with EN and no reserved bit (R354). -/
def s1On (root : Nat) : Bool := bitOf root 0 && decide (bits root 15 1 = 0) && decide (bits root 63 52 = 0)

/-- Stage 2 of `fpa` through a cache: the leaf with the page it was walked at. -/
def stage2 (tlb : Tlb) (mem : Table Byte) (f func fpa : Nat) : WRes × List TlbE :=
  match tlbFind tlb.s2 func (fpa / 65536) with
  | some e => (.leaf (e.leaf.toNat), [e])
  | none =>
    match walk2 mem f fpa with
    | .leaf e => (.leaf e, [tlbEntry func (fpa / 65536) (bits e 13 10) e])
    | r => (r, [])

/-- A stage-2 translation enters a cache. -/
def Tlb.with2 (t : Tlb) (e : TlbE) : Tlb := if t.s2.contains e then t else { t with s2 := e :: t.s2 }

/-- One table read of a stage-1 walk: the entry at `fpa`, which stage 2 must put in local memory with R (R354). The leaf of the table's page
stays in the walkers' cache, for the whole group of its RUN (R356). -/
def readEntry (tlb : Tlb) (mem : Table Byte) (f func fpa : Nat) : Except WRes Nat × Tlb :=
  match stage2 tlb mem f func fpa with
  | (.leaf e, [w]) =>
    (if !bitOf e 1 then .error (.fail .access2) else
     match leaf2Target e w.page fpa with
     | .loc ma => if maBacked ma then .ok (readLE mem ma 8) else .error (.unbacked ma)
     | .host _ | .fab .. | .notify .. => .error (.fail .access2), tlb.with2 w)
  | (r, _) => (.error r, tlb)

/-- Stage 1 (R354): three levels indexed by VA[54:42], [41:29] and [28:16]; with it the walkers' cache as the walk leaves it. -/
def walk1 (tlb : Tlb) (mem : Table Byte) (s2root func root va : Nat) : WRes × Tlb :=
  if !(vaCanonical va && s1On root) then (.fail .page1, tlb) else
  match readEntry tlb mem s2root func (bits root 51 16 * 65536 + 8 * bits va 54 42) with
  | (.error r, tlb) => (r, tlb)
  | (.ok e2, tlb) =>
    match ptrNext e2 with
    | none => (.fail .page1, tlb)
    | some t1 =>
      match readEntry tlb mem s2root func (t1 + 8 * bits va 41 29) with
      | (.error r, tlb) => (r, tlb)
      | (.ok e1, tlb) =>
        match ptrNext e1 with
        | none => (.fail .page1, tlb)
        | some t0 =>
          match readEntry tlb mem s2root func (t0 + 8 * bits va 28 16) with
          | (.error r, tlb) => (r, tlb)
          | (.ok e0, tlb) => (if leaf1Ok e0 then .leaf e0 else .fail .page1, tlb)

/-- The FPA of `va` under a stage-1 entry. -/
def leaf1Fpa (e : TlbE) (va : Nat) : Nat :=
  wrapN 36 (((bits e.leaf.toNat 51 16 + bits va 54 16 : Nat) : Int) - e.page) * 65536 + va % 65536

/-- Whether a stage-1 leaf refuses an access (R355, R232). -/
def leaf1Refuses (leaf : Nat) (sup : Bool) (acc : Acc) : Bool :=
  !leafPerm leaf acc || (!sup && !bitOf leaf 4) || (decide (acc = .write) && bitOf leaf 5)

/-- The second half of a translation: stage 2 of an FPA that stage 1 gave with `leaf`. -/
def translate2 (tlb : Tlb) (func : Nat) (acc : Acc) (fpa leaf : Nat) : XRes :=
  match tlbFind tlb.s2 func (fpa / 65536) with
  | none => .miss
  | some w =>
    let e := w.leaf.toNat
    if !leafPerm e acc then .access2 else
    let tgt := leaf2Target e w.page fpa
    match tgt with
    | .loc ma => if maBacked ma then .ok ⟨fpa, tgt, leaf, bitOf e 4⟩ else .unbacked ma
    | .host _ | .fab .. => .ok ⟨fpa, tgt, leaf, bitOf e 4⟩
    | .notify .. => if acc = .write then .ok ⟨fpa, tgt, leaf, bitOf e 4⟩ else .access2

/-- The outcome that a failed walk gives. -/
def WalkFail.res : WalkFail → XRes
  | .page1 => .page1
  | .page2 f => .page2 f
  | .access2 => .access2
  | .moving f => .moving f

/-- The translation of an access through an agent's cache: `wfail` holds the walks of that agent that found no leaf. A stage-1 leaf
that refuses the access does so before stage 2 is met (01 R24). -/
def translate (tlb : Tlb) (wfail : List NoLeaf) (func root : Nat) (sup : Bool) (acc : Acc) (va : Nat) : XRes :=
  if !(vaCanonical va && s1On root) then .page1 else
  let page := bits va 54 16
  let failed := (wfail.find? (fun e => decide (e.func = func) && decide (e.page = page))).map (fun e => e.why)
  if failed = some .page1 then .page1 else
  match tlbFind tlb.s1 func page with
  | some e =>
    if leaf1Refuses e.leaf.toNat sup acc then .access1
    else match failed with
      | some f => f.res
      | none => translate2 tlb func acc (leaf1Fpa e va) e.leaf.toNat
  | none => match failed with
    | some f => f.res
    | none => .miss

/-! ### Homes -/

/-- The bytes at the home of a local or host target; a fabric line has no byte here (13 R222). -/
def State.homeBytes (s : State) (t : Tgt) (n : Nat) : List Byte :=
  match t with
  | .loc ma => readBytes s.mem ma n
  | .host ha => readBytes s.hostMem ha n
  | .fab .. | .notify .. => List.replicate n 0

/-- The machine address `k` bytes further. -/
def Tgt.add (t : Tgt) (k : Nat) : Tgt :=
  match t with
  | .loc ma => .loc (ma + k)
  | .host ha => .host (ha + k)
  | .fab v ma => .fab v (ma + k)
  | .notify f p o => .notify f p (o + k)

/-- Insertion into an ascending list without repeats. -/
def insNat (x : Nat) : List Nat → List Nat
  | [] => [x]
  | y :: r => if x = y then y :: r else if x < y then x :: y :: r else y :: insNat x r

/-- A valid track window marks the blocks that a write touches (23 R394). -/
def Win.mark (w : Win) (ma n : Nat) : Win :=
  let blocks := (List.range ((ma + n - 1) / 512 - ma / 512 + 1)).map (· + ma / 512)
  { w with dirty := (blocks.filter (fun b => decide (w.base * 128 ≤ b) && decide (b < (w.base + w.len) * 128))).foldl (fun d b => insNat b d) w.dirty }

/-- A byte is written into the dirty map of a window. -/
def Win.putByte (w : Win) (ma : Nat) (b : Byte) : Win :=
  if ma < w.map ∨ w.map + 16 * w.len ≤ ma then w else
  let first := w.base * 128 + 8 * (ma - w.map)
  let set := ((List.range 8).filter (fun j => b.getLsbD j)).map (· + first)
  { w with dirty := set.foldl (fun d x => insNat x d) (w.dirty.filter (fun x => !(decide (first ≤ x) && decide (x < first + 8)))) }

/-- The marks that a write of `n` bytes leaves: those outside the whole 32-byte sectors that it covers (13 R231). -/
def keepMarks (a n : Nat) (m : List Nat) : List Nat :=
  m.filter (fun x => !(decide (a ≤ x / 32 * 32) && decide (x / 32 * 32 + 32 ≤ a + n)))

/-- Marks without repeats. -/
def addMarks (l : List Nat) (ws : List Nat) : List Nat := ws.foldl (fun l w => if l.contains w then l else l ++ [w]) l

def xorN (a b : Nat) : Nat := a ^^^ b

/-- The XOR fold of a line number: seven fields of six bits, and bit 42 (13 R222). -/
def sliceFold (ml : Nat) : Nat :=
  (List.range 7).foldl (fun x i => xorN x (bits ml (6 * i + 5) (6 * i))) (bits ml 42 42)

/-- The home die of a local machine address (Table 13-4). -/
def homeDie (ma : Nat) : Nat :=
  if ma < 0xC000000000 then ma / 4096 % 12 / 6 else ma / 512 % 2

/-- A number for the home slice of a line: 64 × die + slice; host lines home on die 0. -/
def homeSlice : Tgt → Nat
  | .loc ma => 64 * homeDie ma + sliceFold (ma / 512)
  | .host ha => sliceFold (ha / 512)
  | .fab .. | .notify .. => 128

/-- Whether a granule of the chip scratchpad lies on die 1: 32 of the 64 do (13 R210, R219), and which ones is a free value. -/
def granuleDie (g : Nat) : Bool :=
  let before (h : Nat) : Bool := decide (Config.granuleKey h < Config.granuleKey g) ||
    (decide (Config.granuleKey h = Config.granuleKey g) && decide (h < g))
  decide (32 ≤ ((List.range 64).filter before).length)

/-- Lines of a slice: 2 MiB of 512 bytes (13 R230). -/
def sliceLines : Nat := 4096

/-- A line that a write has made dirty in L2: it is the last written one; its slice writes back what it has no room for (13 R230, log entry
14). -/
def dirtyLine (l : List Nat) (x : Nat) : List Nat :=
  let l := l.filter (fun y => y ≠ x) ++ [x]
  let mine (y : Nat) : Bool := decide (homeSlice (.loc (y * 512)) = homeSlice (.loc (x * 512)))
  if (l.filter mine).length ≤ sliceLines then l else match l.find? mine with | some y => l.erase y | none => l

/-- Bytes written at a local or host home. A write of a whole 32-byte sector clears its marks (13 R231). -/
def State.homeWrite (s : State) (t : Tgt) (bs : List Byte) : State :=
  match t with
  | .loc ma =>
    { s with mem := writeBytes s.mem ma bs,
             memMarks := keepMarks ma bs.length s.memMarks,
             l2Dirty := (List.range ((ma + bs.length - 1) / 512 - ma / 512 + 1)).foldl (fun l i => dirtyLine l (ma / 512 + i)) s.l2Dirty,
             wins := s.wins.map (fun w => w.mark ma bs.length),
             biGo := s.biGo.filter (fun l => !(decide (ma / 512 ≤ l) && decide (l * 512 < ma + bs.length))) }
  | .host ha => { s with hostMem := writeBytes s.hostMem ha bs, hostMarks := keepMarks ha bs.length s.hostMarks }
  | .fab .. | .notify .. => s

/-- A byte among `n` at a home is marked by an uncorrectable error (13 R231). -/
def State.homeMarked (s : State) (t : Tgt) (n : Nat) : Bool :=
  match t with
  | .loc ma => (List.range n).any (fun i => s.memMarks.contains (ma + i))
  | .host ha => (List.range n).any (fun i => s.hostMarks.contains (ha + i))
  | .fab .. | .notify .. => false

/-! ### Signatures (14 R247 to R251) -/

/-- 43-bit rotate left. -/
def rotl43 (x n : Nat) : Nat := (x * 2 ^ n % 2 ^ 43 + x / 2 ^ (43 - n)) % 2 ^ 43

/-- h(j) of line number `l` (R248). -/
def sigHash (l j : Nat) : Nat :=
  let c := match j with | 0 => 0x2B71E5A9C3D | 1 => 0x5A5A5A5A5A5 | 2 => 0x36C36C36C36 | _ => 0x71C71C71C71
  let m := xorN (xorN l (rotl43 l ((11 * j + 5) % 43))) c
  xorN (xorN (xorN (xorN (bits m 9 0) (bits m 19 10)) (bits m 29 20)) (bits m 39 30)) (bits m 42 40)

/-- The four bits of a line. -/
def sigBits (l : Nat) : BitVec 1024 :=
  (1#1024 <<< sigHash l 0) ||| (1#1024 <<< sigHash l 1) ||| (1#1024 <<< sigHash l 2) ||| (1#1024 <<< sigHash l 3)

/-- A line is in a signature when its four bits are set. -/
def sigHas (x : BitVec 1024) (l : Nat) : Bool := decide (x &&& sigBits l = sigBits l)

def popAux : Nat → Nat → Nat
  | 0, _ => 0
  | n + 1, x => x % 2 + popAux n (x / 2)

/-- Number of set bits. -/
def popcount1024 (x : BitVec 1024) : Nat := popAux 1024 x.toNat

/-- A slot is saturated by its SAT bit or by more than 512 set bits (R250). -/
def RSlot.saturated (r : RSlot) : Bool := r.sat || decide (512 < popcount1024 r.bits)

/-- The slot of an epoch: %epoch mod 3, %epoch being 32 bits wide (R244, R247). -/
def slotOf (epoch : Nat) : Nat := epoch % 2 ^ 32 % 3

/-- The epoch of slot `k`: the latest one whose remainder by 3 is `k` (14 R247). -/
def windowEpoch (epoch k : Nat) : Nat :=
  (((List.range 4).map (fun d => (epoch % 2 ^ 32 + 2 ^ 32 - d) % 2 ^ 32)).find? (fun e => decide (e % 3 = k))).getD 0

/-- Insertion of a line into the slot of the current epoch (R249). -/
def ringInsert (ring : List RSlot) (epoch line : Nat) : List RSlot :=
  updAt (fun r => { r with bits := r.bits ||| sigBits line }) ring (slotOf epoch)

def ringSlot (ring : List RSlot) (k : Nat) : RSlot := ring[k]?.getD {}

/-- Difference of epochs modulo 2^32 (R244). -/
def epochDiff (a b : Nat) : Nat := (a + 2 ^ 32 - b % 2 ^ 32) % 2 ^ 32

/-! ### L1 and write-through buffer -/

/-- A line hits in L1 while it is unexpired (R223, R245). -/
def L1Line.live (l : L1Line) (epoch : Nat) : Bool := l.stable || decide (epochDiff epoch l.fepoch ≤ 2)

/-- The L1 line of a function that holds the sectors of `n` bytes at `fpa`. -/
def Core.l1Hit (c : Core) (func epoch fpa : Nat) : Option L1Line :=
  c.l1.find? (fun l => decide (l.func = func) && decide (l.line = fpa / 512) && l.live epoch &&
    l.valid.getLsbD (fpa % 512 / 32))

/-- The youngest buffered byte of a function at `fpa` (R229). -/
def Core.wtbByte (c : Core) (func fpa : Nat) : Option Byte :=
  c.wtb.foldl (fun acc e =>
    if decide (e.func = func) && decide (e.fpa = fpa / 32 * 32) && e.mask.getLsbD (fpa % 32)
    then some (tget 0 e.data (fpa % 32)) else acc) none

/-- One byte as a lane of the core loads it: buffer, then L1 when it may hold the line, then the home. -/
def State.loadByte (s : State) (core : Nat) (func : Nat) (t : Tr) (l1 : Bool) (i : Nat) : Byte :=
  let c := s.core core
  match c.wtbByte func (t.fpa + i) with
  | some b => b
  | none =>
    match (if l1 then c.l1Hit func s.epoch (t.fpa + i) else none) with
    | some l => tget 0 l.data ((t.fpa + i) % 512)
    | none => ((s.homeBytes (t.tgt.add i) 1)[0]?).getD 0

/-- Whether every byte of a load is in the buffer or in L1. -/
def State.loadHits (s : State) (core func : Nat) (t : Tr) (l1 : Bool) (n : Nat) : Bool :=
  (List.range n).all (fun i =>
    ((s.core core).wtbByte func (t.fpa + i)).isSome || (l1 && ((s.core core).l1Hit func s.epoch (t.fpa + i)).isSome))

/-- The line of a fill without its bytes, as an invalidation judges it. -/
def Fill.head (f : Fill) : L1Line :=
  { func := f.func, line := f.line, valid := 0, fepoch := f.fepoch, kind := f.tgt.kind, stable := f.stable, data := [] }

/-- A response to come installs no line that `p` selects. -/
def RWhat.noFill (p : Fill → Bool) (w : RWhat) : RWhat :=
  match w with
  | .load gk tok sz d ls va acq (some f) => if p f then .load gk tok sz d ls va acq none else w
  | .pref gk tok f => if p f then .pref gk tok { f with len := 0 } else w
  | .load _ _ _ _ _ _ _ none | .op .. | .watch .. | .fetch .. | .recd .. | .dev .. | .card .. | .cardCtr .. => w

/-- Blocks on their way to a core that `p` selects are not installed (14 R246). -/
def Core.dropFills (c : Core) (p : Fill → Bool) : Core :=
  { c with loads := c.loads.map (fun d => if d.fills.any p then { d with install := false } else d),
           peers := c.peers.map (fun (e : Nat × Peer) => (e.1, { e.2 with
             slots := e.2.slots.map (fun (q : Nat × RReq) => (q.1, { q.2 with what := q.2.what.noFill p })) })) }

/-- Invalidation of one sector of a function's lines (14 R259, 15 R272). -/
def Core.dropSector (c : Core) (func fpa : Nat) : Core :=
  let l1 := c.l1.map (fun l =>
    if l.func = func ∧ l.line = fpa / 512 then { l with valid := l.valid &&& ~~~(1#16 <<< (fpa % 512 / 32)) } else l)
  { c with l1 := l1.filter (fun l => decide (l.valid ≠ 0)) }.dropFills (fun f => decide (f.func = func) && decide (f.line = fpa / 512))

/-- Invalidation of every line that `p` selects; fills outstanding for such lines are not installed (14 R246). -/
def Core.dropLines (c : Core) (p : L1Line → Bool) : Core :=
  { c with l1 := c.l1.filter (fun l => !p l) }.dropFills (fun f => p f.head)

/-- A buffered store covers the whole sector at `fpa`. -/
def Core.coversSector (c : Core) (func fpa : Nat) : Bool :=
  c.wtb.any (fun e => decide (e.func = func) && decide (e.fpa = fpa / 32 * 32) && decide (e.mask = 0xFFFFFFFF))

/-- The lines with a new one: the set FPA[14:9] holds at most 12, and the oldest of them goes (R223; which one is the core's choice, log
entry 23). -/
def placeLine (ls : List L1Line) (x : L1Line) : List L1Line :=
  let inSet := ls.filter (fun l => decide (l.line % 64 = x.line % 64))
  match (if 12 ≤ inSet.length then inSet.head? else none) with
  | some v => ls.filter (fun l => decide (l ≠ v)) ++ [x]
  | none => ls ++ [x]

/-- A fill laid into L1: the sectors become valid with the buffered bytes over them, FEPOCH is the fill's when the line
had no valid sector (R225, R229). -/
def Core.fill (c : Core) (epoch : Nat) (f : L1Line) : Core :=
  let live := c.l1.filter (fun l => l.live epoch)
  let old := live.find? (fun l => decide (l.func = f.func) && decide (l.line = f.line))
  let rest := live.filter (fun l => !(decide (l.func = f.func) && decide (l.line = f.line)))
  let base : L1Line := match old with | some l => l | none => { f with valid := 0, data := [], marks := [] }
  let new := f.valid &&& ~~~base.valid
  let data := (List.range 512).foldl (fun d i =>
    if new.getLsbD (i / 32) then
      tput 0 d i (match c.wtbByte f.func (f.line * 512 + i) with | some b => b | none => tget 0 f.data i)
    else d) base.data
  let marks := f.marks.filter (fun i => new.getLsbD (i / 32) && !c.coversSector f.func (f.line * 512 + i))
  { c with l1 := placeLine rest { base with valid := base.valid ||| new, data := data, marks := base.marks ++ marks } }

/-- The same target `k` bytes lower. -/
def Tgt.sub (t : Tgt) (k : Nat) : Tgt :=
  match t with
  | .loc ma => .loc (ma - k)
  | .host ha => .host (ha - k)
  | .fab v ma => .fab v (ma - k)
  | .notify f p o => .notify f p (o - k)

/-- The grain-aligned block that a load miss asks for (R225). -/
def State.fillOf (s : State) (func : Nat) (t : Tr) : Fill :=
  let g := leafGrain t.leaf
  { func := func, line := t.fpa / 512, off := t.fpa % 512 / g * g, len := g, tgt := t.tgt.sub (t.fpa % g), stable := t.stable,
    fepoch := s.epoch }

/-- The L1 line that a block makes, with its bytes. -/
def Fill.lineOf (f : Fill) (bs : List Byte) (marks : List Nat) : L1Line :=
  { f.head with valid := BitVec.ofNat 16 ((2 ^ (f.len / 32) - 1) * 2 ^ (f.off / 32)) &&& f.keep, data := writeBytes [] f.off bs,
                marks := marks }

/-- The bytes of a block at its home now, marked ones by their offset in the line. -/
def State.fillLine (s : State) (f : Fill) : L1Line :=
  let own (a : Nat) (l : List Nat) : List Nat := (l.filter (fun x => decide (a ≤ x) && decide (x < a + f.len))).map (fun x => x - a + f.off)
  f.lineOf (s.homeBytes f.tgt f.len) (match f.tgt with
    | .loc ma => own ma s.memMarks
    | .host ha => own ha s.hostMarks
    | .fab .. | .notify .. => [])

/-- Stores of one lane into the buffer (R228): they merge into the youngest entry when it is still buffered and holds the
sector; otherwise a new entry is taken. `none` when the buffer is full. -/
def Core.bufStore (c : Core) (e : WtbE) : Option Core :=
  match c.wtb.getLast? with
  | some y =>
    if y.func = e.func ∧ y.fpa = e.fpa ∧ y.tgt = e.tgt ∧ y.st = .buffered then
      some { c with wtb := c.wtb.dropLast ++ [{ y with
        mask := y.mask ||| e.mask,
        rings := y.rings ++ e.rings.filter (fun p => !y.rings.contains p),
        data := (List.range 32).foldl (fun d i => if e.mask.getLsbD i then tput 0 d i (tget 0 e.data i) else d) y.data,
        toks := y.toks ++ e.toks }] }
    else if c.wtb.length < 64 then some { c with wtb := c.wtb ++ [e] } else none
  | none => some { c with wtb := [e] }

/-- A store that finds its sector valid in L1 updates the bytes there (R226); where the buffer then covers the whole sector, its marks go
(R231). -/
def Core.l1Store (c : Core) (func epoch fpa : Nat) (bs : List Byte) : Core :=
  { c with l1 := c.l1.map (fun l =>
      if decide (l.func = func) && decide (l.line = fpa / 512) && l.live epoch && l.valid.getLsbD (fpa % 512 / 32)
      then { l with data := writeBytes l.data (fpa % 512) bs,
                    marks := if c.coversSector func fpa then l.marks.filter (fun i => decide (i / 32 ≠ fpa % 512 / 32)) else l.marks }
      else l) }

end Sys2Proof.Machine
end

