-- ==== Sys2Proof/WellFormed.lean ====
section
/-!
DEFINITION. What an instruction word names: its issue fields, its pipe class (02 Table 2-7), its fixed latency, the
register and predicate operands it reads and writes (01 R9 to R12, 06 R125), and the encoding checks of R28, R37, R41,
R113, R125, R155, R164, R188, R235, R266, R269 and R313 that do not depend on the launch record or on a register's value.
-/
namespace Sys2Proof

/-- Pipe classes of Table 2-7. -/
inductive Cls where | int | fp | ctl | mem | grp | mat | eng | sys | net
  deriving DecidableEq, Repr

/-- The kinds of register field: one register (R9), a pair (R11), a quad (R125), a predicate (R12). -/
inductive OpKind where | reg | pair | quad | pred
  deriving DecidableEq, Repr

/-- One register or predicate operand of an instruction. -/
structure Opnd where
  write : Bool
  kind : OpKind
  code : RegCode
  deriving DecidableEq, Repr

/-- Why a word whose fields can be read is still no instruction; `Instr.wfErr` names the check. -/
inductive WfErr where
  /-- WSB = 7 (R37) -/ | wsb
  /-- a bad pair, quad or predicate code (R11, R12, R125) -/ | operand
  /-- a run field that names a code of 224 or above (R113, R192) -/ | run
  /-- a branch slot of 5 to 7 (R41) -/ | slot
  /-- a K index of 12 to 15 (R155) -/ | kIndex
  /-- a SHFL width of 6 or 7 (R164) -/ | laneWidth
  /-- q0 + n above 256, or n above the instruction's limit (R188, Table 11-1) -/ | rows
  /-- a pair of operation and SIZE outside Table 15-4 (R269) -/ | opSize
  /-- FENCE with ORD 0 (Table 15-3) -/ | ord
  /-- SIGRD.word of slot 3 (R281) -/ | sigSlot
  /-- a command SCOPE below 2 (R313) -/ | cmdScope
  /-- BAR = 1 with D = ZERO (R313) -/ | barZero
  deriving DecidableEq, Repr

/-- What one word says of itself, whatever the state. `lat` is the latency L of the fixed-latency instructions, and 0 for
the others. Runs whose length depends on a format slot, a plane or a record are not in `opnds`. -/
structure Info where
  h : Hdr
  cls : Cls
  lat : Nat
  opnds : List Opnd
  err : Option WfErr
  deriving DecidableEq, Repr

def rd (c : RegCode) : Opnd := ⟨false, .reg, c⟩
def rd2 (c : RegCode) : Opnd := ⟨false, .pair, c⟩
def rd4 (c : RegCode) : Opnd := ⟨false, .quad, c⟩
def rp (c : RegCode) : Opnd := ⟨false, .pred, c⟩
def wr (c : RegCode) : Opnd := ⟨true, .reg, c⟩
def wr2 (c : RegCode) : Opnd := ⟨true, .pair, c⟩
def wr4 (c : RegCode) : Opnd := ⟨true, .quad, c⟩
def wp (c : RegCode) : Opnd := ⟨true, .pred, c⟩

def Src.rd : Src → List Opnd
  | .reg c => [Sys2Proof.rd c]
  | .imm _ => []

def Src.rd2 : Src → List Opnd
  | .reg c => [Sys2Proof.rd2 c]
  | .imm _ => []

def Sel.rd {n : Nat} : Sel n → List Opnd
  | .reg c => [Sys2Proof.rd c]
  | .imm _ => []

def ShflB.rd : ShflB → List Opnd
  | .reg c => [Sys2Proof.rd c]
  | .imm _ _ => []

/-- A SHFL segment width is 2^lw with lw of 0 to 5 (R164). -/
def ShflB.ok : ShflB → Bool
  | .reg _ => true
  | .imm _ lw => decide (lw.toNat < 6)

def CarryMode.rdP : CarryMode → List Opnd
  | .addc c | .subc c => [rp c]
  | .add | .sub => []

def MatchMode.wrP : MatchMode → List Opnd
  | .all c => [wp c]
  | .any => []

def IKind.wide : IKind → Bool
  | .s64 | .u64 => true
  | .s32 | .u32 => false

def ReduxOp.isFloat : ReduxOp → Bool
  | .fadd | .fmin | .fmax => true
  | .add | .minS | .maxS | .minU | .maxU | .and | .or | .xor => false

/-- The register operand of a load (Table 6-2). -/
def LdSize.wr (d : RegCode) : LdSize → Opnd
  | .u8 | .s8 | .u16 | .s16 | .w32 => Sys2Proof.wr d
  | .d64 | .u32d | .s32d => wr2 d
  | .q128 => wr4 d

/-- The register operand of a store (Table 6-2). -/
def StSize.rd (b : RegCode) : StSize → Opnd
  | .b8 | .b16 | .b32 => Sys2Proof.rd b
  | .b64 => rd2 b
  | .b128 => rd4 b

def AtSize.wr (d : RegCode) : AtSize → Opnd
  | .w32 => Sys2Proof.wr d
  | .d64 => wr2 d
  | .q128 => wr4 d

def AtSize.rd (b : RegCode) : AtSize → Opnd
  | .w32 => Sys2Proof.rd b
  | .d64 => rd2 b
  | .q128 => rd4 b

def WSize.wr (d : RegCode) : WSize → Opnd
  | .w32 => Sys2Proof.wr d
  | .d64 => wr2 d

def WSize.rd (b : RegCode) : WSize → Opnd
  | .w32 => Sys2Proof.rd b
  | .d64 => rd2 b

/-- Only .cas reads its C field (R269). -/
def AtomOp.rdC (sz : AtSize) : AtomOp → List Opnd
  | .cas c => [sz.rd c]
  | .add | .minS | .maxS | .minU | .maxU | .and | .or | .xor | .exch | .inc | .dec | .fadd | .fmin | .fmax => []

/-- The sizes of Table 15-4. -/
def AtomOp.sizeOk (sz : AtSize) : AtomOp → Bool
  | .exch | .cas _ => true
  | .fadd | .fmin | .fmax => decide (sz = .w32)
  | .add | .minS | .maxS | .minU | .maxU | .and | .or | .xor | .inc | .dec => decide (sz ≠ .q128)

/-- RED takes every operation but .exch and .cas (Table 15-4). -/
def AtomOp.redOk : AtomOp → Bool
  | .exch | .cas _ => false
  | .add | .minS | .maxS | .minU | .maxU | .and | .or | .xor | .inc | .dec | .fadd | .fmin | .fmax => true

/-- The codes of Table 14-1. -/
def Scope.code : Scope → BitVec 4
  | .lane => 0 | .group => 1 | .team => 2 | .cluster => 3 | .die => 4 | .part => 5 | .device => 6 | .system => 7
  | .peer => 8 | .mesh => 9 | .domain => 10 | .fabric => 11

def chk (b : Bool) (e : WfErr) : Option WfErr := if b then none else some e

/-- q0 + n ≤ 256 (R188) and n at most `lim` (Table 11-1, Table 11-2). -/
def rowsChk (r : Rows) (lim : Nat) : Option WfErr :=
  chk (decide (r.q0.toNat + r.cnt.toNat + 1 ≤ 256) && decide (r.cnt.toNat < lim)) .rows

/-- What each instruction word says of itself; a step of another agent has no word. -/
def Instr.info : Instr → Option Info
  | .mov h wide d a => some ⟨h, .int, if wide then 3 else 2, if wide then wr2 d :: a.rd2 else wr d :: a.rd, none⟩
  | .movs h d _ => some ⟨h, .int, 4, [wr d], none⟩
  | .movsw h d _ => some ⟨h, .int, 4, [wr2 d], none⟩
  | .iadd h _ d a b => some ⟨h, .int, 2, wr d :: rd a :: b.rd, none⟩
  | .isub h _ d a b => some ⟨h, .int, 2, wr d :: rd a :: b.rd, none⟩
  | .iaddx h m d a b pout => some ⟨h, .int, 2, wr d :: rd a :: rd b :: wp (pout.setWidth 8) :: m.rdP, none⟩
  | .imul h d a b => some ⟨h, .int, 4, wr d :: rd a :: b.rd, none⟩
  | .imulh h _ d a b => some ⟨h, .int, 4, wr d :: rd a :: b.rd, none⟩
  | .imad h d a b c => some ⟨h, .int, 4, wr d :: rd a :: rd c :: b.rd, none⟩
  | .imadw h _ d a b c => some ⟨h, .int, 4, wr2 d :: rd a :: rd2 c :: b.rd, none⟩
  | .idiv h _ d a b => some ⟨h, .int, 0, wr d :: rd a :: b.rd, none⟩
  | .irem h _ d a b => some ⟨h, .int, 0, wr d :: rd a :: b.rd, none⟩
  | .imin h _ d a b => some ⟨h, .int, 2, wr d :: rd a :: b.rd, none⟩
  | .imax h _ d a b => some ⟨h, .int, 2, wr d :: rd a :: b.rd, none⟩
  | .iabs h _ d a => some ⟨h, .int, 2, [wr d, rd a], none⟩
  | .and h d a b => some ⟨h, .int, 2, wr d :: rd a :: b.rd, none⟩
  | .or h d a b => some ⟨h, .int, 2, wr d :: rd a :: b.rd, none⟩
  | .xor h d a b => some ⟨h, .int, 2, wr d :: rd a :: b.rd, none⟩
  | .andn h d a b => some ⟨h, .int, 2, wr d :: rd a :: b.rd, none⟩
  | .lop3 h d a b c _ => some ⟨h, .int, 2, [wr d, rd a, rd b, rd c], none⟩
  | .shl h d a b => some ⟨h, .int, 2, wr d :: rd a :: b.rd, none⟩
  | .shr h d a b => some ⟨h, .int, 2, wr d :: rd a :: b.rd, none⟩
  | .sar h d a b => some ⟨h, .int, 2, wr d :: rd a :: b.rd, none⟩
  | .rol h d a b => some ⟨h, .int, 2, wr d :: rd a :: b.rd, none⟩
  | .fshf h _ d a b n => some ⟨h, .int, 2, wr d :: rd a :: rd b :: n.rd, none⟩
  | .popc h d a => some ⟨h, .int, 2, [wr d, rd a], none⟩
  | .clz h d a => some ⟨h, .int, 2, [wr d, rd a], none⟩
  | .brev h d a => some ⟨h, .int, 2, [wr d, rd a], none⟩
  | .bfx h _ d a f => some ⟨h, .int, 2, wr d :: rd a :: f.rd, none⟩
  | .bfi h d a b f => some ⟨h, .int, 2, wr d :: rd a :: rd b :: f.rd, none⟩
  | .prmt h d a b f => some ⟨h, .int, 2, wr d :: rd a :: rd b :: f.rd, none⟩
  | .sel h wide d a b c => some ⟨h, .int, if wide then 3 else 2, rp c :: if wide then wr2 d :: rd2 a :: b.rd2 else wr d :: rd a :: b.rd, none⟩
  | .isetp h _ d a b => some ⟨h, .int, 2, wp d :: rd a :: b.rd, none⟩
  | .icmps h _ d a b => some ⟨h, .int, 2, wr d :: rd a :: b.rd, none⟩
  | .plop h d a b c _ => some ⟨h, .int, 2, [wp d, rp a, rp b, rp c], none⟩
  | .p2g h d => some ⟨h, .int, 2, [wr d, rp 0, rp 1, rp 2, rp 3, rp 4, rp 5, rp 6], none⟩
  | .g2p h a mask => some ⟨h, .int, 2, rd a :: (([0, 1, 2, 3, 4, 5, 6] : List Nat).filter (mask.getLsbD ·)).map (fun k => wp (BitVec.ofNat 8 k)), none⟩
  | .iadd64 h d a b => some ⟨h, .int, 3, wr2 d :: rd2 a :: b.rd2, none⟩
  | .isub64 h d a b => some ⟨h, .int, 3, wr2 d :: rd2 a :: b.rd2, none⟩
  | .lea h _ d a b _ => some ⟨h, .int, 3, [wr2 d, rd2 a, rd b], none⟩
  | .isetp64 h _ d a b => some ⟨h, .int, 3, wp d :: rd2 a :: b.rd2, none⟩
  | .shl64 h d a b => some ⟨h, .int, 3, wr2 d :: rd2 a :: b.rd, none⟩
  | .shr64 h _ d a b => some ⟨h, .int, 3, wr2 d :: rd2 a :: b.rd, none⟩
  | .idp4 h _ _ _ d a b c => some ⟨h, .int, 4, wr d :: rd a :: rd c :: b.rd, none⟩
  | .idp2 h _ _ _ d a b c => some ⟨h, .int, 4, wr d :: rd a :: rd c :: b.rd, none⟩
  | .fadd h _ _ d a b => some ⟨h, .fp, 4, wr d :: rd a :: b.rd, none⟩
  | .fmul h _ d a b => some ⟨h, .fp, 4, wr d :: rd a :: b.rd, none⟩
  | .ffma h _ _ _ d a b c => some ⟨h, .fp, 4, wr d :: rd a :: rd c :: b.rd, none⟩
  | .fmin h d a b => some ⟨h, .fp, 2, wr d :: rd a :: b.rd, none⟩
  | .fmax h d a b => some ⟨h, .fp, 2, wr d :: rd a :: b.rd, none⟩
  | .fsetp h _ d a b => some ⟨h, .fp, 2, wp d :: rd a :: b.rd, none⟩
  | .fclass h _ d a => some ⟨h, .fp, 2, [wr d, rd a], none⟩
  | .fdiv h d a b => some ⟨h, .fp, 12, wr d :: rd a :: b.rd, none⟩
  | .fsqrt h d a => some ⟨h, .fp, 10, [wr d, rd a], none⟩
  | .frcp h d a => some ⟨h, .fp, 8, [wr d, rd a], none⟩
  | .frsq h d a => some ⟨h, .fp, 8, [wr d, rd a], none⟩
  | .fex2 h d a => some ⟨h, .fp, 10, [wr d, rd a], none⟩
  | .flg2 h d a => some ⟨h, .fp, 10, [wr d, rd a], none⟩
  | .fsinpi h d a => some ⟨h, .fp, 12, [wr d, rd a], none⟩
  | .fcospi h d a => some ⟨h, .fp, 12, [wr d, rd a], none⟩
  | .ftanh h d a => some ⟨h, .fp, 12, [wr d, rd a], none⟩
  | .hadd2 h _ _ _ d a b => some ⟨h, .fp, 4, wr d :: rd a :: b.rd, none⟩
  | .hmul2 h _ _ d a b => some ⟨h, .fp, 4, wr d :: rd a :: b.rd, none⟩
  | .hfma2 h _ _ d a b c => some ⟨h, .fp, 4, wr d :: rd a :: rd c :: b.rd, none⟩
  | .hmnmx2 h _ _ d a b => some ⟨h, .fp, 2, wr d :: rd a :: b.rd, none⟩
  | .cvtff h _ _ _ _ d a => some ⟨h, .fp, 4, [wr d, rd a], none⟩
  | .cvtfi h _ k _ d a => some ⟨h, .fp, 4, [if k.wide then wr2 d else wr d, rd a], none⟩
  | .cvtif h _ k d a => some ⟨h, .fp, 4, [wr d, if k.wide then rd2 a else rd a], none⟩
  | .cvtpk h _ _ d a _ _ => some ⟨h, .fp, 6, [], (chk (decide (d.toNat < 224)) .run).or (chk (decide (a.toNat < 224)) .run)⟩
  | .cvtunpk h _ _ d a _ _ => some ⟨h, .fp, 6, [], (chk (decide (d.toNat < 224)) .run).or (chk (decide (a.toNat < 224)) .run)⟩
  | .frnd h _ d a => some ⟨h, .fp, 4, [wr d, rd a], none⟩
  | .fscale h _ d a b => some ⟨h, .fp, 4, wr d :: rd a :: b.rd, none⟩
  | .fgetexp h d a => some ⟨h, .fp, 2, [wr d, rd a], none⟩
  | .bra h _ slot => some ⟨h, .ctl, 0, [], chk (decide (slot.toNat < 5)) .slot⟩
  | .brx h a => some ⟨h, .ctl, 0, [rd2 a], none⟩
  | .call h d _ slot => some ⟨h, .ctl, 2, [wr2 d], chk (decide (slot.toNat < 5)) .slot⟩
  | .callx h d a => some ⟨h, .ctl, 2, [wr2 d, rd2 a], none⟩
  | .ret h a => some ⟨h, .ctl, 0, [rd2 a], none⟩
  | .exit h => some ⟨h, .ctl, 0, [], none⟩
  | .trap h _ => some ⟨h, .ctl, 0, [], none⟩
  | .nop h => some ⟨h, .ctl, 0, [], none⟩
  | .yield h => some ⟨h, .ctl, 0, [], none⟩
  | .bpt h _ => some ⟨h, .ctl, 0, [], none⟩
  | .sleep h b => some ⟨h, .ctl, 0, b.rd, none⟩
  | .ld h sz d a _ => some ⟨h, .mem, 0, [sz.wr d, rd2 a], none⟩
  | .st h sz a _ b => some ⟨h, .mem, 0, [rd2 a, sz.rd b], none⟩
  | .ldl h sz d a _ => some ⟨h, .mem, 0, [sz.wr d, rd2 a], none⟩
  | .stl h sz a _ b => some ⟨h, .mem, 0, [rd2 a, sz.rd b], none⟩
  | .pref h _ a _ => some ⟨h, .mem, 0, [rd2 a], none⟩
  | .ldc h sz d a _ => some ⟨h, .mem, 0, [sz.wr d, rd2 a], none⟩
  | .kjoin h k => some ⟨h, .grp, 0, [], chk (decide (k.toNat < 12)) .kIndex⟩
  | .kleave h k => some ⟨h, .grp, 0, [], chk (decide (k.toNat < 12)) .kIndex⟩
  | .kwait h k => some ⟨h, .grp, 0, [], chk (decide (k.toNat < 12)) .kIndex⟩
  | .ksetG h k a => some ⟨h, .grp, 0, [rd a], chk (decide (k.toNat < 12)) .kIndex⟩
  | .ksetCohort h k => some ⟨h, .grp, 0, [], chk (decide (k.toNat < 12)) .kIndex⟩
  | .ksetClr h k => some ⟨h, .grp, 0, [], chk (decide (k.toNat < 12)) .kIndex⟩
  | .ksetLive h k => some ⟨h, .grp, 0, [], chk (decide (k.toNat < 12)) .kIndex⟩
  | .kmov h d k => some ⟨h, .grp, 2, [wr d], chk (decide (k.toNat < 12)) .kIndex⟩
  | .kmovK h k j => some ⟨h, .grp, 0, [], (chk (decide (k.toNat < 12)) .kIndex).or (chk (decide (j.toNat < 12)) .kIndex)⟩
  | .elect h d => some ⟨h, .grp, 2, [wp d], none⟩
  | .vote h m _ d a => some ⟨h, .grp, 2, [if m = .ballot then wr d else wp d, rp a], none⟩
  | .shfl h _ d a b c => some ⟨h, .grp, 4, wr d :: rd a :: wp c :: b.rd, chk b.ok .laneWidth⟩
  | .redux h op d a => some ⟨h, .grp, if op.isFloat then 8 else 6, [wr d, rd a], none⟩
  | .matchLanes h wide m d a => some ⟨h, .grp, 6, wr d :: (if wide then rd2 a else rd a) :: m.wrP, none⟩
  | .rdlane h wide d a b => some ⟨h, .grp, 4, if wide then wr2 d :: rd2 a :: b.rd else wr d :: rd a :: b.rd, none⟩
  | .mlds h sp a _ c _ => some ⟨h, .mat, 0, if sp then [rd a, rd c] else [rd a], none⟩
  | .mswap h => some ⟨h, .mat, 0, [], none⟩
  | .mstr h _ _ a b _ _ _ _ => some ⟨h, .mat, 0, [rd a, rd b], none⟩
  | .mstrr h _ _ a _ _ rows => some ⟨h, .mat, 0, [], (rowsChk rows 32).or (chk (decide (a.toNat < 224)) .run)⟩
  | .mzero h rows => some ⟨h, .mat, 0, [], rowsChk rows 256⟩
  | .mbias h _ a rows => some ⟨h, .mat, 0, [rd a], rowsChk rows 256⟩
  | .mdrn h _ _ a _ rows => some ⟨h, .mat, 0, [rd a], rowsChk rows 256⟩
  | .mdrnr h _ _ d _ rows => some ⟨h, .mat, 0, [], (rowsChk rows 16).or (chk (decide (d.toNat < 224)) .run)⟩
  | .mgangLead h a => some ⟨h, .mat, 0, [rd a], none⟩
  | .mgangJoin h a _ => some ⟨h, .mat, 0, [rd a], none⟩
  | .mgangLeave h => some ⟨h, .mat, 0, [], none⟩
  | .lds h sz d a _ => some ⟨h, .mem, 0, [sz.wr d, rd a], none⟩
  | .sts h sz a _ b => some ⟨h, .mem, 0, [rd a, sz.rd b], none⟩
  | .ldcl h sz d a _ => some ⟨h, .mem, 0, [sz.wr d, rd a], none⟩
  | .stcl h sz a _ b => some ⟨h, .mem, 0, [rd a, sz.rd b], none⟩
  | .ldx h sz d a _ => some ⟨h, .mem, 0, [sz.wr d, rd2 a], none⟩
  | .stx h sz a _ b => some ⟨h, .mem, 0, [rd2 a, sz.rd b], none⟩
  | .atom h op sz _ _ d a b => some ⟨h, .mem, 0, sz.wr d :: rd2 a :: sz.rd b :: op.rdC sz, chk (op.sizeOk sz) .opSize⟩
  | .atoms h op sz _ d a b => some ⟨h, .mem, 0, sz.wr d :: rd a :: sz.rd b :: op.rdC sz, chk (op.sizeOk sz) .opSize⟩
  | .red h op sz _ _ a b => some ⟨h, .mem, 0, [rd2 a, sz.rd b], chk (op.sizeOk sz && op.redOk) .opSize⟩
  | .fence h ord _ => some ⟨h, .mem, 0, [], chk (decide (ord ≠ .relaxed)) .ord⟩
  | .relst h sz _ a b => some ⟨h, .mem, 0, [rd2 a, sz.rd b], none⟩
  | .relop h op sz _ d a b => some ⟨h, .mem, 0, sz.wr d :: rd2 a :: sz.rd b :: op.rdC sz, chk (op.sizeOk sz) .opSize⟩
  | .acqld h sz _ d a => some ⟨h, .mem, 0, [sz.wr d, rd2 a], none⟩
  | .acqwt h _ sz _ d a b c => some ⟨h, .mem, 0, [wr d, rd2 a, sz.rd b, wp c], none⟩
  | .remacq h a => some ⟨h, .mem, 0, [rd a], none⟩
  | .barinit h a b => some ⟨h, .mem, 0, [rd2 a, rd b], none⟩
  | .bararv h _ _ d c a => some ⟨h, .mem, 0, [wr d, wp c, rd2 a], none⟩
  | .barwt h _ d c a b => some ⟨h, .mem, 0, [wr d, wp c, rd2 a, rd b], none⟩
  | .bartst h _ d c a b => some ⟨h, .mem, 0, [wr d, wp c, rd2 a, rd b], none⟩
  | .barexp h a b => some ⟨h, .mem, 0, [rd2 a, rd b], none⟩
  | .bardrop h _ a => some ⟨h, .mem, 0, [rd2 a], none⟩
  | .ldnc h sz d a _ => some ⟨h, .mem, 0, [sz.wr d, rd2 a], none⟩
  | .cctlIvl h a _ => some ⟨h, .mem, 0, [rd2 a], none⟩
  | .cctlIvall h => some ⟨h, .mem, 0, [], none⟩
  | .cctlIvi h a _ => some ⟨h, .mem, 0, [rd2 a], none⟩
  | .cctlIviall h => some ⟨h, .mem, 0, [], none⟩
  | .cctlDrain h => some ⟨h, .mem, 0, [], none⟩
  | .sigrdTest h d a => some ⟨h, .mem, 0, [wr d, rd2 a], none⟩
  | .sigrdHash h d a => some ⟨h, .mem, 0, [wr2 d, rd2 a], none⟩
  | .sigrdWord h d slot _ => some ⟨h, .mem, 0, [wr d], chk (decide (slot.toNat < 3)) .sigSlot⟩
  | .xcopy h cmd d a b _ => some ⟨h, .eng, 0, [rd2 d, rd2 a, rd2 b], (chk (decide (2 ≤ cmd.scope.code.toNat)) .cmdScope).or (chk (!(cmd.bar && decide (d = 255))) .barZero)⟩
  | .xgath h cmd d a b _ => some ⟨h, .eng, 0, [rd2 d, rd2 a, rd2 b], (chk (decide (2 ≤ cmd.scope.code.toNat)) .cmdScope).or (chk (!(cmd.bar && decide (d = 255))) .barZero)⟩
  | .xscat h cmd d a b _ => some ⟨h, .eng, 0, [rd2 d, rd2 a, rd2 b], (chk (decide (2 ≤ cmd.scope.code.toNat)) .cmdScope).or (chk (!(cmd.bar && decide (d = 255))) .barZero)⟩
  | .xpack h _ _ _ cmd _ d a b _ => some ⟨h, .eng, 0, [rd2 d, rd2 a, rd2 b], (chk (decide (2 ≤ cmd.scope.code.toNat)) .cmdScope).or (chk (!(cmd.bar && decide (d = 255))) .barZero)⟩
  | .xunpk h _ _ cmd _ d a b _ => some ⟨h, .eng, 0, [rd2 d, rd2 a, rd2 b], (chk (decide (2 ≤ cmd.scope.code.toNat)) .cmdScope).or (chk (!(cmd.bar && decide (d = 255))) .barZero)⟩
  | .xfill h cmd d a b _ => some ⟨h, .eng, 0, [rd2 d, rd2 a, rd2 b], (chk (decide (2 ≤ cmd.scope.code.toNat)) .cmdScope).or (chk (!(cmd.bar && decide (d = 255))) .barZero)⟩
  | .wtany h d a => some ⟨h, .eng, 0, [wr d, rd2 a], none⟩
  | .wtall h d a => some ⟨h, .eng, 0, [wr d, rd2 a], none⟩
  | .ffrdy h d a => some ⟨h, .eng, 0, [wr d, rd2 a], none⟩
  | .tagclr h a => some ⟨h, .eng, 0, [rd2 a], none⟩
  | .cntwt h _ d c a b => some ⟨h, .eng, 0, [wr d, wp c, rd2 a, rd2 b], none⟩
  | .rnginit h d a b c => some ⟨h, .eng, 0, [rd2 a, rd2 b, rd2 c, rd2 d], none⟩
  | .rngnxt h d a => some ⟨h, .eng, 0, [wr4 d, rd2 a], none⟩
  | .launch h _ d a => some ⟨h, .eng, 0, [wr d, rd2 a], none⟩
  | .cjoin h => some ⟨h, .eng, 0, [], none⟩
  | .rte h => some ⟨h, .sys, 0, [], none⟩
  | .movx h d _ => some ⟨h, .sys, 4, [wr d], none⟩
  | .movxW h a _ => some ⟨h, .sys, 4, [rd a], none⟩
  | .movxw h d _ => some ⟨h, .sys, 4, [wr2 d], none⟩
  | .movxwW h a _ => some ⟨h, .sys, 4, [rd2 a], none⟩
  | .tlbiv h a _ => some ⟨h, .sys, 0, [rd2 a], none⟩
  | .tlbia h => some ⟨h, .sys, 0, [], none⟩
  | .halttOthers h => some ⟨h, .sys, 0, [], none⟩
  | .halttRelease h => some ⟨h, .sys, 0, [], none⟩
  | .xdrainWait h => some ⟨h, .sys, 0, [], none⟩
  | .xdrainCancel h => some ⟨h, .sys, 0, [], none⟩
  | .fltqAck h a => some ⟨h, .sys, 0, [rd a], none⟩
  | .fltqResume h => some ⟨h, .sys, 0, [], none⟩
  | .fltqFail h => some ⟨h, .sys, 0, [], none⟩
  | .dumpr h d a => some ⟨h, .sys, 4, [wr d, rd a], none⟩
  | .xresh h cmd d a b => some ⟨h, .net, 0, [rd2 d, rd2 a, rd2 b], chk (decide (2 ≤ cmd.scope.code.toNat)) .cmdScope⟩
  | .xredPush h scope _ a b c => some ⟨h, .net, 0, [rd2 a, rd b, rd c], chk (decide (2 ≤ scope.code.toNat)) .cmdScope⟩
  | .xredCancel h a => some ⟨h, .net, 0, [rd2 a], none⟩
  | .xmcast h scope _ a b c => some ⟨h, .net, 0, [rd2 a, rd b, rd c], chk (decide (2 ≤ scope.code.toNat)) .cmdScope⟩
  | .cwait h _ d c a b => some ⟨h, .net, 0, [wr d, wp c, rd2 a, rd b], none⟩
  | .pfence h vdn => some ⟨h, .net, 0, match vdn with | some a => [rd a] | none => [], none⟩
  | .fetchLineArrival .. | .pipeGroupChoice .. | .kdeadDetect .. | .sleepExpiry .. | .epochAdvance |
  .l1LineExpiry .. | .wtbDrain .. | .homeAccess .. | .storeAck .. | .loadFill .. | .pageWalk .. |
  .runAheadStop .. | .priResponse .. | .cardAccept .. | .cardStart .. | .cardSegmentDone .. | .cardComplete .. |
  .mldsComplete .. | .mswapWavefront .. | .mstrRowWrite .. | .dispatchDecision .. | .headUnitHold .. |
  .planeSwitch .. | .launchAccept .. | .teamEnd .. | .gridComplete .. | .spillReturn .. | .blockedUnitSwap .. |
  .timeSliceEnd .. | .contextSave .. | .contextDump .. | .contextResume .. | .queueSubmit .. | .notifyEnqueue ..
  | .notify | .s2inv .. | .resetQueue .. | .resetEngine .. | .resetPartition .. | .resetDie .. | .resetFlr .. |
  .resetDevice | .moduleResetPin | .part .. | .lend .. | .recallCore .. | .gang .. | .gangAttempt | .qthaw .. |
  .ringset .. | .metrd .. | .s2set .. | .vfFlr .. | .vfEnableClear | .metreqWrite .. | .meterReport .. |
  .fqSetupWrite .. | .lpSaveRegWrite .. | .errWordClear .. | .ringheadWrite .. | .overflowClear |
  .domfailClear .. | .pwrlimWrite .. | .registerWrite .. | .keystoneRestart .. | .powerSample .. |
  .ageingReplan .. | .powerOn | .migStart .. | .migAccept .. | .migAbort .. | .migForce .. | .migClear .. |
  .trowelRound .. | .migCopyReceive .. | .migResume .. | .forwardingEnd .. | .remoteRequestReceive .. |
  .remoteResponseReceive .. | .movedTimeout .. | .responseSlotTimeout .. | .fmVdnBind .. | .fmVdnTableWrite .. |
  .fmRedirectWrite .. | .fmMeshSet .. | .slotreq .. | .slotgrant .. | .push .. | .result .. | .mcast .. |
  .a2a .. | .cancel .. | .ack .. | .earlyRetry | .collectiveGroupBroken .. | .domainJoin .. | .rekeyStart .. |
  .keyInstall .. | .rekeyBarrierArrival .. | .rekeyDone .. | .seqExhausted .. | .hostMemAccess .. | .birsp .. |
  .hostSnoop .. | .atsInvalidation .. | .divisionComplete .. | .drainComplete .. | .softError .. |
  .vfEnableSet .. | .deviceReady | .planeCleared .. | .bindRecordWrite .. | .chipScratchpadGrant .. |
  .domainLeave .. | .airanPortChange .. | .configImageWrite .. => none

/-- The codes R11, R12 and R125 allow. A code's being below the register count (R10) depends on the launch. -/
def Opnd.ok (o : Opnd) : Bool :=
  let c := o.code.toNat
  match o.kind with
  | .reg => true
  | .pair => decide (c = 255) || (decide (c % 2 = 0) && decide (c ≠ 254))
  | .quad => decide (c = 255) || (decide (c % 4 = 0) && decide (c ≤ 248))
  | .pred => decide (c < 8)

/-- The encoding checks on an instruction, by name; `none` when it passes all of them. -/
def Instr.wfErr (i : Instr) : Option WfErr :=
  match i.info with
  | none => none
  | some f => ((chk (decide (f.h.wsb ≠ 7)) .wsb).or (chk (f.opnds.all Opnd.ok) .operand)).or f.err

/-- A well-formed instruction: every encoding check of R42 that its fields decide is passed. -/
def Instr.wf (i : Instr) : Bool := i.wfErr.isNone

end Sys2Proof
end

