-- ==== Sys2Proof/Machine/Operands.lean ====
section
/-!
DEFINITION. Reading and writing registers and predicates: the operand codes of 01 R9 to R12 and 06 R125, the visibility of
a write by declared distance (02 R36, R38), S registers shared by the group (08 R145), soft-error marks (01 R23), and the
landing of writes.
-/
namespace Sys2Proof.Machine

/-- A write is visible at declared time `dt` (R36). -/
def Flight.vis (f : Flight) (dt : Nat) : Bool := match f.due with | some d => decide (d ≤ dt) | none => false

/-- An S write is visible to lane `lid` (R145): by its declared time in a writing lane, by the clock in the others. -/
def SFlight.vis (f : SFlight) (clock lid dt : Nat) : Bool :=
  match f.clk with
  | none => false
  | some c => match tfind f.dues lid with | some d => decide (d ≤ dt) | none => decide (c ≤ clock)

/-- The value of the last visible write, or the landed value. -/
def flightVal (fs : List Flight) (dest dt : Nat) (base : Word) : Word :=
  fs.foldl (fun acc f => if decide (f.dest = dest) && f.vis dt then f.val else acc) base

/-- The value of the last write in program order, visible or not. -/
def flightLast (fs : List Flight) (dest : Nat) (base : Word) : Word :=
  fs.foldl (fun acc f => if f.dest = dest then f.val else acc) base

/-- The group's lane of a number. -/
def Group.lane (g : Group) (l : Nat) : Lane := (g.lanes[l]?).getD {}

def Group.setLane (g : Group) (l : Nat) (x : Lane) : Group := { g with lanes := updAt (fun _ => x) g.lanes l }

def Group.modLane (g : Group) (l : Nat) (f : Lane → Lane) : Group := { g with lanes := updAt f g.lanes l }

/-- `f` on every lane of a mask. -/
def Group.modLanes (g : Group) (m : BitVec 32) (f : Nat → Lane → Lane) : Group :=
  { g with lanes := g.lanes.mapIdx (fun l x => if m.getLsbD l then f l x else x) }

/-- The 32-bit register of a code as lane `l` reads it (R9). -/
def Group.rd (g : Group) (clock l : Nat) (c : RegCode) : Word :=
  let x := g.lane l
  let n := c.toNat
  if n = 255 then 0
  else if 224 ≤ n then
    g.sflights.foldl (fun acc f => if decide (f.reg = n - 224) && f.vis clock l x.dt then f.val else acc) (tget 0 g.s (n - 224))
  else flightVal x.flights n x.dt (tget 0 x.g n)

/-- The register `k` codes further; ZERO stays ZERO. -/
def codeAdd (c : RegCode) (k : Nat) : RegCode := if c = 255 then 255 else c + BitVec.ofNat 8 k

/-- A 64-bit operand (R11): the low word in register n, the high word in n + 1. -/
def Group.rd2 (g : Group) (clock l : Nat) (c : RegCode) : DWord := g.rd clock l (codeAdd c 1) ++ g.rd clock l c

/-- A quad (06 R125): register n holds bits [31:0]. -/
def Group.rd4 (g : Group) (clock l : Nat) (c : RegCode) : BitVec 128 :=
  g.rd clock l (codeAdd c 3) ++ g.rd clock l (codeAdd c 2) ++ g.rd clock l (codeAdd c 1) ++ g.rd clock l c

/-- A predicate (R12); P7 reads 1. -/
def Group.rdP (g : Group) (l : Nat) (c : RegCode) : Bool :=
  let x := g.lane l
  let n := c.toNat % 8
  if n = 7 then true
  else decide (flightVal x.flights (256 + n) x.dt (if x.p.getLsbD n then 1 else 0) = 1)

/-- An S write that lane `l` has made, or that it sees (R145). -/
def SFlight.forLane (f : SFlight) (clock l dt : Nat) : Bool := (tfind f.dues l).isSome || f.vis clock l dt

/-- The last value in program order of a register of lane `l` (09 R154): of an S register, of the lane's own writes and of those of
others that it sees. -/
def Group.rdLast (g : Group) (clock l : Nat) (c : RegCode) : Word :=
  let x := g.lane l
  let n := c.toNat
  if n = 255 then 0
  else if 224 ≤ n then
    g.sflights.foldl (fun acc f => if decide (f.reg = n - 224) && f.forLane clock l x.dt then f.val else acc) (tget 0 g.s (n - 224))
  else flightLast x.flights n (tget 0 x.g n)

/-- One register or predicate write of an instruction: `dest` is a G code, an S code, or 256 + n for Pn. -/
structure Wr where
  lane : Nat
  dest : Nat
  val : Word
  mark : Option DWord := none
  /-- the value is not known yet, within an outstanding instruction whose other values are -/
  unk : Bool := false
  deriving DecidableEq, Repr

/-- A 32-bit result; ZERO discards it (R9). -/
def wr1 (l : Nat) (c : RegCode) (v : Word) (m : Option DWord := none) : List Wr :=
  if c = 255 then [] else [⟨l, c.toNat, v, m, false⟩]

/-- A 64-bit result (R11). -/
def wr64 (l : Nat) (c : RegCode) (v : DWord) (m : Option DWord := none) : List Wr :=
  wr1 l c (v.extractLsb' 0 32) m ++ wr1 l (codeAdd c 1) (v.extractLsb' 32 32) m

/-- A 128-bit result (06 R125). -/
def wr128 (l : Nat) (c : RegCode) (v : BitVec 128) (m : Option DWord := none) : List Wr :=
  wr64 l c (v.extractLsb' 0 64) m ++ wr64 l (codeAdd c 2) (v.extractLsb' 64 64) m

/-- A predicate result; P7 discards it (R12). -/
def wrP (l : Nat) (c : RegCode) (b : Bool) : List Wr :=
  if c.toNat % 8 = 7 then [] else [⟨l, 256 + c.toNat % 8, if b then 1 else 0, none, false⟩]

/-- How the writes of one instruction become visible: at declared distance L (R36), at once, or when the outstanding
instruction of a token lands (R38), its value being captured already or not. -/
inductive WMode where
  | fixed (L : Nat)
  | now
  | pend (tok : Nat) (known : Bool)
  deriving DecidableEq, Repr

/-- A G or predicate write enters the lane's list in program order. -/
def Lane.push (x : Lane) (m : WMode) (w : Wr) : Lane :=
  { x with flights := x.flights ++ [match m with
    | .fixed L => ⟨w.dest, w.val, some (x.dt + L), true, 0, w.mark⟩
    | .now => ⟨w.dest, w.val, some 0, true, 0, w.mark⟩
    | .pend t k => ⟨w.dest, w.val, none, k && !w.unk, t, w.mark⟩] }

/-- An S write of several lanes: the highest-numbered lane's value stands (R145). While it is outstanding every lane's value is
kept, for a lane that leaves gives up its own (06 R120). -/
def sWrite (g : Group) (clock : Nat) (m : WMode) (ws : List Wr) (r : Nat) : List SFlight :=
  let ws := ws.filter (fun w => w.dest = 224 + r)
  match argMax (fun (w : Wr) => (w.lane : Int)) ws with
  | none => []
  | some w =>
    match m with
    | .fixed L => [{ reg := r, val := w.val, dues := ws.map (fun w => (w.lane, (g.lane w.lane).dt + L)), clk := some (clock + L),
                     known := true, tok := 0, mark := w.mark }]
    | .now => [{ reg := r, val := w.val, dues := [], clk := some 0, known := true, tok := 0, mark := w.mark }]
    | .pend t k => (sortBy (fun (w : Wr) => w.lane) ws).map (fun w =>
        { reg := r, val := w.val, dues := [(w.lane, 0)], clk := none, known := k && !w.unk, tok := t, mark := w.mark })

/-- All writes of one instruction, lanes in rising order. -/
def Group.push (g : Group) (clock : Nat) (m : WMode) (ws : List Wr) : Group :=
  let sfl := if ws.any (fun w => decide (224 ≤ w.dest) && decide (w.dest < 256))
    then (List.range 31).flatMap (fun r => sWrite g clock m ws r) else []
  { g with
    lanes := g.lanes.mapIdx (fun l x =>
      (ws.filter (fun w => decide (w.lane = l) && (decide (w.dest < 224) || decide (256 ≤ w.dest)))).foldl (fun x w => x.push m w) x),
    sflights := g.sflights ++ sfl }

/-- A write of a lane becomes its landed value. -/
def Lane.base (x : Lane) (f : Flight) : Lane :=
  if 256 ≤ f.dest then
    let b := 1#7 <<< (f.dest - 256)
    { x with p := if f.val = 1 then x.p ||| b else x.p &&& ~~~b }
  else
    { x with g := tput 0 x.g f.dest f.val,
             marks := match f.mark with | some a => tset x.marks f.dest a | none => tdel x.marks f.dest }

/-- Writes that are visible land: the landed value is that of the last visible one, and earlier writes of the same register
never prevail again (R36). -/
def Lane.landAux (dt : Nat) : Lane → List Flight → List Flight → Lane
  | x, kept, [] => { x with flights := kept }
  | x, kept, f :: r =>
    if f.vis dt then Lane.landAux dt (x.base f) (kept.filter (fun k => k.dest ≠ f.dest)) r
    else Lane.landAux dt x (kept ++ [f]) r

def Lane.land (x : Lane) : Lane := Lane.landAux x.dt x [] x.flights

/-- Every write lands in program order (R39); outstanding ones land with the value they captured. -/
def Lane.landAll (x : Lane) : Lane :=
  { x.flights.foldl Lane.base x with flights := [], unw := [] }

/-- An S write becomes the landed value. -/
def Group.sBase (g : Group) (f : SFlight) : Group :=
  { g with s := tput 0 g.s f.reg f.val,
           smarks := match f.mark with | some a => tset g.smarks f.reg a | none => tdel g.smarks f.reg }

def Group.sLandAux (done : SFlight → Bool) : Group → List SFlight → List SFlight → Group
  | g, kept, [] => { g with sflights := kept }
  | g, kept, f :: r =>
    if done f then Group.sLandAux done (g.sBase f) (kept.filter (fun k => k.reg ≠ f.reg)) r
    else Group.sLandAux done g (kept ++ [f]) r

/-- S writes that every live lane sees land. -/
def Group.sLand (g : Group) (clock : Nat) : Group :=
  g.sLandAux (fun f => (List.range 32).all (fun l => !g.live.getLsbD l || f.vis clock l (g.lane l).dt)) [] g.sflights

/-- An outstanding S write is one of lane `l`. -/
def SFlight.ofLane (f : SFlight) (l : Nat) : Bool := f.clk.isNone && (tfind f.dues l).isSome

/-- Outstanding S writes land once the result of the highest lane of theirs that has not left has come (R145): the list in order, `f`
being the last outstanding one of its instruction and register when no later one is. -/
def sSettle : List SFlight → List SFlight
  | [] => []
  | f :: r =>
    let r := sSettle r
    let peer (x : SFlight) : Bool := decide (x.tok = f.tok) && decide (x.reg = f.reg)
    if f.clk.isSome || r.any (fun x => x.clk.isNone && peer x) then f :: r
    else if f.came || r.any (fun x => decide (x.tok ≠ 0) && peer x) then { f with clk := some 0, dues := [] } :: r
    else f :: r

/-- The results of a token land in the lanes of `m` (R37, R38): its writes become visible to every later issue point, the
registers of one instruction together (log entry 43). -/
def Group.landTok (g : Group) (tok : Nat) (m : BitVec 32) : Group :=
  { g with
    lanes := g.lanes.mapIdx (fun l x =>
      if m.getLsbD l && x.flights.any (fun f => decide (f.tok = tok) && f.due.isNone)
      then Lane.land { x with flights := x.flights.map (fun f => if f.tok = tok ∧ f.due.isNone then { f with due := some 0 } else f) }
      else x),
    sflights := sSettle (g.sflights.map (fun f =>
      if decide (f.tok = tok) && (lanesOf m).any f.ofLane then { f with came := true } else f)) }

/-- The value of an outstanding result is supplied (a drain, a fabric load). -/
def Group.supply (g : Group) (tok lane dest : Nat) (v : Word) (mark : Option DWord) : Group :=
  if 224 ≤ dest ∧ dest < 256 then
    { g with sflights := g.sflights.map (fun f =>
        if decide (f.tok = tok) && decide (f.reg = dest - 224) && f.ofLane lane then { f with val := v, known := true, mark := mark } else f) }
  else
    g.modLane lane (fun x => { x with flights := x.flights.map (fun f =>
      if f.tok = tok ∧ f.dest = dest then { f with val := v, known := true, mark := mark } else f) })

/-- The group as its checkpoint holds it. -/
def Group.atCkpt (g : Group) (c : Ckpt) : Group :=
  { g with lanes := c.lanes, s := c.s, sflights := c.sflights, smarks := c.smarks, k := c.k, sb := c.sb, outs := c.outs,
           divs := c.divs, sdone := c.sdone, upper := c.upper, ra := none }

/-- What a checkpoint keeps of a group (19 R339). -/
def Group.ckpt (g : Group) : Ckpt := ⟨g.lanes, g.s, g.sflights, g.smarks, g.k, g.sb, g.outs, g.divs, g.sdone, g.upper⟩

/-- A change that an agent makes to a group's registers, scoreboards and waits, made to the running group and to its checkpoint:
what was outstanding when run-ahead began completes in both. -/
def Group.withCkpt (f : Group → Group) (g : Group) : Group :=
  match g.ra with
  | none => f g
  | some r => { f g with ra := some { r with ckpt := (f (g.atCkpt r.ckpt)).ckpt } }

/-- Scoreboard `wsb − 1` one lower (R37). -/
def Group.sbDec (g : Group) (wsb : Nat) : Group :=
  if wsb = 0 then g else { g with sb := tput 0 g.sb (wsb - 1) (tget 0 g.sb (wsb - 1) - 1) }

def Group.sbInc (g : Group) (wsb : Nat) : Group :=
  if wsb = 0 then g else { g with sb := tput 0 g.sb (wsb - 1) (tget 0 g.sb (wsb - 1) + 1) }

/-- An outstanding instruction is complete in the lanes of `m`; in its last lane its scoreboard falls (R37). -/
def Group.finish (g : Group) (tok : Nat) (m : BitVec 32) : Group :=
  match g.outs.find? (fun o => o.tok = tok) with
  | none => g
  | some o =>
    if o.lanes &&& ~~~m = 0 then { g with outs := g.outs.filter (fun o => o.tok ≠ tok) }.sbDec o.wsb
    else { g with outs := g.outs.map (fun o => if o.tok = tok then { o with lanes := o.lanes &&& ~~~m } else o) }

/-- The lanes of an outstanding instruction are parked in it: the wait itself is what is outstanding. -/
def Group.waitsOn (g : Group) (o : Out) : Bool :=
  (lanesOf o.lanes).all (fun l => decide ((g.lane l).wtok = o.tok) && decide ((g.lane l).wait ≠ .none))

/-- The codes a register operand covers. -/
def opCodes (o : Opnd) : List Nat :=
  let c := o.code.toNat
  match o.kind with
  | .pred => if c = 7 then [] else [256 + c]
  | .reg => if c = 255 then [] else [c]
  | .pair => if c = 255 then [] else [c, c + 1]
  | .quad => if c = 255 then [] else [c, c + 1, c + 2, c + 3]

/-- Every G register of an operand lies below the register count (R10). -/
def opInCount (n : Nat) (o : Opnd) : Bool := (opCodes o).all (fun c => decide (224 ≤ c) || decide (c < n))

/-- The soft-error mark of a register as lane `l` reads it (R23). -/
def Group.markOf (g : Group) (clock l c : Nat) : Option DWord :=
  let x := g.lane l
  if 256 ≤ c then none
  else if 224 ≤ c then
    g.sflights.foldl (fun acc f => if decide (f.reg = c - 224) && f.vis clock l x.dt then f.mark else acc) (tfind g.smarks (c - 224))
  else x.flights.foldl (fun acc f => if decide (f.dest = c) && f.vis x.dt then f.mark else acc) (tfind x.marks c)

/-- The soft-error mark that the last write of a register in program order carries (09 R154). -/
def Group.markLast (g : Group) (clock l c : Nat) : Option DWord :=
  let x := g.lane l
  if 256 ≤ c then none
  else if 224 ≤ c then
    g.sflights.foldl (fun acc f => if decide (f.reg = c - 224) && f.forLane clock l x.dt then f.mark else acc) (tfind g.smarks (c - 224))
  else x.flights.foldl (fun acc f => if f.dest = c then f.mark else acc) (tfind x.marks c)

/-- The lanes of `m` have waited for the scoreboards of a mask: what those count is no longer unwaited for (R38). -/
def Group.waited (g : Group) (m : BitVec 32) (rsbm : BitVec 6) : Group :=
  g.modLanes m (fun _ x => { x with unw := x.unw.filter (fun u => !(decide (u.2 ≠ 0) && rsbm.getLsbD (u.2 - 1))) })

/-- The last write of a register in program order is not visible to lane `l`, or its scoreboard has not been waited for, by an
earlier instruction or by the RSBM of this one (R36, R38): a read under CHK = 1 raises STALL. -/
def Group.stale (g : Group) (h : Hdr) (l c : Nat) : Bool :=
  let x := g.lane l
  x.unw.any (fun e => decide (e.1 = c) && !(decide (e.2 ≠ 0) && h.rsbm.getLsbD (e.2 - 1))) ||
  (if 224 ≤ c ∧ c < 256 then
    match (g.sflights.filterMap (fun f => if f.reg = c - 224 then tfind f.dues l else none)).getLast? with
    | some d => decide (x.dt < d)
    | none => false
   else match (x.flights.filter (fun f => f.dest = c)).getLast? with | some f => !f.vis x.dt | none => false)

end Sys2Proof.Machine
end

