-- ==== Sys2Proof/Machine/Wire.lean ====
section
/-!
DEFINITION. The fabric as a device sends and receives it: routes, packets, seals and replay (25 R416 to R424, 27 R452 to R457), the
response slots of a core, and the operations that a packet carries to a home (log entry 20).
-/
namespace Sys2Proof.Machine

/-! ### The fabric as a requester (25 R420 to R424) -/

/-- The entry of a VDN routes (R420). -/
def State.routes (s : State) (v : Nat) : Bool :=
  let e := tget {} s.vdnTable v
  e.valid && decide (e.ports &&& s.ports ≠ 0)

/-- The function that a VDN names here. -/
def State.funcOfVdn (s : State) (v : Nat) : Option Nat :=
  (s.funcs.find? (fun (e : Nat × Func) => decide (e.2.vdn = some v) && e.2.exist)).map (fun (e : Nat × Func) => e.1)

/-- The trust domain of a member function (27 R450). -/
def State.domOf (s : State) (func : Nat) : Option Dom :=
  let f := s.func func
  if f.domState = 2 then some (tget {} s.doms f.dom) else none

/-- The epoch under which this device seals. -/
def Dom.sendEpoch (d : Dom) : Nat := if d.switched then d.epoch + 1 else d.epoch

/-- The epochs that this device accepts (R457). -/
def Dom.held (d : Dom) : List Nat := if d.switched then [d.epoch, d.epoch + 1] else [d.epoch]

/-- RID of Table 25-2. -/
def mkRid (core peer slot : Nat) : Nat := core / 160 * 32768 + core % 160 * 128 + peer * 8 + slot

/-- The port on which a packet to a VDN leaves, by the line of its address (R420): the (L mod p)-th working port of its entry, from bit
64. The spec gives the rule for requests; the model's other packets follow it too (DESIGN CHOICE, log entry 20). -/
def State.portOf (s : State) (vdn addr : Nat) : Option Nat :=
  let e := tget {} s.vdnTable vdn
  let ps := (List.range 64).filter (fun i => (e.ports &&& s.ports).getLsbD i)
  if !e.valid || decide (ps = []) then none else ps[addr / 512 % ps.length]?

/-- LEN of a packet (Table 25-2), in units of 16 bytes; a seal takes two more (27 R454). -/
def pktLen (p : Packet) : Nat := (p.payload.length + 15) / 16 + (if p.sealed.isSome then 2 else 0)

/-- The channel of Table 25-1 that the TYPE of a packet names. What is forwarded travels on VC 3 (23 R405) and is what its TYPE says. -/
def pktChan (p : Packet) : Nat := if p.type < 16 then 0 else if p.type < 32 then 1 else if p.type < 48 then 2 else 3

/-- The header is one that a device takes (R418): no reserved field, VC that of the TYPE or, forwarded, of the management channel, a payload
that a flit carries (R416). -/
def pktSound (p : Packet) : Bool :=
  !p.broken && (decide (p.vc = pktChan p) || (decide (p.vc = 3) && decide (pktChan p ≤ 2))) && decide (pktLen p ≤ 14)

/-- A packet dropped under R418 counts at its port. -/
def State.countErr (s : State) (p : Packet) : State := { s with portErr := tput 0 s.portErr p.port (tget 0 s.portErr p.port + 1) }

/-- A request of a function (Table 25-2). -/
def State.mkRequest (s : State) (func vdn type rid addr : Nat) (payload : List Byte) : Packet :=
  { dst := vdn, src := ((s.func func).vdn).getD 0, type := type, vc := 0, stat := 0, rid := rid, addr := addr,
    broken := false, sealed := none, genuine := true, payload := payload }

/-- The peer entry of a VDN: the one bound to it, or the lowest free one (R423). -/
def Core.peerFor (k : Core) (vdn : Nat) : Option (Nat × Peer) :=
  match k.peers.find? (fun (e : Nat × Peer) => decide (e.2.vdn = vdn)) with
  | some e => some e
  | none => ((List.range 16).find? (fun i => (tfind k.peers i).isNone)).map (fun i => (i, { vdn := vdn }))

/-- The seal of a domain packet, under the sender's epoch or that of the packet it answers (27 R452 to R455); `none` where
the sender's counter is exhausted, or its first key has not come (R459). -/
def State.seal (s : State) (p : Packet) : Option (State × Packet) :=
  match s.funcOfVdn p.src with
  | none => some (s, p)
  | some f =>
    match s.domOf f with
    | none => some (s, p)
    | some d =>
      if (3 ≤ pktChan p ∧ p.type ≠ 0x30) ∨ !(d.members.contains p.dst || decide (2 ≤ pktChan p)) then some (s, p) else
      let x := s.func f
      let n := tget 0 x.seqs (pktChan p)
      if 2 ^ 63 ≤ n ∨ (p.sealed = none ∧ d.sendEpoch < x.sealFrom) then none else
      let e := match p.sealed with | some (e, _) => e | none => d.sendEpoch % 4
      some (s.setFunc f { x with seqs := tput 0 x.seqs (pktChan p) (n + 1) }, { p with sealed := some (e, n), genuine := true })

/-- Fabric bytes of a function (22 Table 22-4). -/
def State.countFabric (s : State) (v n : Nat) : State :=
  match s.funcOfVdn v with
  | none => s
  | some f => let x := s.func f; s.setFunc f { x with meter := { x.meter with fbytes := x.meter.fbytes + n } }

/-- A packet takes its port and leaves. -/
def State.out (s : State) (p : Packet) : State :=
  { s with netOut := s.netOut ++ [{ p with port := (s.portOf p.dst p.addr).getD 0 }] }

/-- A packet leaves the device as it is sealed; one whose counter is exhausted waits for a rekey. -/
def State.emit (s : State) (p : Packet) : State × Packet :=
  match s.seal p with
  | some (s, q) => ((s.countFabric p.src (16 + p.payload.length)).out q, q)
  | none => ({ s with sealWait := s.sealWait ++ [p], agenda := s.agenda ++ (match s.funcOfVdn p.src with
      | some f => [.seqExhausted (s.func f).dom]
      | none => []) }, p)

def State.send (s : State) (p : Packet) : State := (s.emit p).1

/-- What a device makes of the seal of a packet for a function of its own (27 R452, R456). -/
inductive Seal where | ok | drop | denied
  deriving DecidableEq, Repr

/-- A drop under R456 counts in DOMFAIL. -/
def State.domDrop (s : State) (func : Nat) : State :=
  let f := s.func func
  s.setFunc func { f with domFail := min (f.domFail + 1) 0xFFFFFFFF }

/-- A SEQ against a replay window: the window with it marked, or `none` (R456). `h` is H + 1. -/
def replayMark (w : Nat × Nat) (seq : Nat) : Option (Nat × Nat) :=
  let (h, m) := w
  if h ≤ seq then some (seq + 1, if seq + 1 - h < 1024 then m * 2 ^ (seq + 1 - h) % 2 ^ 1024 + 1 else 1)
  else if h - 1 - seq < 1024 ∧ !bitOf m (h - 1 - seq) then some (h, m + 2 ^ (h - 1 - seq))
  else none

/-- The checks on a packet's seal in the order of R456. A function outside every domain takes packets in the clear. -/
def State.verify (s : State) (func : Nat) (p : Packet) : Seal × State :=
  let f := s.func func
  if 3 ≤ pktChan p ∧ p.type ≠ 0x30 then (.ok, s) else
  if f.domState ≠ 1 ∧ f.domState ≠ 2 then
    if p.sealed.isSome then (.drop, s.countErr p) else (.ok, s)
  else
    match p.sealed with
    | none => (.denied, s)
    | some (k, seq) =>
      let d := tget {} s.doms f.dom
      if pktChan p ≤ 1 ∧ !d.members.contains p.src then (.denied, s) else
      match d.held.find? (fun e => decide (e % 4 = k)) with
      | none => (.drop, s.domDrop func)
      | some e =>
        if !p.genuine then (.drop, s.domDrop func) else
        let i := (e * 4 + pktChan p) * 4096 + p.src
        match replayMark (tget (0, 0) f.replay i) seq with
        | none => (.drop, s.domDrop func)
        | some w => (.ok, s.setFunc func { f with replay := tput (0, 0) f.replay i w })

/-- A request claims the lowest free slot of its VDN's entry and leaves (R423, R424), in as many packets as its payloads; packet k names
the block's address plus k (log entry 20). -/
def State.requestAll (s : State) (core func vdn type addr : Nat) (payloads : List (List Byte)) (what : RWhat) : Option State :=
  let k := s.core core
  match k.peerFor vdn with
  | none => none
  | some (i, p) =>
    match (List.range 8).find? (fun j => (tfind p.slots j).isNone) with
    | none => none
    | some j =>
      let (s, pkts) := (payloads.zipIdx).foldl (fun (r : State × Table Packet) (b : List Byte × Nat) =>
        let (s, pkt) := r.1.emit (r.1.mkRequest func vdn type (mkRid core i j) (addr + b.2) b.1)
        (s, tset r.2 b.2 pkt)) (s, [])
      let r : RReq := { pkts := pkts, since := s.clock, what := what, func := func }
      some (s.setCore core { k with peers := tset k.peers i { p with slots := tset p.slots j r } })

/-- A request of one packet. -/
def State.request (s : State) (core func vdn type addr : Nat) (payload : List Byte) (what : RWhat) : Option State :=
  s.requestAll core func vdn type addr [payload] what

/-- A response slot for a peer is free on a core (R423). -/
def Core.slotFree (k : Core) (vdn : Nat) : Bool :=
  match k.peerFor vdn with
  | some (_, p) => (List.range 8).any (fun j => (tfind p.slots j).isNone)
  | none => false

/-- A remote STORE leaves; it claims no slot (R424). -/
def State.remoteStore (s : State) (core func vdn addr : Nat) (payload : List Byte) (what : Token) : Option State :=
  let k := s.core core
  match k.peerFor vdn with
  | none => none
  | some (i, p) =>
    if 64 ≤ p.stores.length then none else
    let (s, pkt) := s.emit (s.mkRequest func vdn 2 (mkRid core i 0) addr payload)
    some (s.setCore core { k with peers := tset k.peers i { p with
      stores := p.stores ++ [{ pkt := pkt, what := what, func := func }] } })

/-- The payload of a remote STORE: 128 data bytes and the byte mask (25 R418). -/
def storePayload (parts : List (Nat × List Byte)) : List Byte :=
  let t : Table Byte := parts.foldl (fun t (p : Nat × List Byte) => writeBytes t p.1 p.2) []
  let m := parts.foldl (fun m (p : Nat × List Byte) => m ||| ((2 ^ p.2.length - 1) * 2 ^ p.1)) 0
  readBytes t 0 128 ++ leBytes m 16

/-- The payload of a store of an engine: behind the bytes and their mask a mask of the marked ones, where there are any (13 R231, log entry
20). -/
def storeMarked (parts : List Piece) : List Byte :=
  let m := parts.foldl (fun m p =>
    let x := (2 ^ p.bytes.length - 1) * 2 ^ p.off
    if p.marked then m ||| x else m &&& (2 ^ 128 - 1 - x)) 0
  storePayload (parts.map (fun p => (p.off, p.bytes))) ++ (if m = 0 then [] else leBytes m 16)

/-- A request of the device's own leaves, or waits for room. -/
def State.sendOne (s : State) (core : Nat) (r : RLater) : Option State :=
  match r.tok with
  | some t => s.remoteStore core r.func r.vdn r.addr r.payload t
  | none => s.request core r.func r.vdn r.type r.addr r.payload r.what

/-- Requests that wait for room leave, oldest first, as far as there is room. -/
def State.sendLater (s : State) (core : Nat) : State :=
  ((s.core core).later).foldl (fun s r =>
    match s.sendOne core r with
    | some s =>
      let k := s.core core
      s.setCore core { k with later := k.later.erase r }
    | none => s) s

/-- A request of the device's own: it waits behind earlier ones where there is no room. -/
def State.askLater (s : State) (core : Nat) (r : RLater) : State :=
  let k := s.core core
  (s.setCore core { k with later := k.later ++ [r] }).sendLater core

def State.requestLater (s : State) (core func vdn type addr : Nat) (payload : List Byte) (what : RWhat) : State :=
  s.askLater core { func := func, vdn := vdn, type := type, addr := addr, payload := payload, what := what }

/-- Bytes of the device's own go to a peer as stores of at most a 128-byte block each, under a token. -/
def State.devStore (s : State) (core func vdn : Nat) (tok : Token) : Nat → List (Nat × List Byte) → State
  | _, [] => s
  | 0, _ => s
  | n + 1, (ma, bs) :: r =>
    let k := min bs.length (128 - ma % 128)
    let s := s.askLater core { func := func, vdn := vdn, type := 2, addr := ma / 128 * 128,
                               payload := storePayload [(ma % 128, bs.take k)], what := .dev func vdn ma, tok := some tok }
    s.devStore core func vdn tok n (if bs.length ≤ k then r else (ma + k, bs.drop k) :: r)

/-- Stores of the device's own under a token have not all been acknowledged. -/
def State.devBusy (s : State) (core : Nat) (tok : Token) : Bool :=
  let k := s.core core
  k.later.any (fun r => decide (r.tok = some tok)) || k.peers.any (fun (e : Nat × Peer) => e.2.stores.any (fun r => decide (r.what = tok)))

/-- The group key of the tokens of fault records, of spilled records and of images on their way to a peer. -/
def fqKey : Nat := 2 ^ 41
def spillKey : Nat := 2 ^ 42
def saveKey : Nat := 2 ^ 43

/-- A remote store or atomic of a function is not acknowledged (14 Table 14-3). -/
def State.remoteBusy (s : State) (core func : Nat) : Bool :=
  (s.core core).peers.any (fun (e : Nat × Peer) =>
    e.2.stores.any (fun r => decide (r.func = func) && decide (r.what.gk < 2 ^ 41)) ||
    e.2.slots.any (fun (q : Nat × RReq) => decide (q.2.func = func) && (match q.2.what with
      | .op .. => true
      | .load .. | .watch .. | .fetch .. | .pref .. | .recd .. | .dev .. | .card .. | .cardCtr .. => false)))

/-- The head of a payload of operations: FN, or a code of the model's for what is no atomic, SIZE in bytes, ORD and SCOPE (R418). -/
def HomeOp.head (op : HomeOp) (ord scope : Nat) : List Byte :=
  let f (code size : Nat) : List Byte := leBytes code 1 ++ leBytes size 1 ++ leBytes ord 1 ++ leBytes scope 1
  match op with
  | .atom fn size _ _ relop => f (if relop then 16 + fn else fn) size
  | .barInit _ => f 0xAF 4
  | .barArrive _ => f 0xB0 4
  | .barTest _ => f 0xB2 4
  | .barExpect _ => f 0xB3 4
  | .barDrop _ => f 0xB4 4
  | .barBreak _ => f 0xFF 4
  | .rngInit .. => f 0xCB 32
  | .rngNext => f 0xCC 16
  | .gridDone => f 0xFE 8

/-- The operands of one operation behind the byte offset of its location in the request's block. -/
def HomeOp.body (op : HomeOp) (off : Nat) : List Byte :=
  leBytes off 1 ++ (match op with
    | .atom fn size x y _ => leBytes x size ++ (if fn = 9 then leBytes y size else [])
    | .barInit n | .barArrive n | .barTest n | .barExpect n | .barDrop n | .barBreak n => leBytes n 8
    | .rngInit nx stop p m => leBytes nx 8 ++ leBytes stop 8 ++ leBytes p 4 ++ leBytes m 4
    | .rngNext | .gridDone => [])

/-- Bytes that an operation answers with: the old value of an atomic, or 16 bytes and whether it was taken. -/
def HomeOp.answerLen : HomeOp → Nat
  | .atom _ size _ _ _ => size
  | .barInit _ | .barArrive _ | .barTest _ | .barExpect _ | .barDrop _ | .barBreak _ | .rngInit .. | .rngNext | .gridDone => 17

/-- A list in pieces of `n`. -/
def chunks {α : Type} (n : Nat) : Nat → List α → List (List α)
  | 0, _ => []
  | fuel + 1, l => if l.isEmpty then [] else l.take n :: chunks n fuel (l.drop n)

/-- How many operations like this one a packet carries: its operands and its answers fit in the 192 bytes of a packet that can be sealed (R416, 27
R454). -/
def HomeOp.perPacket (op : HomeOp) : Nat := min ((192 - 5) / (op.body 0).length) (192 / op.answerLen)

/-- The payload of operations of one kind: FN, SIZE, ORD, SCOPE and their number, then their operands (R418, log entry 20). -/
def opsBytes (ord scope : Nat) (ops : List (Nat × HomeOp)) : List Byte :=
  (match ops with | (_, op) :: _ => op.head ord scope | [] => []) ++ leBytes ops.length 1 ++ ops.flatMap (fun x => x.2.body x.1)

/-- Operations on one block as packets carry them: as many of one kind as a packet holds. -/
def opPayloads (ord scope : Nat) (ops : List (Nat × HomeOp)) : List (List Byte) :=
  match ops with
  | [] => []
  | (_, op) :: _ =>
    let n := if ops.all (fun x => x.2.head 0 0 = op.head 0 0) then op.perPacket else 1
    (chunks n ops.length ops).map (opsBytes ord scope)

/-- The payload of one operation, relaxed. -/
def opBytes (off : Nat) (op : HomeOp) : List Byte := opsBytes 0 0 [(off, op)]

/-- The number held by `n` bytes at `o`. -/
def numAt (bs : List Byte) (o n : Nat) : Nat := ofLE ((bs.drop o).take n)

/-- The operations that a payload carries, with their offsets. -/
def opsOf (bs : List Byte) : List (Nat × HomeOp) :=
  let code := numAt bs 0 1
  let size := numAt bs 1 1
  let op (o : Nat) : HomeOp :=
    let x := numAt bs (o + 1) 8
    match code with
    | 0xAF => .barInit x
    | 0xB0 => .barArrive x
    | 0xB2 => .barTest x
    | 0xB3 => .barExpect x
    | 0xB4 => .barDrop x
    | 0xFF => .barBreak x
    | 0xCB => .rngInit x (numAt bs (o + 9) 8) (numAt bs (o + 17) 4) (numAt bs (o + 21) 4)
    | 0xCC => .rngNext
    | 0xFE => .gridDone
    | k => .atom (k % 16) size (numAt bs (o + 1) size) (numAt bs (o + 1 + size) (if k % 16 = 9 then size else 0)) (decide (16 ≤ k))
  (List.range (numAt bs 4 1)).map (fun i =>
    let o := 5 + i * ((op 5).body 0).length
    (numAt bs o 1, op o))

/-! ### A migration's packets on the source (23 R400, R405) -/

/-- A VDN is being forwarded to the destination of a migration (23 R405). -/
def State.forwards (s : State) (v : Nat) : Bool := s.migs.any (fun (e : Nat × Mig) => decide (e.2.vdn = some v) && decide (e.2.st = 4))

/-- A packet goes on to the destination of a migration, on VC 3 (23 R405, Table 25-1); a request is answered through the source. -/
def State.forward (s : State) (p : Packet) : State :=
  { s.out { p with vc := 3 } with fwd := if p.type < 16 then s.fwd ++ [p] else s.fwd }

/-- The block of a migration of a function that is between its final sweep and step 6. -/
def State.swept (s : State) (func : Nat) : Option (Nat × Mig) :=
  s.migs.find? (fun (e : Nat × Mig) => decide (e.2.func = func) && decide (e.2.st = 3) && decide (1 ≤ e.2.phase))

/-- A packet for a function joins the hold buffer of its migration (R400); `none` where there is none, and the flag is false where the buffer is
full. -/
def State.holdBack (s : State) (func : Nat) (p : Packet) : Option (State × Bool) :=
  (s.swept func).map (fun (m, x) =>
    if x.hold.length < 4096 then ({ s with migs := tput {} s.migs m { x with hold := x.hold ++ [p] } }, true) else (s, false))

/-! ### What a target refuses, and translations that the device makes afresh -/

/-- The lines of `n` bytes from an address. -/
def linesOf (a n : Nat) : List Nat := (List.range ((a + n - 1) / 512 - a / 512 + 1)).map (· + a / 512)

/-- The host holds the line under HDM-DB (29 R466). -/
def State.snooped (s : State) (t : Tgt) : Bool :=
  match t with
  | .loc ma => s.snoop.contains (ma / 512)
  | .host _ | .fab .. | .notify .. => false

/-- BISnpInv goes to the host, once while it is outstanding. -/
def State.biSend (s : State) (t : Tgt) : State :=
  match t with
  | .loc ma => if s.biPend.contains (ma / 512) then s else { s with biPend := s.biPend ++ [ma / 512] }
  | .host _ | .fab .. | .notify .. => s

/-- The host holds a line of `n` bytes at a target: BISnpInv goes out for each. -/
def State.biSpan (s : State) (t : Tgt) (n : Nat) : Option State :=
  match t with
  | .loc ma =>
    let held := (linesOf ma n).filter (fun l => s.snoop.contains l)
    if held = [] then none else some (held.foldl (fun s l => s.biSend (.loc (512 * l))) s)
  | .host _ | .fab .. | .notify .. => none

/-- Another partition holds a host line of the `n` bytes at a target (13 R234). -/
def State.hostTaken (s : State) (func : Nat) (t : Tgt) (n : Nat) : Bool :=
  match t with
  | .host ha => (linesOf ha n).any (fun l => match tfind s.hostLines l with
    | some p => decide (some p ≠ (s.func func).part)
    | none => false)
  | .loc _ | .fab .. | .notify .. => false

/-- A translation that stage 2 refuses for its target: no VDN or no route (25 R419, R420), a host line held by another
partition (13 R234). -/
def State.refine (s : State) (func : Nat) (r : XRes) : XRes :=
  match r with
  | .ok t =>
    (match t.tgt with
     | .fab v _ =>
       if (s.func func).vdn.isSome && s.routes v &&
         (match s.domOf func with | some d => d.members.contains v | none => true) then r else .access2
     | .host _ => if s.hostTaken func t.tgt 1 then .access2 else r
     | .loc _ | .notify .. => r)
  | .page1 | .access1 | .page2 _ | .access2 | .moving _ | .miss | .unbacked _ => r

/-- A translation by the device itself, for a mode, through what die 0's walkers hold (R356, R359), with what they hold after it. -/
def State.devXl (s : State) (func : Nat) (sup : Bool) (acc : Acc) (va : Nat) : XRes × Tlb :=
  let f := s.func func
  let d := s.die 0
  let page := bits va 54 16
  let first : Except XRes TlbE × Tlb :=
    match (if vaCanonical va && s1On f.s1root.toNat then tlbFind d.tlb.s1 func page else none) with
    | some e => (.ok e, d.tlb)
    | none => match walk1 d.tlb s.mem f.s2root func f.s1root.toNat va with
      | (.unbacked ma, t) => (.error (.unbacked ma), t)
      | (.fail x, t) => (.error x.res, t)
      | (.leaf e, t) => let w := tlbEntry func page (bits e 12 9) e; (.ok w, { t with s1 := w :: t.s1 })
  match first with
  | (.error r, t) => (r, t)
  | (.ok e, t) =>
    if leaf1Refuses e.leaf.toNat sup acc then (.access1, t) else
    let fpa := leaf1Fpa e va
    match stage2 t s.mem f.s2root func fpa with
    | (.unbacked ma, _) => (.unbacked ma, t)
    | (.fail x, _) => (x.res, t)
    | (.leaf _, s2) =>
      let t := s2.foldl Tlb.with2 t
      (s.refine func (translate2 t func acc fpa e.leaf.toNat), t)

/-- The move of a page that an access of the device's own has met: it walks again after an S2INV of the page (R361). -/
def State.devMoving (s : State) (func va : Nat) : Option Nat :=
  (s.die 0).wfail.findSome? (fun w => match w.why with
    | .moving f => if w.func = func ∧ w.page = bits va 54 16 then some f else none
    | .page1 | .page2 _ | .access2 => none)

def State.xlAt (s : State) (func : Nat) (sup : Bool) (acc : Acc) (va : Nat) : XRes :=
  match s.devMoving func va with
  | some f => .moving f
  | none => (s.devXl func sup acc va).1

/-- The translation of the fault queue, completion counters, spill slots and images, in supervisor mode. -/
def State.xlDirect (s : State) (func : Nat) (acc : Acc) (va : Nat) : XRes := s.xlAt func true acc va

/-- The same for `n` bytes of one page, every host line of which the function's partition must be able to hold (13 R234). -/
def State.xlSpan (s : State) (func : Nat) (sup : Bool) (acc : Acc) (va n : Nat) : XRes :=
  match s.xlAt func sup acc va with
  | .ok t => if s.hostTaken func t.tgt n then .access2 else .ok t
  | .page1 => .page1
  | .access1 => .access1
  | .page2 f => .page2 f
  | .access2 => .access2
  | .moving f => .moving f
  | .miss => .miss
  | .unbacked ma => .unbacked ma

/-- What an access of the device's own has walked stays in the cache of die 0's walkers; so does the move that it has met. -/
def State.xlKeep (s : State) (func : Nat) (va : Nat) : State :=
  match s.devMoving func va with
  | some _ => s
  | none =>
    let (r, t) := s.devXl func true .read va
    let d := s.die 0
    s.setDie 0 { d with tlb := t, wfail := match r with
      | .moving f => d.wfail ++ [⟨func, bits va 54 16, .moving f⟩]
      | .ok _ | .page1 | .access1 | .page2 _ | .access2 | .miss | .unbacked _ => d.wfail }

/-- A host access of a function to `n` bytes: its ATS translations are kept where ATS is enabled (20 R358), and its lines are held in L2 by
the partition that reaches them (13 R234). -/
def State.touchSpan (s : State) (func : Nat) (t : Tgt) (n : Nat) : State :=
  match t with
  | .host ha =>
    let f := s.func func
    let pages := ((List.range ((ha + n - 1) / 4096 - ha / 4096 + 1)).map (· + ha / 4096)).filter (fun p => !f.atc.contains p)
    let s := if f.ats && decide (pages ≠ []) then s.setFunc func { f with atc := f.atc ++ pages } else s
    (match f.part with
     | some p => { s with hostLines := (linesOf ha n).foldl (fun t l => if (tfind t l).isSome then t else tset t l p) s.hostLines }
     | none => s)
  | .loc _ | .fab .. | .notify .. => s

/-- The same for bytes of one line. -/
def State.touchHost (s : State) (func : Nat) (t : Tgt) : State := s.touchSpan func t 1

/-- Bytes that the device itself writes for a function. -/
def State.devWrite (s : State) (func : Nat) (t : Tgt) (bs : List Byte) : State := (s.touchSpan func t bs.length).homeWrite t bs

/-- Translations that an S2INV of a range removes everywhere, and the walks that found a page moving there (20 R359). -/
def State.dropS2 (s : State) (func lo hi : Nat) : State :=
  let hitsE (e : TlbE) : Bool := decide (e.func = func) && decide (e.base * 65536 < hi) && decide (lo < (e.base + e.len) * 65536)
  let t (x : Tlb) : Tlb := { x with s2 := x.s2.filter (fun e => !hitsE e) }
  let w (l : List NoLeaf) : List NoLeaf := l.filter (fun e => !(decide (e.func = func) &&
    (match e.why with
     | .moving f | .page2 f => decide (lo ≤ f) && decide (f < hi)
     | .page1 | .access2 => true)))
  { s with
    cores := s.cores.map (fun (e : Nat × Core) => (e.1, { e.2 with tlb := t e.2.tlb, wfail := w e.2.wfail })),
    dies := s.dies.map (fun (e : Nat × Die) => (e.1, { e.2 with tlb := t e.2.tlb, wfail := w e.2.wfail })) }

/-! ### Stage-2 pages and the host (19 R342, 20 R361, R362) -/

/-- The address of the stage-2 leaf of a function-physical page, where its pointers are valid. -/
def State.leaf2Addr (s : State) (func fpa : Nat) : Option Nat :=
  let root := (s.func func).s2root
  if root = 0 then none else
  match ptrNext (readLE s.mem (root / 65536 * 65536 + 8 * bits fpa 51 42) 8) with
  | none => none
  | some t1 => (ptrNext (readLE s.mem (t1 + 8 * bits fpa 41 29) 8)).map (fun t0 => t0 + 8 * bits fpa 28 16)

/-- The host's swap of MOVE 0 for 2 at a leaf arrives in this cycle too: it is the next move of the agenda (log entry 54). -/
def State.hostSwaps (s : State) (a e : Nat) : Bool :=
  match s.agenda with
  | .hostMemAccess (.cas ma old new) :: _ => decide (ma = a) && decide (old.toNat = e) && decide (bits new.toNat 9 8 = 2)
  | _ => false

/-- Firmware's swap of MOVE 0 for 1 at the leaf's home (R362); false where a move is under way, where the host's swap arrives in the
same cycle and PREFER is the host's, or while the host holds the leaf's line (29 R466). A leaf that is valid by then is invalidated everywhere before the page moves. -/
def State.moveSwap (s : State) (func fpa : Nat) : State × Bool :=
  match s.leaf2Addr func fpa with
  | none => (s, true)
  | some a =>
    let e := readLE s.mem a 8
    if s.snooped (.loc a) then (s.biSend (.loc a), false)
    else if bits e 9 8 ≠ 0 ∨ (s.hostSwaps a e && !bitOf e 7) = true then (s, false)
    else
      let s := s.homeWrite (.loc a) (leBytes (e + 256) 8)
      let page := fpa / 65536 / 2 ^ bits e 13 10 * 2 ^ bits e 13 10
      (if leaf2Ok e then s.dropS2 func (page * 65536) ((page + 2 ^ bits e 13 10) * 65536) else s, true)

/-- The requests of a group of pages: one for each, the last with the Last bit (R361). -/
def priGroup (pasid : Nat) (pages : List Nat) : List PriReq := pages.zipIdx.map (fun (p, i) => ⟨p, decide (i + 1 = pages.length), pasid⟩)

/-- A request for the page has been sent, or waits for room. -/
def Func.asked (f : Func) (page : Nat) : Bool := f.pri.any (fun r => decide (r.page = page)) || f.priWait.any (fun g => g.contains page)

/-- The stage-2 pages of a batch go to the host as one group: firmware's swap for each that is not asked for, then the requests, once
the allocation has room for them all (R361). The answer names the pages that are waited for and those that are moving. -/
def State.pagesToHost (s : State) (func : Nat) (fpas : List Nat) : State × List Nat × List Nat :=
  let pages := (fpas.map (fun p => p / 65536 * 65536)).eraseDups
  let (s, new, sent, moving) := pages.foldl (fun (a : State × List Nat × List Nat × List Nat) p =>
    let (s, new, sent, moving) := a
    if (s.func func).asked p then (s, new, sent ++ [p], moving) else
    match s.moveSwap func p with
    | (s, true) => (s, new ++ [p], sent ++ [p], moving)
    | (s, false) => (s, new, sent, moving ++ [p])) (s, [], [], [])
  let f := s.func func
  let f := if new = [] then f
    else if f.pri.length + new.length ≤ f.priMax ∧ f.priWait = [] then { f with pri := f.pri ++ priGroup f.pasid new }
    else { f with priWait := f.priWait ++ [new] }
  (s.setFunc func f, sent, moving)

/-- One page goes to the host; the flag is false where it is moving. -/
def State.pageToHost (s : State) (func fpa : Nat) : State × Bool :=
  let (s, _, moving) := s.pagesToHost func [fpa]
  (s, decide (moving = []))

/-! ### Memory of a function by virtual address, as the device itself reaches it -/

/-- The pieces of a run of bytes that lie in one page each. -/
def pagePieces : Nat → Nat → Nat → List (Nat × Nat)
  | 0, _, _ => []
  | fuel + 1, va, n =>
    if n = 0 then [] else
    let k := min n (65536 - va % 65536)
    (va, k) :: pagePieces fuel (va + k) (n - k)

/-- What an access of the device's own for a function came to. -/
inductive DevRes where
  | ok (s : State) (bs : List Byte)
  /-- a page is moving (20 R361), or a peer has not answered: the access is made again -/
  | wait (s : State)
  /-- a page that does not translate, with its address -/
  | stop (r : XRes) (va : Nat)

/-- Bytes written by the device; those of a peer leave as stores of a core under a token. -/
def State.devPut (s : State) (core func : Nat) (tok : Token) (va : Nat) (bs : List Byte) : DevRes :=
  (pagePieces (bs.length / 65536 + 2) va bs.length).foldl (fun (r : DevRes) (p : Nat × Nat) => match r with
    | .ok s _ =>
      let part := (bs.drop (p.1 - va)).take p.2
      let s := s.xlKeep func p.1
      (match s.xlSpan func true .write p.1 p.2 with
       | .ok t => (match t.tgt with
         | .loc _ | .host _ => (match s.biSpan t.tgt p.2 with
           | some s => .wait s
           | none => .ok (s.devWrite func t.tgt part) [])
         | .fab v ma => .ok (s.devStore core func v tok (part.length + 1) [(ma, part)]) []
         | .notify .. => .stop .access2 p.1)
       | .moving _ => .wait s
       | x => .stop x p.1)
    | r => r) (.ok s [])

/-- The 128-byte blocks of a run of a peer. -/
def fabRun (ma n : Nat) : List Nat := (List.range ((ma + n - 1) / 128 - ma / 128 + 1)).map (fun i => (ma / 128 + i) * 128)

/-- One piece of a read by the device: its bytes, and the blocks of a peer that have not come. -/
def State.devPiece (s : State) (func : Nat) (t : Tgt) (n : Nat) : List Byte × List (Nat × Nat) :=
  match t with
  | .fab v ma =>
    let have' (b : Nat) : Option (List Byte) :=
      ((s.func func).devBuf.find? (fun (e : Nat × Nat × List Byte) => decide (e.1 = v) && decide (e.2.1 = b))).map (fun e => e.2.2)
    let all := (fabRun ma n).flatMap (fun b => (have' b).getD (List.replicate 128 0))
    ((all.drop (ma % 128)).take n, ((fabRun ma n).filter (fun b => (have' b).isNone)).map (fun b => (v, b)))
  | .loc _ | .host _ | .notify .. => (s.homeBytes t n, [])

/-- A read of the device's own for a function, by pieces with their translations; blocks of peers are asked for by a core and kept until
all have come. -/
def State.devParts (s : State) (core func : Nat) (parts : List (Nat × Nat × XRes)) : DevRes :=
  match parts.find? (fun p => match p.2.2 with
      | .ok _ => false
      | .page1 | .access1 | .page2 _ | .access2 | .moving _ | .miss | .unbacked _ => true) with
  | some (_, _, .moving _) => .wait s
  | some (a, _, x) => .stop x a
  | none =>
    let got := parts.map (fun p => match p.2.2 with
      | .ok t => s.devPiece func t.tgt p.2.1
      | .page1 | .access1 | .page2 _ | .access2 | .moving _ | .miss | .unbacked _ => ([], []))
    let missing := got.flatMap (fun g => g.2)
    if missing = [] then
      let s := parts.foldl (fun s p => match p.2.2 with
        | .ok t => s.touchSpan func t.tgt p.2.1
        | .page1 | .access1 | .page2 _ | .access2 | .moving _ | .miss | .unbacked _ => s) s
      .ok (s.setFunc func { s.func func with devBuf := [] }) (got.flatMap (fun g => g.1))
    else
      .wait (missing.foldl (fun s b =>
        let k := s.core core
        let what : RWhat := .dev func b.1 b.2
        let asked := k.later.any (fun r => decide (r.what = what) && r.tok.isNone) ||
          k.peers.any (fun (e : Nat × Peer) => e.2.slots.any (fun (q : Nat × RReq) => decide (q.2.what = what)))
        if asked then s else s.requestLater core func b.1 1 b.2 [] what) s)

/-- `n` bytes read by the device for a function in a mode. -/
def State.devRead (s : State) (core func : Nat) (sup : Bool) (va n : Nat) : DevRes :=
  let ps := pagePieces (n / 65536 + 2) va n
  let s := ps.foldl (fun s p => s.xlKeep func p.1) s
  s.devParts core func (ps.map (fun p => (p.1, p.2, s.xlSpan func sup .read p.1 p.2)))

/-- The state while a read waits. -/
def DevRes.waits : DevRes → Option State
  | .wait s => some s
  | .ok .. | .stop .. => none

/-- The bytes where they are at hand. -/
def DevRes.bytes? : DevRes → Option (List Byte)
  | .ok _ bs => some bs
  | .wait _ | .stop .. => none

end Sys2Proof.Machine
end

