-- ==== Sys2Proof/Machine/Home.lean ====
section
/-!
DEFINITION. What the home slices (13 R222, R230) return to a core, in the order in which they serve it (14 R246): loads, the
acknowledgements of stores, and what an acquire does to the core's copies (14 R255).
-/
namespace Sys2Proof.Machine

/-- The entries of one home slice. -/
def sameSlice (t : Tgt) (e : WtbE) : Bool := decide (homeSlice e.tgt = homeSlice t)

/-- Outstanding instructions complete in their lanes; a result that stands in flight becomes visible. -/
def State.finishToks (s : State) (toks : List Token) : State :=
  toks.foldl (fun s t => if (tfind s.groups t.gk).isNone then s else
    s.setGroup t.gk ((s.group t.gk).withCkpt (fun g => (g.landTok t.tok t.lanes).finish t.tok t.lanes))) s

/-- A fill brings its data: the loads that asked for it complete, and L1 takes the lines that may stand there. -/
def State.fillLoad (s : State) (core i : Nat) : State :=
  let k := s.core core
  match k.loads[i]? with
  | none => s
  | some d =>
    let k := { k with loads := delAt k.loads i }
    let k := if d.install then (d.fills.filter (fun f => !f.tgt.isFab)).foldl (fun k f => k.fill s.epoch (s.fillLine f)) k else k
    (s.setCore core k).finishToks [d.what]

/-- The loads whose responses a slice of `sl` must return before a response that it serves now, with those that precede them on their own
slices: the number of the last one, plus 1 (14 R246). -/
def loadsBefore (ls : List PendLoad) (sl : List Nat) : List Bool :=
  (ls.foldr (fun (d : PendLoad) (r : List Bool × List Nat) =>
    if d.slices.any (fun x => r.2.contains x) then (true :: r.1, d.slices ++ r.2) else (false :: r.1, r.2)) ([], sl)).1

/-- The outstanding loads that home slices have served before now return first: a slice's responses to a core keep the order in which it
serves the requests (14 R246). -/
def State.answerLoads (s : State) (core : Nat) (sl : List Nat) : State :=
  let due := ((loadsBefore (s.core core).loads sl).zipIdx.filter (fun (x : Bool × Nat) => x.1)).map (fun (x : Bool × Nat) => x.2)
  (due.zipIdx).foldl (fun s (x : Nat × Nat) => s.fillLoad core (x.1 - x.2)) s

/-- A line enters the ring of a plane (14 R249). -/
def State.recordLine (s : State) (plane line : Nat) : State :=
  let p := s.plane plane
  s.setPlane plane { p with ring := ringInsert p.ring s.epoch line }

/-- The acknowledgement of an entry reaches the core (14 R246, R249). -/
def State.ackEntry (s : State) (e : WtbE) : State :=
  (e.rings.foldl (fun s p => s.recordLine p (e.fpa / 512)) s).finishToks e.toks

/-- The acknowledgements of the performed entries that `p` selects reach the core, behind what their slices have served before. -/
def State.ackPerformed (s : State) (core : Nat) (p : WtbE → Bool) : State :=
  let due (e : WtbE) : Bool := decide (e.st = .performed) && p e
  let sel := (s.core core).wtb.filter due
  if sel = [] then s else
  let s := s.answerLoads core (sel.map (fun e => homeSlice e.tgt))
  let k := s.core core
  sel.foldl State.ackEntry (s.setCore core { k with wtb := k.wtb.filter (fun e => !due e) })

/-- What a slice has served a core before reaches it before a response that the slice sends now. -/
def State.answerSlices (s : State) (core : Nat) (ts : List Tgt) : State :=
  (s.ackPerformed core (fun e => ts.any (fun t => sameSlice t e))).answerLoads core (ts.map homeSlice)

/-- What stands at a home is answered to every core once an epoch, so that no core keeps an older write of its own for longer than R241
allows (14 R241). -/
def State.ackAll (s : State) : State := s.cores.foldl (fun s (e : Nat × Core) => s.ackPerformed e.1 (fun _ => true)) s

/-- A full invalidation for a function on a core (14 R255), with the SAT bit of the plane's current slot. What homes have performed for
the core is acknowledged by then, so that no later load finds an older write of the core's own (14 R240). -/
def State.fullInval (s : State) (core func : Nat) (plane : Nat) : State :=
  let s := s.ackPerformed core (fun _ => true)
  let s := s.setCore core ((s.core core).dropLines (fun l => decide (l.func = func) && !(l.loc && l.stable)))
  let p := s.plane plane
  s.setPlane plane { p with ring := updAt (fun r => { r with sat := true }) p.ring (slotOf s.epoch) }

/-- The walk of an absorb (14 R255) on a core for a plane, with the three slots given by epoch, bits and SAT. -/
def State.absorbWalk (s : State) (core func plane : Nat) (slots : List RSlot) : State :=
  let s := s.ackPerformed core (fun _ => true)
  let inWin := slots.map (fun r => (r, decide (epochDiff s.epoch r.epoch ≤ 2)))
  let hit (l : L1Line) : Bool := decide (l.func = func) && l.loc && !l.stable &&
    inWin.any (fun (r, w) => w && (sigHas r.bits l.line || (r.sat && decide (epochDiff r.epoch l.fepoch ≤ 2))))
  let s := s.setCore core ((s.core core).dropLines hit)
  let p := s.plane plane
  let ring := (List.zip p.ring inWin).map (fun (q, (r, w)) =>
    if w then { q with bits := q.bits ||| r.bits, sat := q.sat || r.sat } else q)
  s.setPlane plane { p with ring := ring }

/-! ### What a core has outstanding at peers (25 R423, R427, R429) -/

/-- The group and the token of the instruction that a request belongs to; a watch that is made again is no request of its instruction's. -/
def RWhat.owner : RWhat → Option (Nat × Nat)
  | .load gk tok .. | .op gk tok .. | .watch gk tok _ true | .pref gk tok _ => some (gk, tok)
  | .watch _ _ _ false | .fetch .. | .recd .. | .dev .. | .card .. | .cardCtr .. => none

/-- The group that a response goes to. -/
def RWhat.groupOf : RWhat → Option Nat
  | .load gk .. | .op gk .. | .watch gk .. | .pref gk .. | .recd gk .. => some gk
  | .fetch .. | .dev .. | .card .. | .cardCtr .. => none

/-- Remote requests of a group to the VDNs that `p` selects, made by instructions issued before a token, are not answered (R429). -/
def State.groupRemote (s : State) (core gk tok : Nat) (p : Nat → Bool) : Bool :=
  let mine (w : RWhat) : Bool := match w.owner with | some (g, t) => decide (g = gk) && decide (t < tok) | none => false
  let k := s.core core
  k.later.any (fun r => p r.vdn && mine r.what) ||
  k.peers.any (fun (e : Nat × Peer) => p e.2.vdn &&
    (e.2.slots.any (fun (q : Nat × RReq) => mine q.2.what) ||
     e.2.stores.any (fun r => decide (r.what.gk = gk) && decide (r.what.tok < tok))))

/-- The PFENCEs of a group whose requests are all answered are done (R429). -/
def State.fencesOf (s : State) (core gk : Nat) : State :=
  let g := s.group gk
  let sel (f : PFence) (v : Nat) : Bool := f.vdn.all (fun x => decide (x = v))
  let (out, done) := g.fences.partition (fun f => s.groupRemote core gk f.tok (sel f))
  if done = [] then s else (s.setGroup gk { g with fences := out }).finishToks (done.map (fun f => ⟨gk, f.tok, f.lanes⟩))

/-- What waits for the answers of peers to a core is looked at again. -/
def State.fencesDone (s : State) (core : Nat) : State :=
  s.groups.foldl (fun s (e : Nat × Group) => if e.2.fences = [] then s else s.fencesOf core e.1) s

/-- Walks that found no leaf, of a function, without those that a move of the page holds back (20 R361). -/
def keepFails (func : Nat) (l : List NoLeaf) : List NoLeaf :=
  l.filter (fun w => decide (w.func ≠ func) || (match w.why with | .moving _ => true | .page1 | .page2 _ | .access2 => false))

/-- A page whose walk some lane of the function on the core waits for (08 R150). -/
def State.awaited (s : State) (core func page : Nat) : Bool :=
  s.groups.any (fun (e : Nat × Group) => (s.team? (e.1 / 32)).any (fun t => decide (t.core = core) && decide (t.func = func)) &&
    e.2.lanes.any (fun x => decide (x.wait = .walk page)))

/-- Accesses of a function on a core will not be made again: walks made or asked for them serve no later access, which walks again (20
R359). -/
def State.forgetWalks (s : State) (core func : Nat) : State :=
  let k := s.core core
  let s := s.setCore core { k with wfail := keepFails func k.wfail }
  let d := s.die (core / 160)
  let drop (l : List WalkReq) : List WalkReq := l.filterMap (fun r =>
    if r.func ≠ func ∨ s.awaited core func r.page = true then some r
    else match r.agents.filter (fun a => decide (a ≠ some core)) with
      | [] => none
      | as => some { r with agents := as })
  s.setDie (core / 160) { d with walkq := drop d.walkq, walking := drop d.walking }

/-- The same of the engines of a die. -/
def State.forgetEng (s : State) (die func : Nat) : State :=
  let d := s.die die
  s.setDie die { d with wfail := keepFails func d.wfail }

/-- Every issued instruction of a group is complete (21 R364 step 2, 25 R427). -/
def State.groupQuiet (s : State) (core gk : Nat) : Bool :=
  let g := s.group gk
  let k := s.core core
  g.outs.all g.waitsOn && decide (g.divs = []) &&
  !k.loads.any (fun d => decide (d.what.gk = gk)) && !k.later.any (fun r => decide (r.what.groupOf = some gk)) &&
  !k.peers.any (fun (e : Nat × Peer) => e.2.stores.any (fun r => decide (r.what.gk = gk)) ||
    e.2.slots.any (fun (q : Nat × RReq) => decide (q.2.what.groupOf = some gk)))

/-- Every issued instruction of a plane's groups is complete. -/
def State.groupsQuiet (s : State) (pl : Nat) : Bool :=
  (s.plane pl).teams.all (fun t => (s.groupsOf t).all (fun gk => s.groupQuiet (pl / 3) gk))

/-- An acquire of a lane of `m` at a peer has not made its action, so that no later access of the lane issues (14 R242). -/
def Core.acquiring (k : Core) (gk : Nat) (m : BitVec 32) : Bool :=
  k.peers.any (fun (e : Nat × Peer) => e.2.slots.any (fun (q : Nat × RReq) => match q.2.what with
    | .load g _ _ _ ls _ acq _ | .op g _ _ _ _ ls acq _ _ => acq.isSome && decide (g = gk) && ls.any (fun (x : Nat × Nat) => m.getLsbD x.1)
    | .watch .. | .fetch .. | .pref .. | .recd .. | .dev .. | .card .. | .cardCtr .. => false))

end Sys2Proof.Machine
end

