-- ==== Sys2Proof/Machine/Cells.lean ====
section
/-!
DEFINITION. Sync cells and barrier cells at their homes (14 R252 to R257): their fields, Publish, Absorb, the completion
test, BROKEN, and the waking of the lanes that watch a home location (15 R273, R278, 26 R448).
-/
namespace Sys2Proof.Machine

/-- The number held by `n` bytes at `off` of a block. -/
def State.rdAt (s : State) (t : Tgt) (off n : Nat) : Nat := ofLE (s.homeBytes (t.add off) n)

def State.wrAt (s : State) (t : Tgt) (off n v : Nat) : State := s.homeWrite (t.add off) (leBytes v n)

/-- An address in bytes 0 to 7 of a 512-byte block aligned to 512 (R252). -/
def isCellAddr (va : Nat) : Bool := decide (va % 512 < 8)

/-- The cell's block: the target with its low nine bits cleared. -/
def Tgt.block (t : Tgt) : Tgt :=
  match t with
  | .loc ma => .loc (ma / 512 * 512)
  | .host ha => .host (ha / 512 * 512)
  | .fab v ma => .fab v (ma / 512 * 512)
  | .notify f p o => .notify f p o

/-- An acquire at a location: its scope, its virtual and function-physical address, and its target. -/
structure Acq where
  sc : Scope
  va : Nat
  fpa : Nat
  tgt : Tgt

/-- FLAGS of a cell (Table 14-5). -/
def State.cellFlags (s : State) (b : Tgt) : Nat := s.rdAt b 12 2
def State.cellBroken (s : State) (b : Tgt) : Bool := bitOf (s.cellFlags b) 0
def State.cellKind (s : State) (b : Tgt) : Bool := bitOf (s.cellFlags b) 8

def setBit (x i : Nat) (v : Bool) : Nat := if bitOf x i then (if v then x else x - 2 ^ i) else (if v then x + 2 ^ i else x)

def State.setBroken (s : State) (b : Tgt) : State := s.wrAt b 12 2 (setBit (s.cellFlags b) 0 true)

/-- The three slots of a cell as ring slots. -/
def State.cellSlots (s : State) (b : Tgt) : List RSlot :=
  (List.range 3).map (fun k =>
    ⟨BitVec.ofNat 1024 (s.rdAt b (128 + 128 * k) 128), s.rdAt b (16 + 4 * k) 4, bitOf (s.cellFlags b) (1 + k)⟩)

/-- Slot `k` of a cell takes a ring slot. -/
def State.setCellSlot (s : State) (b : Tgt) (k : Nat) (r : RSlot) : State :=
  let s := s.wrAt b (128 + 128 * k) 128 r.bits.toNat
  let s := s.wrAt b (16 + 4 * k) 4 r.epoch
  s.wrAt b 12 2 (setBit (s.cellFlags b) (1 + k) r.sat)

/-- Publish (R254): `replace` for a release store, OR for every other release on a cell. -/
def State.publish (s : State) (b : Tgt) (replace : Bool) (scope : Scope) (ring : List RSlot) : State :=
  if scope.code.toNat < 3 ∨ b.isFab then s else
  let cell := s.cellSlots b
  let s := (List.range 3).foldl (fun s k =>
    let r := ringSlot ring k
    let c := ringSlot cell k
    if replace ∨ c.epoch ≠ r.epoch then s.setCellSlot b k r
    else
      let bits := c.bits ||| r.bits
      s.setCellSlot b k ⟨bits, r.epoch, c.sat || r.sat || decide (512 < popcount1024 bits)⟩) s
  let s := s.wrAt b 8 4 ((s.rdAt b 8 4 + 1) % 2 ^ 32)
  let f := s.cellFlags b
  s.wrAt b 12 2 (f - bits f 7 4 * 16 + scope.code.toNat * 16)

/-- The acquire of Table 14-3 for a lane of a plane: nothing at TEAM or narrower; the walk with the cell's slots at CLUSTER
to DEVICE on a local cell; otherwise a full invalidation. The location itself was read at its home, so the core's own copy of it goes,
and what the home has served the core before has come (R238, R246, log entry 45). -/
def State.acquire (s : State) (core func plane : Nat) (a : Acq) : State :=
  let s := s.answerSlices core [a.tgt]
  let s := s.setCore core (if a.tgt.isFab then (s.core core).dropLines (fun l => decide (l.func = func) && decide (l.kind = .fab))
    else (s.core core).dropSector func a.fpa)
  if a.sc.code.toNat < 3 then s
  else if a.sc.code.toNat ≤ 6 && isCellAddr a.va && !a.tgt.isFab then s.absorbWalk core func plane (s.cellSlots a.tgt.block)
  else s.fullInval core func plane

/-! ### Barrier cells (R256) -/

def State.barExpect (s : State) (b : Tgt) : Nat := s.rdAt b 0 4
def State.barArrived (s : State) (b : Tgt) : Nat := s.rdAt b 4 4
def State.barPhase (s : State) (b : Tgt) : Nat := s.rdAt b 28 4
def State.barPending (s : State) (b : Tgt) : Nat := s.rdAt b 32 8
def State.barMgen (s : State) (b : Tgt) : Nat := s.rdAt b 40 4

/-- The completion test after an update: PHASE advances and ARRIVED becomes 0. -/
def State.barTest (s : State) (b : Tgt) : State :=
  if s.barArrived b = s.barExpect b ∧ s.barPending b = 0 then
    (s.wrAt b 28 4 ((s.barPhase b + 1) % 2 ^ 32)).wrAt b 4 4 0
  else s

/-- The phase has passed the token (R278). -/
def barPassed (phase tok : Nat) : Bool :=
  let d := (phase + 2 ^ 32 - tok % 2 ^ 32) % 2 ^ 32
  decide (1 ≤ d) && decide (d < 2 ^ 31)

/-! ### Waking -/

/-- The team, plane and core of a group. -/
def State.homeOf (s : State) (gk : Nat) : Option (Team × Nat × Nat) :=
  (s.team? (gk / 32)).map (fun t => (t, 3 * t.core + t.plane, t.core))

/-- The entered line stays entered while the PC stays in it. -/
def Lane.keepLine (x : Lane) (nx : DWord) : Option Nat := if nx.toNat / 64 = x.pc.toNat / 64 then x.fline else none

/-- The writes of a lane whose instruction's lanes complete one by one that stand: an S write stands unless a higher lane of the
instruction has written it before (08 R145). -/
def Group.sKeep (g : Group) (l tok : Nat) (ws : List Wr) : List Wr :=
  ws.filter (fun w => !(decide (224 ≤ w.dest) && decide (w.dest < 256)) || decide (tget 0 g.sdone tok ≤ l))

/-- The highest lane that has written an S register of a token's instruction is noted. -/
def Group.sNote (g : Group) (tok : Nat) (ws : List Wr) : Group :=
  { g with sdone := ws.foldl (fun t w =>
      if 224 ≤ w.dest ∧ w.dest < 256 then tset t tok (max (tget 0 t tok) (w.lane + 1)) else t) g.sdone }

/-- Lane `l` leaves its wait: its results land at once, and it continues at the slot after its wait. -/
def Group.wake (g : Group) (clock l : Nat) (ws : List Wr) : Group :=
  let x := g.lane l
  let ws := g.sKeep l x.wtok ws
  let g := (g.push clock .now ws).sNote x.wtok ws
  let wsb := match g.outs.find? (fun o => o.tok = x.wtok) with | some o => o.wsb | none => 0
  let g := g.modLane l (fun x => Lane.land { x with
    wait := .none, pc := x.resume, fline := x.keepLine x.resume, wtok := 0,
    unw := x.unw.filter (fun u => !(ws.any (fun w => decide (w.dest = u.1)))) ++ ws.map (fun w => (w.dest, wsb)) })
  let g := g.finish x.wtok (1#32 <<< l)
  if g.lanes.any (fun y => decide (y.wtok = x.wtok)) then g else { g with sdone := tdel g.sdone x.wtok }

/-- The wait as DUMPR's item 0x104 shows it (19 R352). -/
def waitCode (w : Wait) : Nat :=
  match w with
  | .k i => 1 + 256 * i
  | .bar .. => 2
  | .acq false .. => 3
  | .tags false .. => 4
  | .tags true .. => 5
  | .acq true .. => 6
  | .launch .. => 7
  | .cjoin => 8
  | .sleep _ => 9
  | .chan .. => 10
  | .satisfied code _ => code
  | .none | .fetch _ | .pri _ | .moving _ | .walk _ | .woken => 0

/-- A halted lane stays parked, and its wake is recorded with its results (19 R349). -/
def Lane.record (x : Lane) (ws : List Wr) : Lane :=
  match x.wait with
  | .satisfied .. => x
  | w => { x with wait := .satisfied (waitCode w) (ws.map (fun r => (r.dest, r.val))) }

/-- The recorded wake of a lane takes effect. -/
def Group.takeWake (g : Group) (clock l : Nat) : Group :=
  match (g.lane l).wait with
  | .satisfied _ ws => g.wake clock l (ws.map (fun r => ⟨l, r.1, r.2, none, false⟩))
  | .acq .. | .bar .. | .chan .. | .none | .k _ | .tags .. | .launch .. | .cjoin | .sleep _ | .fetch _ | .pri _ | .moving _
  | .walk _ | .woken => g

/-- The plane of a team is being saved. -/
def State.savingTeam (s : State) (t : Team) : Bool := s.saving.any (fun j => decide (j.plane = 3 * t.core + t.plane))

/-- The cards of a team are being checkpointed: what the groups of its plane had issued is complete (21 R364 steps 2 to 4). -/
def State.checkpointing (s : State) (t : Team) : Bool := s.savingTeam t && s.groupsQuiet (3 * t.core + t.plane)

/-- A lane wakes. In a plane that is being saved it is recorded as woken (21 R366), and a halted lane's wake waits for its release
(19 R349). -/
def State.wakeLane (s : State) (gk l : Nat) (ws : List Wr) : State :=
  let saving := (s.team? (gk / 32)).any s.savingTeam
  s.setGroup gk ((s.group gk).withCkpt (fun g =>
    if g.halted.getLsbD l then g.modLane l (fun x => x.record ws)
    else
      let g := g.wake (s.cycleOf gk) l ws
      if saving then g.modLane l (fun x => { x with wait := .woken }) else g))

/-- The target that a wait watches. -/
def Wait.target (w : Wait) : Option Tgt :=
  match w with
  | .acq _ _ _ t .. | .bar _ _ t .. | .chan _ _ t .. => some t
  | .none | .k _ | .tags .. | .launch .. | .cjoin | .sleep _ | .fetch _ | .pri _ | .moving _ | .walk _ | .woken | .satisfied .. => Option.none

/-- A wait status and its predicate (15 R267). -/
def statusWr (l : Nat) (d c : RegCode) (st : Nat) : List Wr := wr1 l d (BitVec.ofNat 32 st) ++ wrP l c (decide (st = 0))

/-- What a wait on a home location finds now: `some (status writes, acquire)` when the lane wakes. -/
def State.homeWait (s : State) (l : Nat) (w : Wait) : Option (List Wr × Option Acq) :=
  match w with
  | .acq _ _ _ (.fab ..) .. | .bar _ _ (.fab ..) .. | .chan _ _ (.fab ..) .. => none
  | .acq _ va fpa t cmp wide b sc d c cell =>
    if cell && s.cellBroken t.block then some (statusWr l d c 1, none)
    else
      let ok := if wide then cmpHolds cmp (BitVec.ofNat 64 (s.rdAt t 0 8)) b
        else cmpHolds cmp (BitVec.ofNat 32 (s.rdAt t 0 4)) (b.setWidth 32)
      if ok then some (statusWr l d c 0, some ⟨sc, va.toNat, fpa, t⟩) else none
  | .bar va fpa t tok sc d c =>
    if barPassed (s.barPhase t) tok.toNat then some (statusWr l d c 0, some ⟨sc, va.toNat, fpa, t⟩)
    else if s.cellBroken t then some (statusWr l d c 1, none) else none
  | .chan va fpa t inst sc d c =>
    let n := (s.rdAt t 4 4 + 2 ^ 32 - inst.toNat) % 2 ^ 32
    if 1 ≤ n ∧ n < 2 ^ 31 then
      let st := s.rdAt t 8 4 % 4
      some (wr1 l d (BitVec.ofNat 32 (st * 256)) ++ wrP l c (decide (st = 0)), some ⟨sc, va.toNat + 4, fpa + 4, t.add 4⟩)
    else none
  | .none | .k _ | .tags .. | .launch .. | .cjoin | .sleep _ | .fetch _ | .pri _ | .moving _ | .walk _ | .woken | .satisfied .. => none

/-- The home re-evaluates the wait of one lane (15 R273). Its wake comes behind what its slice has served the core before (14 R246). -/
def State.evalHomeWait (s : State) (gk l : Nat) : State :=
  let w := ((s.group gk).lane l).wait
  match s.homeWait l w with
  | none => s
  | some (ws, acq) =>
    let s := match s.homeOf gk with
      | some (tm, pl, core) =>
        let s := match w.target with | some t => s.answerSlices core [t] | none => s
        (match acq with | some a => s.acquire core tm.func pl a | none => s)
      | none => s
    s.wakeLane gk l ws

/-- After every write at a home, the waits on home locations are re-evaluated. -/
def State.wakeMem (s : State) : State :=
  s.groups.foldl (fun s e =>
    (List.range e.2.lanes.length).foldl (fun s l =>
      match (e.2.lane l).wait with
      | .acq .. | .bar .. | .chan .. => s.evalHomeWait e.1 l
      | .none | .k _ | .tags .. | .launch .. | .cjoin | .sleep _ | .fetch _ | .pri _ | .moving _ | .walk _ | .woken | .satisfied .. => s) s) s

/-- The membership entry of a barrier is created or refreshed (R257): a ninth barrier displaces the least recently used
entry on which no lane of the group is parked, or the least recently used of all. -/
def Group.touchMember (g : Group) (clock : Nat) (va : DWord) (t : Tgt) (mgen : Nat) : Group :=
  let e : Member := ⟨va, t, BitVec.ofNat 32 mgen, clock + 8⟩
  let rest := g.members.filter (fun m => m.tgt ≠ t)
  if rest.length < 8 then { g with members := rest ++ [e] }
  else
    let parked (m : Member) : Bool := g.lanes.any (fun x => match x.wait with
      | .bar _ _ t' _ _ _ _ => decide (t' = m.tgt)
      | .acq .. | .chan .. | .none | .k _ | .tags .. | .launch .. | .cjoin | .sleep _ | .fetch _ | .pri _ | .moving _ | .walk _ | .woken | .satisfied .. => false)
    let free := rest.filter (fun m => !parked m)
    match argMax (fun m => - (m.used : Int)) (if free = [] then rest else free) with
    | none => { g with members := [e] }
    | some v => { g with members := rest.filter (fun m => m ≠ v) ++ [e] }

/-- BROKEN asked for at a cell of a peer, by one request of the group's core, which waits for a response slot where none is free. -/
def State.breakAway (s : State) (gk : Nat) (t : Tgt) (off : Nat) (op : HomeOp) : State :=
  match t, s.homeOf gk with
  | .fab v ma, some (tm, _, core) =>
    s.requestLater core tm.func v 4 (ma / 128 * 128) (opBytes (ma % 128 + off) op) (.cardCtr 3 0)
  | _, _ => s

/-- The cells that a kill of a group breaks (R257): the sync cells of its lanes' cell entries, and its listed barriers whose
MGEN still equals the entry's. -/
def State.breakCells (s : State) (gk : Nat) : State :=
  let g := s.group gk
  let s := g.lanes.foldl (fun s x => match x.wait with
    | .acq _ _ _ t _ _ _ _ _ _ true =>
      if t.isFab then s.breakAway gk t.block 12 (.atom 6 4 1 0 false) else s.setBroken t.block
    | .acq .. | .bar .. | .chan .. | .none | .k _ | .tags .. | .launch .. | .cjoin | .sleep _ | .fetch _ | .pri _ | .moving _ | .walk _ | .woken | .satisfied .. => s) s
  g.members.foldl (fun s m =>
    if m.tgt.isFab then s.breakAway gk m.tgt 0 (.barBreak m.mgen.toNat)
    else if s.barMgen m.tgt = m.mgen.toNat then s.setBroken m.tgt else s) s

end Sys2Proof.Machine
end

