-- ==== Sys2Proof/Machine/Report.lean ====
section
/-!
DEFINITION. What the device reports to the host and to the function: the host event ring (22 R382 to R384, 29 R474), the
queue error words (22 R381), freezing (19 R353), the fault queue (19 R336 to R338), and a team ended by firmware (01 R26).
-/
namespace Sys2Proof.Machine

/-- An entry of the event ring but for bytes 4 to 7: function, queue, kind, and detail as (offset, length, value). -/
def eventBytes (func q kind : Nat) (detail : List (Nat × Nat × Nat)) : List Byte :=
  let base := leBytes func 1 ++ leBytes q 1 ++ leBytes kind 2 ++ List.replicate 60 0
  detail.foldl (fun b (o, n, v) => b.take o ++ leBytes v n ++ b.drop (o + n)) base

/-- Bit `i` of an error word set. -/
def State.setErr (s : State) (func q i : Nat) : State :=
  let f := s.func func
  s.setFunc func { f with err := tput 0 f.err q (tget 0 f.err q ||| (1#32 <<< i)) }

/-- An entry enters the ring (R383). -/
def State.ringPut (s : State) (e : List Byte) : State :=
  let e := e.take 4 ++ leBytes s.ringTail.toNat 4 ++ e.drop 8
  let a := s.ringBase + 64 * (s.ringTail.toNat % s.ringLen)
  { s.homeWrite (.host a) e with ringTail := s.ringTail + 1 }

/-- The outcome of an event that finds the ring full (R382): OVERFLOW, and FROZEN and LOST of its queue. -/
def State.eventLost (s : State) (func q : Nat) : State :=
  let s := { s with ringOverflow := true }
  if q = 0xFF then s else (s.setErr func q 5).setErr func q 4

/-- An entry is posted, held while there is no ring, or lost (R382, R384). -/
def State.postEntry (s : State) (func q : Nat) (e : List Byte) : State :=
  if s.ringLen = 0 then
    if s.held.length < 256 then { s with held := s.held ++ [e] } else s.eventLost func q
  else if (s.ringTail - s.ringHead).toNat = s.ringLen then s.eventLost func q
  else s.ringPut e

/-- An event is posted (R382, R384). -/
def State.post (s : State) (func q kind : Nat) (detail : List (Nat × Nat × Nat)) : State :=
  s.postEntry func q (eventBytes func q kind detail)

/-- A migration block with nothing in hand. -/
def Mig.quiet (x : Mig) : Mig :=
  { x with phase := 0, todo := [], unacked := 0, manifest := none, map := [], owed := [], pieces := [], recv := [], kept := [] }

/-- WHERE of Table 19-3. -/
def whereOf (core gid : Nat) : Nat := core % 160 + core / 160 * 256 + gid * 512

/-- A group in run-ahead returns to its checkpoint (19 R342, R343). -/
def Group.restore (g : Group) : Group :=
  match g.ra with
  | none => g
  | some r => g.atCkpt r.ckpt

/-- A member of a domain is frozen or reset: it leaves the rekey barrier, and one further rekey is due (27 R458). -/
def State.memberLost (s : State) (func : Nat) : State :=
  let f := s.func func
  if f.domState ≠ 2 then s else
  let d := tget {} s.doms f.dom
  match d.rekey, f.vdn with
  | some l, some v => { s with doms := tput {} s.doms f.dom { d with rekey := some (l ++ [v]), again := true } }
  | _, _ => { s with agenda := s.agenda ++ [.rekeyStart f.dom] }

/-- A violation freezes the function (R353): no lane of it issues, a cohort of it that was chosen neither, run-ahead ends without a record (R343), and the event
goes to the host. A second violation changes nothing. The switch is told of the slots whose group it belongs to (26 R449). -/
def State.freeze (s : State) (func viol addr pc whr : Nat) : State :=
  let f := s.func func
  if f.frozen then s else
  let s := (s.setFunc func { f with frozen := true }).memberLost func
  let s := { s with biGo := [], groups := s.groups.map (fun (e : Nat × Group) =>
    if (s.team? (e.1 / 32)).any (fun (t : Team) => decide (t.func = func)) then (e.1, e.2.restore) else e) }
  let s := { s with cur := match s.cur with
    | some cu => if (s.team? (cu.gk / 32)).any (fun (t : Team) => decide (t.func = func)) then none else some cu
    | none => none }
  let mine (x : SwSlot) : Bool := match f.vdn with | some v => x.group.contains v | none => false
  let held := ((s.sw.slots.zipIdx.filter (fun (e : SwSlot × Nat) => mine e.1)).map (fun (e : SwSlot × Nat) => e.2)).reverse
  { s with agenda := held.map Instr.collectiveGroupBroken ++ s.agenda }.post func 0xFF 0x30
    [(16, 1, viol), (24, 8, addr), (32, 8, pc), (40, 4, whr)]

/-- The L1 lines of an FPA line of a function are dropped on every core (R336). -/
def State.dropEverywhere (s : State) (func line : Nat) : State :=
  { s with cores := s.cores.map (fun (c, x) => (c, x.dropLines (fun l => decide (l.func = func) && decide (l.line = line)))) }

/-- What writing a fault record came to. -/
inductive FqRes where
  | written (s : State)
  | full
  | violation (s : State)
  /-- a page of the queue is moving or asked of the host: the record is written later -/
  | wait (s : State)
  deriving DecidableEq, Repr

/-- The state of a record that has to wait. -/
def FqRes.waits : FqRes → Option State
  | .wait s => some s
  | .written _ | .full | .violation _ => none

/-- The number of the next record: FQTAIL and the records on their way to a peer. -/
def Func.fqNext (f : Func) : Word := f.fqtail + BitVec.ofNat 32 f.fqOut.length

/-- The fault queue is full, or there is none (R336). -/
def Func.fqFull (f : Func) : Bool := decide (f.fqlen = 0) || decide ((f.fqNext - f.fqhead).toNat = f.fqlen)

/-- The 512 bytes of a fault record (R337). -/
def fqBytes (seq lost kind npg stop ran whr fpc fva card : Nat) (pages : List PageEnt) : List Byte :=
  leBytes seq 4 ++ leBytes kind 1 ++ leBytes npg 1 ++ leBytes stop 1 ++ leBytes 0 1 ++ leBytes (min lost 65535) 2 ++ leBytes ran 2 ++
  leBytes whr 4 ++ leBytes fpc 8 ++ leBytes fva 8 ++ leBytes card 8 ++ leBytes 0 24 ++
  pages.flatMap (fun p => leBytes (p.page / 65536 * 65536 + p.kind) 8) ++ leBytes 0 (512 - 64 - 8 * pages.length)

/-- Record FQTAIL is written, and counted once every byte is accepted at its home (R336, R337). The bytes given exclude SEQ and LOST. -/
def State.fqWrite (s : State) (func : Nat) (kind npg stop ran whr fpc fva card : Nat) (pages : List PageEnt) : FqRes :=
  let f := s.func func
  if f.fqFull then .full else
  let va := f.fqbase.toNat + 512 * (f.fqNext.toNat % f.fqlen)
  let bytes := fqBytes f.fqNext.toNat f.fqLost kind npg stop ran whr fpc fva card pages
  let s := s.xlKeep func va
  match s.xlSpan func true .write va 512 with
  | .ok t =>
    (match t.tgt with
     | .loc _ | .host _ =>
       (match s.biSpan t.tgt 512 with
       | some s => .wait s
       | none =>
       let s := s.setFunc func { f with fqtail := f.fqtail + 1, fqLost := 0 }
       .written ((s.devWrite func t.tgt bytes).dropEverywhere func (t.fpa / 512)))
     | .fab v ma =>
       let tok := s.nextTok
       let s := ({ s with nextTok := tok + 1 }.setFunc func { f with fqOut := f.fqOut ++ [(tok, 4)], fqLost := 0 }).dropEverywhere func (t.fpa / 512)
       .written (s.devStore (whr % 256 + whr / 256 % 2 * 160) func v ⟨fqKey, tok, 0⟩ 5 [(ma, bytes)])
     | .notify .. => .violation (s.freeze func 8 va 0 whr))
  | .page1 | .access1 | .miss | .unbacked _ => .violation (s.freeze func 3 va 0 whr)
  | .access2 => .violation (s.freeze func 8 va 0 whr)
  | .page2 fpa => .wait (s.pageToHost func fpa).1
  | .moving _ => .wait s

/-- Records whose stores are all acknowledged are counted in order. -/
def fqCount : List (Nat × Nat) → Nat × List (Nat × Nat)
  | [] => (0, [])
  | (t, n) :: r => if n = 0 then let (k, l) := fqCount r; (k + 1, l) else (0, (t, n) :: r)

/-- A store of a fault record is acknowledged by its peer. -/
def State.fqAcked (s : State) (func tok : Nat) : State :=
  let f := s.func func
  let (k, l) := fqCount (f.fqOut.map (fun (e : Nat × Nat) => if e.1 = tok then (e.1, e.2 - 1) else e))
  s.setFunc func { f with fqOut := l, fqtail := f.fqtail + BitVec.ofNat 32 k }

/-- A record that cannot be written because the queue is full is dropped and counted by LOST (R338). -/
def State.fqDrop (s : State) (func : Nat) : State :=
  let f := s.func func
  s.setFunc func { f with fqLost := f.fqLost + 1 }

/-- One group of a team is ended at once: its cells break, and every lane leaves (R160, R257). -/
def State.endGroup (s : State) (gk : Nat) : State :=
  let s := s.breakCells gk
  let g := s.group gk
  s.setGroup gk { g with
    live := 0, k := [], halted := 0, members := [], ra := none, outs := [], sb := [], upper := 0, sflights := [], divs := [], sdone := [], fences := [],
    lanes := g.lanes.map (fun x => { x with wait := .none, flights := [], unw := [] }) }

/-- Firmware ends a team without saving it (R26): TEAMEND and LCAUSE of its queue, an event, and every group ends. -/
def State.endTeam (s : State) (tid lcause xpc xaddr gid : Nat) : State :=
  match s.team? tid with
  | none => s
  | some t =>
    let s := (s.groupsOf tid).foldl (fun s gk => s.endGroup gk) s
    let q := match s.grid? t.grid with | some g => g.queue | none => 0
    let f := s.func t.func
    let e := (tget 0 f.err q &&& 0xFFFF00FF#32) ||| (BitVec.ofNat 32 (lcause * 256)) ||| 4#32
    let s := s.setFunc t.func { f with err := tput 0 f.err q e }
    (s.post t.func q 0x12 [(16, 1, lcause), (24, 8, t.idx), (32, 8, xpc), (40, 8, xaddr), (48, 4, whereOf t.core gid)]).wakeMem

end Sys2Proof.Machine
end

