-- ==== Sys2Proof/Machine/Ops.lean ====
section
/-!
DEFINITION. How one instruction issues: the checks common to all of them in the order of 01 R24, its effect, the advance of
its lanes (01 R15, 02 R35 to R37, 08 R149, R151), taking a trap (01 R23 to R26, 19 R335), the return from one (19 R346),
reconvergence (09 R158 to R160), and run-ahead (19 R339 to R342).
-/
namespace Sys2Proof.Machine

/-! ### XSTATE (19 Table 19-2) -/

def Lane.sup (x : Lane) : Bool := x.xstate.getLsbD 0
def Lane.psup (x : Lane) : Bool := x.xstate.getLsbD 1
def Lane.chk (x : Lane) : Bool := x.xstate.getLsbD 2
def Lane.nest (x : Lane) : Bool := x.xstate.getLsbD 3
def Lane.raoff (x : Lane) : Bool := x.xstate.getLsbD 4

/-- XSTATE from its fields; bits [31:5] read 0. -/
def mkXstate (sup psup chk nest raoff : Bool) : Word :=
  0#27 ++ BitVec.ofBool raoff ++ BitVec.ofBool nest ++ BitVec.ofBool chk ++ BitVec.ofBool psup ++ BitVec.ofBool sup

/-! ### PC (01 Table 1-3) -/

/-- The PC after slot s: slot s + 1, or slot 0 of the next line (R15). -/
def nextPc (pc : DWord) : DWord :=
  if pc.toNat % 8 < 4 then pc + 1 else BitVec.ofNat 64 ((pc.toNat / 64 + 1) * 64)

/-- A value the PC may hold (R14). -/
def pcOk (pc : DWord) : Bool := decide (pc.extractLsb' 3 3 = 0) && decide ((pc.extractLsb' 0 3).toNat < 5)

/-- The target of BRA and CALL at `pc` (02 R41). -/
def branchTarget (pc : DWord) (off : BitVec 29) (slot : BitVec 3) : DWord :=
  (BitVec.ofNat 58 (pc.toNat / 64) + off.signExtend 58) ++ 0#3 ++ slot

/-- Where a lane goes on: past the wait that it is in, or at its PC. -/
def Lane.at (x : Lane) : DWord := if x.wait = .none then x.pc else x.resume

/-! ### Taking a trap and returning from one -/

/-- Entry to the handler (R25), with SUP = 0. -/
def Lane.trapEntry (x : Lane) (xvec : DWord) (cause : Nat) (addr : DWord) : Lane :=
  let pc := x.at
  { x.landAll with
    xpc := pc, xcause := BitVec.ofNat 32 cause, xaddr := addr,
    xstate := mkXstate true x.sup x.chk x.nest x.raoff,
    pc := xvec, fline := none, wait := .none, resume := 0, wtok := 0 }

/-- A trap inside the handler (19 R335), with NEST = 0: XPC, PSUP and SUP stay. -/
def Lane.nestEntry (x : Lane) (xvec : DWord) (cause : Nat) (addr : DWord) : Lane :=
  let pc := x.at
  { x.landAll with
    xnpc := pc, xcause := BitVec.ofNat 32 (0x10 + cause * 256), xaddr := addr,
    xstate := mkXstate x.sup x.psup x.chk true x.raoff,
    pc := xvec + 0x40, fline := none, wait := .none, resume := 0, wtok := 0 }

/-- The trap of one lane: to XVEC, to XVEC + 0x40 under NEST, or `none` where it goes to firmware (R26, R335). -/
def Lane.trap (x : Lane) (xvec : DWord) (cause : Nat) (addr : DWord) : Option Lane :=
  if xvec = 0 then none
  else if !x.sup then some (x.trapEntry xvec cause addr)
  else if !x.nest then some (x.nestEntry xvec cause addr)
  else none

/-- The target and mode of RTE (19 R346). -/
def Lane.rteTarget (x : Lane) : DWord := if x.nest then x.xnpc else x.xpc

/-- RTE in one lane, whose target R14 allows (19 R346); every write lands (02 R39). -/
def Lane.rte (x : Lane) : Lane :=
  { x.landAll with
    xstate := mkXstate (if x.nest then true else x.psup) x.psup x.chk false x.raoff,
    pc := x.rteTarget, fline := none }

/-- The S writes of the lanes of `m` become visible to them (02 R39). -/
def Group.sSee (g : Group) (m : BitVec 32) : Group :=
  { g with sflights := g.sflights.map (fun f =>
      { f with dues := f.dues.map (fun (e : Nat × Nat) => if m.getLsbD e.1 then (e.1, 0) else e) }) }

/-- Every scoreboard is 0 at handler entry (02 R39); an instruction that names none stays outstanding. -/
def Group.quiesce (g : Group) (m : BitVec 32) : Group :=
  { g.sSee m with outs := g.outs.filter (fun o => decide (o.wsb = 0)), sb := [], rbuf := [] }

/-- A register write of the lanes of `m` is outstanding. -/
def Group.writing (g : Group) (m : BitVec 32) : Bool :=
  (lanesOf m).any (fun l => (g.lane l).flights.any (fun f => f.due.isNone) || g.sflights.any (fun f => f.ofLane l))

/-- A trap of the lanes of `m` waits (02 R39): a register write of theirs is outstanding, or a scoreboard counts an instruction of the
group that is not a wait in which its lanes are parked (log entry 44). -/
def Group.unsettled (g : Group) (m : BitVec 32) : Bool :=
  g.outs.any (fun o => decide (o.wsb ≠ 0) && !g.waitsOn o) || g.writing m

/-- A trap of the lanes of `m`, each at its own PC, delivered to the handler, or to firmware, which ends the team. -/
def State.deliver (s : State) (gk : Nat) (m : BitVec 32) (cause : Nat) (addr : DWord) : State :=
  let g := s.group gk
  match s.team? (gk / 32) with
  | none => s
  | some t =>
    let xvec := (s.func t.func).xvec
    match (lanesOf m).find? (fun l => ((g.lane l).trap xvec cause addr).isNone) with
    | some l => s.endTeam (gk / 32) cause (g.lane l).at.toNat addr.toNat (gk % 32)
    | none =>
      let g := g.modLanes m (fun _ x => (x.trap xvec cause addr).getD x)
      s.setGroup gk { g.quiesce m with nextIssue := max g.nextIssue (s.cycle t.core + 1) }

/-! ### Reconvergence (09) -/

/-- The lanes parked on K k. -/
def Group.parkedOn (g : Group) (k : Nat) : BitVec 32 :=
  maskOf ((List.range 32).filter (fun l => decide ((g.lane l).wait = .k k) && g.live.getLsbD l))

/-- The release condition of K k (R158): every lane whose bit is set in it is parked on it. -/
def Group.kHolds (g : Group) (k : Nat) : Bool := decide (BitVec.ofNat 32 (tget 0 g.k k).toNat &&& ~~~(g.parkedOn k) = 0)

/-- A lane is released from its KWAIT: it goes on, or its release is recorded while it is halted (19 R349) or its plane is being
saved (R162, 21 R366). -/
def Lane.kFree (x : Lane) (halted saving : Bool) : Lane :=
  if halted then x.record []
  else { x with wait := if saving then .woken else .none, pc := x.resume, fline := x.keepLine x.resume }

/-- Every waiter of K k is released. -/
def Group.kRelease (g : Group) (saving : Bool) (k : Nat) : Group :=
  if g.kHolds k then g.modLanes (g.parkedOn k) (fun l x => x.kFree (g.halted.getLsbD l) saving) else g

/-- The release condition of every K register on which some lane is parked, at the end of a cycle (R159). -/
def Group.kEval (g : Group) (saving : Bool) : Group :=
  if g.lanes.any (fun x => match x.wait with
    | .k _ => true
    | .acq .. | .bar .. | .chan .. | .none | .tags .. | .launch .. | .cjoin | .sleep _ | .fetch _ | .pri _ | .moving _
    | .walk _ | .woken | .satisfied .. => false)
  then (List.range 12).foldl (fun g k => g.kRelease saving k) g else g

/-- Lanes leave their group by EXIT or a kill (R142, R160, 06 R120): their outstanding loads are discarded. -/
def Group.exitLanes (g : Group) (m : BitVec 32) : Group :=
  let live := g.live &&& ~~~m
  { g.modLanes m (fun _ x => { x with wait := .none, flights := [], unw := [] }) with
    live := live, halted := g.halted &&& ~~~m, upper := g.upper &&& ~~~m,
    sflights := sSettle (g.sflights.filter (fun f => !(lanesOf m).any f.ofLane)),
    k := (g.k.map (fun (e : Nat × Word) => (e.1, e.2 &&& ~~~m))).filter (fun e => decide (e.2 ≠ 0)),
    members := if live = 0 then [] else g.members }

/-! ### The context of an issuing instruction -/

/-- What an instruction sees when it issues. `act` is the cohort's lanes whose guard is 1 (02 R30). -/
structure Ctx where
  s : State
  gk : Nat
  g : Group
  t : Team
  cohort : BitVec 32
  act : BitVec 32
  pos : PairPos

def Ctx.tid (c : Ctx) : Nat := c.gk / 32
def Ctx.gid (c : Ctx) : Nat := c.gk % 32
def Ctx.lanes (c : Ctx) : List Nat := lanesOf c.act
def Ctx.core (c : Ctx) : Nat := c.t.core
def Ctx.plane (c : Ctx) : Nat := 3 * c.t.core + c.t.plane
def Ctx.fn (c : Ctx) : Func := c.s.func c.t.func
def Ctx.r1 (c : Ctx) (l : Nat) (r : RegCode) : Word := c.g.rd (c.s.cycle c.core) l r
def Ctx.r2 (c : Ctx) (l : Nat) (r : RegCode) : DWord := c.g.rd2 (c.s.cycle c.core) l r
def Ctx.r4 (c : Ctx) (l : Nat) (r : RegCode) : BitVec 128 := c.g.rd4 (c.s.cycle c.core) l r
def Ctx.rp (c : Ctx) (l : Nat) (r : RegCode) : Bool := c.g.rdP l r

/-- Operand B as a 32-bit value (R29). -/
def Ctx.src (c : Ctx) (l : Nat) (b : Src) : Word := match b with | .reg r => c.r1 l r | .imm v => v

/-- Operand B as a 64-bit value: IMM sign-extended (R29). -/
def Ctx.src2 (c : Ctx) (l : Nat) (b : Src) : DWord := match b with | .reg r => c.r2 l r | .imm v => v.signExtend 64

/-- The mode and the PC that the cohort shares (08 R149). -/
def Ctx.first (c : Ctx) : Lane := match lanesOf c.cohort with | l :: _ => c.g.lane l | [] => {}
def Ctx.sup (c : Ctx) : Bool := c.first.sup
def Ctx.pc (c : Ctx) : DWord := c.first.at

/-- A uniform operand holds one value in every active lane (08 R146); an S code and ZERO pass. -/
def Ctx.uniform1 (c : Ctx) (r : RegCode) : Bool :=
  decide (224 ≤ r.toNat) || (match c.lanes with | [] => true | l :: ls => ls.all (fun j => decide (c.r1 j r = c.r1 l r)))
def Ctx.uniform2 (c : Ctx) (r : RegCode) : Bool :=
  decide (224 ≤ r.toNat) || (match c.lanes with | [] => true | l :: ls => ls.all (fun j => decide (c.r2 j r = c.r2 l r)))

/-- The value of a uniform operand: that of the first active lane. -/
def Ctx.u1 (c : Ctx) (r : RegCode) : Word := match c.lanes with | l :: _ => c.r1 l r | [] => 0
def Ctx.u2 (c : Ctx) (r : RegCode) : DWord := match c.lanes with | l :: _ => c.r2 l r | [] => 0

/-- What an instruction does when it meets no cause: the state with its effects outside the issuing group's lanes, its
register writes and how they become visible, the transfers and waits of lanes, exits, the part that stays outstanding. -/
structure Eff where
  s : State
  wr : List Wr := []
  mode : WMode := .now
  jumps : List (Nat × DWord) := []
  parks : List (Nat × Wait) := []
  exits : BitVec 32 := 0
  /-- the token and the lanes in which the instruction is still outstanding -/
  out : Option (Nat × BitVec 32) := none
  /-- lanes whose destinations are poisoned (run-ahead) -/
  poison : List Nat := []
  /-- lanes of the issuing cohort that have trapped (TRAP, BPT) -/
  also : BitVec 32 := 0

/-- The outcome of an instruction's own part of an issue. -/
inductive Res where
  | ok (e : Eff)
  /-- a cause of Table 1-4 with its address -/
  | trap (cause : Nat) (addr : DWord)
  /-- TRAP and BPT: the active lanes trap, the others go on (06 R121) -/
  | trapAct (cause : Nat)
  /-- data accesses that do not translate: lane, address, why; with the effect on the other lanes -/
  | xl (acc : Acc) (bad : List (Nat × Nat × XRes)) (e : Eff)
  /-- the instruction does not issue yet -/
  | hold (s : State)
  /-- a violation (19 R353) -/
  | viol (code addr : Nat)

/-- What run-ahead makes of an instruction (19 R340, R341). -/
inductive RaKind where | run | load | suppress | ctl | stop
  deriving DecidableEq, Repr

/-- What an instruction adds to the common checks: registers of runs (`none`: a bad run), the exchanged sources, which never
raise STALL and whose marks are those of the last writes (09 R154), and its own ILLEGAL checks, which come before STALL (01 R24). -/
structure Opts where
  ra : RaKind := .run
  runs : Ctx → Option (List Opnd) := fun _ => some []
  noStall : List Opnd := []
  ill : Ctx → Bool := fun _ => false
  /-- PREF raises no ECC (06 R130) -/
  noEcc : Bool := false

/-- Scoreboards and issue delay allow the instruction (02 R35, R37). The upper slot of a pair waited with the lower one (R34). -/
def Group.ready (g : Group) (clock : Nat) (h : Hdr) (pos : PairPos) : Bool :=
  decide (pos = .upper) ||
  (decide (g.nextIssue ≤ clock) &&
   (List.range 6).all (fun k => !h.rsbm.getLsbD k || decide (tget 0 g.sb k = 0)) &&
   (decide (h.wsb = 0) || decide (tget 0 g.sb (h.wsb.toNat - 1) < 63)))

/-- A pair may issue: both masks are clear, and both counters have room (02 R34, R37). -/
def Group.pairReady (g : Group) (clock : Nat) (lo up : Hdr) : Bool :=
  g.ready clock lo .lower && g.ready clock up .single &&
  (decide (up.wsb = 0) || decide (tget 0 (g.sbInc lo.wsb.toNat).sb (up.wsb.toNat - 1) < 63))

/-- The guard of a lane (02 R30). -/
def Group.guard (g : Group) (l : Nat) (h : Hdr) : Bool := xor (g.rdP l (h.pg.setWidth 8)) h.negp

/-- The skip counters after an issue of `cohort` (08 R149). -/
def Group.skips (g : Group) (clock : Nat) (cohort : BitVec 32) : Group :=
  { g with lanes := g.lanes.mapIdx (fun l x =>
      if cohort.getLsbD l then { x with skip := 0 }
      else if g.live.getLsbD l && !g.halted.getLsbD l && decide (x.wait = .none) then
        { x with skip := min (x.skip + 1) 16, skipAt := if x.skip = 15 then clock else x.skipAt }
      else { x with skip := 0 }) }

/-- What an issue of the lanes of `m` leaves of the choice of cohorts (08 R149, R151). -/
def Group.chosen (g : Group) (clock : Nat) (m : BitVec 32) : Group :=
  { g.skips clock m with yielded := 0, upper := g.upper &&& ~~~m }

/-- The codes that the instruction reads and writes, its guard predicate among those read. -/
def readCodes (h : Hdr) (ops : List Opnd) : List Nat :=
  opCodes (rp (h.pg.setWidth 8)) ++ (ops.filter (fun o => !o.write)).flatMap opCodes
def writeCodes (ops : List Opnd) : List Nat := (ops.filter (fun o => o.write)).flatMap opCodes

/-- Poison after an instruction of run-ahead (19 R340): results of poisoned sources, and destinations of faulting loads. -/
def Group.setPoison (g : Group) (rds wrs : List Nat) (act : BitVec 32) (forced : List Nat) : Group :=
  if g.ra.isNone then g else
  let bad (x : Lane) (l : Nat) : Bool := forced.contains l || rds.any (fun c => x.poison.contains c)
  let own := wrs.filter (fun c => decide (c < 224) || decide (256 ≤ c))
  let shared := wrs.filter (fun c => decide (224 ≤ c) && decide (c < 256))
  let anyBad := (lanesOf act).any (fun l => bad (g.lane l) l)
  { g with lanes := g.lanes.mapIdx (fun l x =>
      let keep := x.poison.filter (fun c => !((act.getLsbD l && own.contains c) || (decide (act ≠ 0) && shared.contains c)))
      { x with poison := keep ++ (if act.getLsbD l && bad x l then own else []) ++ (if anyBad then shared else []) }) }

/-- The advance of one lane of the issuing cohort: program counter, declared time, wait, landing (01 R15, 02 R35 to R38). -/
def Lane.advance (x : Lane) (h : Hdr) (pos : PairPos) (e : Eff) (l : Nat) : Lane :=
  let nx := match tfind e.jumps l with | some t => t | none => nextPc x.at
  let jumped := (tfind e.jumps l).isSome
  let own := e.wr.filter (fun w => w.lane = l)
  let kept := x.unw.filter (fun u => !(own.any (fun w => decide (w.dest = u.1))))
  let more := match e.mode with
    | .fixed _ => []
    | .now | .pend .. => own.map (fun w => (w.dest, h.wsb.toNat))
  let x : Lane := match tfind e.parks l with
    | some w => { x with wait := w, resume := nx, wtok := match e.out with | some o => o.1 | none => 0 }
    | none =>
      if x.wait = .none then
        { x with pc := nx, fline := if jumped then none else x.keepLine nx }
      else { x with resume := nx }
  Lane.land { x with dt := if pos = .lower then x.dt else x.dt + 1 + h.stall.toNat, unw := kept ++ more }

/-- The advance of the issuing cohort. What an instruction waits for by its RSBM has been waited for; a pair has waited for both masks
before its lower slot (02 R34). -/
def Group.advance (g : Group) (h : Hdr) (pos : PairPos) (cohort : BitVec 32) (e : Eff) : Group :=
  (if pos = .single then g.waited cohort h.rsbm else g).modLanes cohort (fun l x => x.advance h pos e l)

/-- The lanes of a pair that issue its upper slot with the lower one: those that the lower slot has left unparked (log entry 51). -/
def Group.goesUp (g : Group) (pos : PairPos) (cohort : BitVec 32) : BitVec 32 :=
  if pos = .lower then maskOf ((lanesOf cohort).filter (fun l => g.live.getLsbD l && decide ((g.lane l).wait = .none))) else 0

/-- The state after the instruction has issued with effect `e`. -/
def State.commit (c : Ctx) (f : Info) (e : Eff) : State :=
  let s := e.s
  let g := s.group c.gk
  let g := g.setPoison (readCodes f.h f.opnds) (writeCodes f.opnds) c.act e.poison
  let now := s.cycle c.core
  let g := g.push now e.mode e.wr
  let g := match e.parks, e.out with
    | _ :: _, some o => g.sNote o.1 e.wr
    | _, _ => g
  let g := g.advance f.h c.pos c.cohort e
  let g : Group := match e.out with
    | some (tok, m) => { g.sbInc f.h.wsb.toNat with outs := g.outs ++ [{ tok := tok, wsb := f.h.wsb.toNat, lanes := m }] }
    | none => g
  let m := c.cohort ||| e.also
  let turn (g : Group) : Group := (g.sLand now).kEval (s.savingTeam c.t)
  let g := if e.exits = 0 then g else g.exitLanes e.exits
  let up := (turn g).goesUp c.pos c.cohort
  let g : Group := if up ≠ 0 then { turn g with upper := up } else
    turn { g.chosen s.clock m with nextIssue := now + 1 + f.h.stall.toNat, yielded := if f.h.yld then m else 0 }
  let g := match g.ra with
    | some r => if up ≠ 0 then g else
      { g with ra := some { r with ran := r.ran + 1, stop := if 511 ≤ r.ran then some 0 else r.stop } }
    | none => g
  let s := s.setGroup c.gk g
  let pipe := c.gid % 4
  let k := s.core c.core
  let s := s.setCore c.core { k with yld := if f.h.yld then tset k.yld pipe c.gk else tdel k.yld pipe }
  { s with cur := if up ≠ 0 then some ⟨c.gk, up, .upper⟩ else none }

/-- Run-ahead stops for a reason of Table 19-4; the stopping instruction has no effect (19 R341). -/
def State.raStop (s : State) (gk reason : Nat) : State :=
  let g := s.group gk
  match g.ra with
  | none => s
  | some r =>
    { s.setGroup gk { g with ra := some { r with stop := some reason } } with cur := none }

/-- A cause of the instruction: a stop of run-ahead, or the trap of every lane of the cohort (02 R45). An instruction that traps is no
issue of its pipe: what 12 R208 calls the pipe's previous issue stays the one before (DESIGN CHOICE, log entry 52). -/
def Ctx.raise (c : Ctx) (m : BitVec 32) (cause : Nat) (addr : DWord) : State :=
  if c.g.ra.isSome then c.s.raStop c.gk 3
  else if c.g.unsettled m then { c.s with cur := none }
  else
    let s := c.s.deliver c.gk m cause addr
    { s.setGroup c.gk ((s.group c.gk).chosen s.clock c.cohort) with cur := none }

/-- The rank of a translation failure in the order of 01 R24. -/
def xRank : XRes → Nat
  | .unbacked _ => 0
  | .miss => 1
  | .page1 => 2
  | .access1 => 3
  | .page2 _ => 4
  | .access2 => 5
  | .moving _ => 6
  | .ok _ => 7

/-- A walk of a page for a function. -/
def WalkReq.isFor (r : WalkReq) (func page : Nat) : Bool := decide (r.func = func) && decide (r.page = page)

/-- A die's walks for a page, queued or under way. -/
def Die.walksFor (d : Die) (func page : Nat) : Bool := (d.walkq ++ d.walking).any (fun r => r.isFor func page)

/-- A miss of an agent: it enters its function's queue of 64 entries on a die, or joins the walk of its page that is there (20 R360). -/
def State.queueWalk (s : State) (die func page : Nat) (agent : Option Nat) (one : Bool := false) : State :=
  let d := s.die die
  let join (l : List WalkReq) : List WalkReq := l.map (fun r =>
    if r.isFor func page then { r with agents := if r.agents.contains agent then r.agents else r.agents ++ [agent], one := r.one && one } else r)
  if d.walksFor func page then s.setDie die { d with walkq := join d.walkq, walking := join d.walking }
  else if 64 ≤ (d.walkq.filter (fun q => q.func = func)).length then s
  else s.setDie die { d with walkq := d.walkq ++ [⟨func, page, [agent], one⟩] }

/-- The walk results that a faulting access has used are dropped: every fault walks again (20 R359). -/
def State.dropWfail (s : State) (core func : Nat) (vas : List Nat) : State :=
  let k := s.core core
  s.setCore core { k with wfail := k.wfail.filter (fun w =>
    !(decide (w.func = func) && vas.any (fun va => decide (w.page = bits va 54 16)))) }

/-- A page enters a batch once, in the order of first fault (19 R340). -/
def addPage (l : List PageEnt) (p : PageEnt) : List PageEnt :=
  if l.any (fun q => decide (q.page = p.page)) then l else l ++ [p]

/-- Faulting pages of an instruction: stage-1 pages by virtual address, stage-2 pages by function-physical address. -/
def badPages (kind : Nat) (bad : List (Nat × Nat × XRes)) (s1 s2 : List PageEnt) : List PageEnt × List PageEnt :=
  bad.foldl (fun (a : List PageEnt × List PageEnt) (b : Nat × Nat × XRes) => match b.2.2 with
    | .page1 => (addPage a.1 ⟨b.2.1 / 65536 * 65536, kind⟩, a.2)
    | .page2 f => (a.1, addPage a.2 ⟨f / 65536 * 65536, kind⟩)
    | .ok _ | .access1 | .access2 | .moving _ | .miss | .unbacked _ => a) (s1, s2)

/-- The plane of the core that may hold a checkpoint: an empty one, or one that holds checkpoints (19 R339). -/
def State.ckptPlane (s : State) (core : Nat) : Option Nat :=
  (List.range 3).find? (fun p =>
    decide ((s.plane (3 * core + p)).teams = []) ||
    s.groups.any (fun (e : Nat × Group) => match e.2.ra, s.team? (e.1 / 32) with
      | some r, some t => decide (t.core = core) && decide (r.plane = p) && decide (r.stop ≠ some 5)
      | _, _ => false))

def Acc.pageKind : Acc → Nat | .read => 1 | .write => 2 | .fetch => 3

/-- PAGE1 or PAGE2 outside run-ahead (19 R339): the group is checkpointed and runs ahead, or the batch of one page is
delivered at once. -/
def Ctx.startRunAhead (c : Ctx) (acc : Acc) (bad : List (Nat × Nat × XRes)) : State × Bool :=
  let hit := bad.filter (fun b => match b.2.2 with
    | .page1 | .page2 _ => true
    | .ok _ | .access1 | .access2 | .moving _ | .miss | .unbacked _ => false)
  let lowest := hit.head?
  let p1 := hit.any (fun b => decide (b.2.2 = .page1))
  let fva := match hit.find? (fun b => !p1 || decide (b.2.2 = .page1)) with | some b => b.2.1 | none => 0
  let may := match lowest with | some b => !(c.g.lane b.1).sup && !(c.g.lane b.1).raoff | none => false
  let (s1, s2) := badPages acc.pageKind (if may then [] else hit.filter (fun b => b.2.1 = fva)) [] []
  let ck := c.g.ckpt
  let ra (pl : Nat) (stop : Option Nat) : RunAhead :=
    ⟨ck, pl, 0, s1, s2, c.pc, BitVec.ofNat 64 fva, c.cohort, p1, stop, none⟩
  match (if may then c.s.ckptPlane c.core else none) with
  | some pl => (c.s.setGroup c.gk { c.g with ra := some (ra pl none) }, true)
  | none =>
    let (s1, s2) := badPages acc.pageKind (hit.filter (fun b => b.2.1 = fva)) [] []
    let r : RunAhead := { ra 0 (some 5) with s1pages := s1, s2pages := s2 }
    ({ c.s.setGroup c.gk { c.g with ra := some r } with cur := none }, false)

/-- Accesses that fault in run-ahead add their pages; a thirty-third stops it (19 R340, R341). -/
def State.raFault (s : State) (gk : Nat) (acc : Acc) (bad : List (Nat × Nat × XRes)) : Option State :=
  let g := s.group gk
  match g.ra with
  | none => some s
  | some r =>
    let (s1, s2) := badPages acc.pageKind bad r.s1pages r.s2pages
    if 32 < s1.length + s2.length then none
    else some (s.setGroup gk { g with ra := some { r with s1pages := s1, s2pages := s2 } })

/-- The lanes of a cohort wait at the instruction that they are about to issue; lanes that the lower slot of a pair has parked stay
in that wait. -/
def Group.waitAt (g : Group) (m : BitVec 32) (w : Wait) : Group :=
  g.modLanes m (fun _ x => if x.wait = .none then { x with wait := w, resume := x.pc, skip := 0 } else x)

/-- Data accesses that do not translate, outside the choice of run-ahead: walks to make, refusals, violations. -/
def Ctx.xlStop (c : Ctx) (bad : List (Nat × Nat × XRes)) : Host.Outcome State Fault Refusal :=
  let vas := bad.map (fun b => b.2.1)
  match bad.foldl (fun (m : Option (Nat × Nat × XRes)) b => match m with
      | none => some b
      | some a => if xRank b.2.2 < xRank a.2.2 then some b else some a) none with
  | none => .next { c.s with cur := none }
  | some (_, va, r) =>
    match r with
    | .unbacked ma => .fault (.unbacked ma)
    | .miss =>
      let miss := bad.filter (fun b => decide (b.2.2 = .miss))
      .next { miss.foldl (fun s b => s.queueWalk (c.core / 160) c.t.func (bits b.2.1 54 16) (some c.core)) c.s with cur := none }
    | .access1 => .next (({ c with s := c.s.dropWfail c.core c.t.func vas }).raise c.cohort 7 (BitVec.ofNat 64 va))
    | .access2 =>
      if c.g.unsettled c.cohort then .next { c.s with cur := none } else
      .next { (c.s.dropWfail c.core c.t.func vas).freeze c.t.func 8 va c.pc.toNat (whereOf c.core c.gid) with cur := none }
    | .moving f =>
      .next { (c.s.dropWfail c.core c.t.func vas).setGroup c.gk (c.g.waitAt c.cohort (.moving f)) with cur := none }
    | .ok _ | .page1 | .page2 _ => .next { c.s with cur := none }

/-- A memory instruction or a command waits: for the action of an acquire of its lanes at a peer (14 R242), or for a PFENCE of its group (25
R429). -/
def Ctx.behind (c : Ctx) (f : Info) : Bool :=
  match f.cls with
  | .mem | .mat | .eng | .net => (c.s.core c.core).acquiring c.gk c.act || (decide (f.cls ≠ .mat) && decide (c.g.fences ≠ []))
  | .int | .fp | .ctl | .grp | .sys => false

/-- One instruction issues. The checks come in the order of 01 R24: ILLEGAL, STALL, ECC, then those of the instruction. -/
def issue (f : Info) (o : Opts) (body : Ctx → Res) (s : State) : Host.Outcome State Fault Refusal :=
  match s.cur with
  | none => .next s
  | some cu =>
    match s.team? (cu.gk / 32) with
    | none => .next { s with cur := none }
    | some t =>
      let g := s.group cu.gk
      if !g.ready (s.cycle t.core) f.h cu.pos then .next { s with cur := none } else
      let act := maskOf ((lanesOf cu.cohort).filter (fun l => g.guard l f.h))
      let c : Ctx := ⟨s, cu.gk, g, t, cu.cohort, act, cu.pos⟩
      if c.behind f then .next { s with cur := none } else
      let ops := match o.runs c with | some r => some (f.opnds ++ r) | none => none
      match ops with
      | none => .next (c.raise c.cohort 1 0)
      | some ops =>
        if !(ops.all (opInCount t.lrec.regs)) || (decide (f.cls = .sys) && !c.sup) || o.ill c then .next (c.raise c.cohort 1 0)
        else if (lanesOf c.cohort).any (fun l => (g.lane l).chk &&
            (readCodes f.h (o.noStall.foldl List.erase ops)).any (fun r => g.stale f.h l r)) then
          .next (c.raise c.cohort 3 0)
        else
          let ecc := if o.noEcc then none else c.lanes.findSome? (fun l =>
            (readCodes f.h (o.noStall.foldl List.erase ops)).findSome? (fun r => g.markOf (s.cycle t.core) l r))
          match ecc with
          | some a => .next (c.raise c.cohort 0x0E a)
          | none =>
            let inRa := g.ra.isSome
            let poisoned := (lanesOf c.cohort).any (fun l => (readCodes f.h ops).any (fun r => (g.lane l).poison.contains r))
            if inRa && decide (o.ra = .stop) then .next (s.raStop cu.gk 4)
            else if inRa && decide (o.ra = .ctl) && poisoned then .next (s.raStop cu.gk 2)
            else
              let f' := { f with opnds := ops }
              let idle : State := State.commit c { f with opnds := ops.filter (fun x => !x.write) } { s := s }
              match body c with
              | .ok e =>
                if inRa && decide (o.ra = .suppress) then .next idle else .next (State.commit c f' e)
              | .trap cause a => .next (c.raise c.cohort cause a)
              | .trapAct cause =>
                if inRa then .next (s.raStop cu.gk 4)
                else if g.unsettled act then .next { s with cur := none }
                else
                  let s' := s.deliver cu.gk act cause 0
                  let rest := c.cohort &&& ~~~act
                  .next (State.commit { c with s := s', g := s'.group cu.gk, cohort := rest, act := 0 } f' { s := s', also := act })
              | .hold s' =>
                if inRa && decide (o.ra = .suppress) then .next idle else .next { s' with cur := none }
              | .viol code a =>
                if inRa then .next (s.raStop cu.gk 3)
                else if g.unsettled c.cohort then .next { s with cur := none }
                else .next { s.freeze t.func code a c.pc.toNat (whereOf c.core c.gid) with cur := none }
              | .xl acc bad e =>
                let has (p : XRes → Bool) : Bool := bad.any (fun b => p b.2.2)
                let soft := !has (fun r => match r with
                  | .access1 | .access2 | .moving _ | .miss | .unbacked _ => true
                  | .ok _ | .page1 | .page2 _ => false)
                if inRa && soft then
                  let vas := bad.map (fun b => b.2.1)
                  match (s.dropWfail c.core t.func vas).raFault cu.gk acc bad with
                  | none => .next (s.raStop cu.gk 1)
                  | some s' =>
                    if o.ra = .load then
                      .next (State.commit c f' { e with
                        s := (e.s.setGroup cu.gk { e.s.group cu.gk with ra := (s'.group cu.gk).ra }).dropWfail c.core t.func vas,
                        poison := e.poison ++ bad.map (fun b => b.1) })
                    else .next (State.commit c { f with opnds := ops.filter (fun x => !x.write) } { s := s' })
                else if inRa && !has (fun r => match r with
                    | .miss | .unbacked _ => true
                    | .ok _ | .page1 | .access1 | .page2 _ | .access2 | .moving _ => false) &&
                    has (fun r => match r with
                    | .access1 | .access2 => true
                    | .ok _ | .page1 | .page2 _ | .moving _ | .miss | .unbacked _ => false) then
                  .next ((s.dropWfail c.core t.func (bad.map (fun b => b.2.1))).raStop cu.gk 3)
                else if inRa && !has (fun r => match r with
                    | .miss | .unbacked _ => true
                    | .ok _ | .page1 | .access1 | .page2 _ | .access2 | .moving _ => false) then
                  c.xlStop (bad.filter (fun b => match b.2.2 with
                    | .moving _ => true
                    | .ok _ | .page1 | .access1 | .page2 _ | .access2 | .miss | .unbacked _ => false))
                else if !inRa && bad.any (fun b => decide (2 ≤ xRank b.2.2)) && !(bad.any (fun b => decide (xRank b.2.2 < 2))) &&
                    (match bad.foldl (fun (m : Nat) (b : Nat × Nat × XRes) => min m (xRank b.2.2)) 9 with | 2 => true | 4 => true | _ => false) then
                  let c : Ctx := { c with s := s.dropWfail c.core t.func ((bad : List (Nat × Nat × XRes)).map (fun (b : Nat × Nat × XRes) => b.2.1)) }
                  .next (c.startRunAhead acc bad).1
                else c.xlStop bad

/-! ### Shapes of instructions -/

/-- An instruction that computes register results of fixed latency in each active lane from that lane's sources. -/
def alu (i : Instr) (f : Ctx → Nat → List Wr) (s : State) : Host.Outcome State Fault Refusal :=
  match i.info with
  | none => .next s
  | some inf => issue inf {} (fun c => .ok { s := c.s, wr := c.lanes.flatMap (f c), mode := .fixed inf.lat }) s

/-- `issue` of an instruction by its own fields. -/
def issueI (i : Instr) (o : Opts) (body : Info → Ctx → Res) (s : State) : Host.Outcome State Fault Refusal :=
  match i.info with
  | none => .next s
  | some inf => issue inf o (body inf) s

/-- The next token of an outstanding instruction. -/
def State.newTok (s : State) : State := { s with nextTok := s.nextTok + 1 }

end Sys2Proof.Machine
end

