-- ==== Sys2Proof/Machine/Fp.lean ====
section
/-!
DEFINITION. Floating-point and conversion instructions (05, MAJ 0x40 to 0x5B). Each result is the exact one, rounded once
(R96); none of them traps on a value.
-/
namespace Sys2Proof.Machine

/-- The value of a binary32 operand (R79, R95). -/
def f32v (w : Word) : Xv := fp32.value w.toNat

/-- RoundTo(FP32, mode, x). -/
def to32 (m : Mode) (x : Xv) : Word := BitVec.ofNat 32 (roundTo fp32 false m x)

/-- The number of a kind of Table 5-1's `.f32`, `.f16`, `.bf16`. -/
def fkFmt : FKind → Fmt | .f32 => fp32 | .f16 => fp16 | .bf16 => bf16

/-! ### Addition, multiplication, fused multiply-add (R100) -/

def faddVal (m : Mode) (sub : Bool) (a b : Word) : Word :=
  to32 m ((f32v a).add (decide (m = .rd)) (if sub then (f32v b).neg else f32v b))

def fmulVal (m : Mode) (a b : Word) : Word := to32 m ((f32v a).mul (f32v b))

def ffmaVal (m : Mode) (np nc : Bool) (a b c : Word) : Word :=
  let p := (f32v a).mul (f32v b)
  to32 m ((if np then p.neg else p).add (decide (m = .rd)) (if nc then (f32v c).neg else f32v c))

def execFadd (h : Hdr) (rm : Rm) (sub : Bool) (d a : RegCode) (b : Src) (s : State) : Host.Outcome State Fault Refusal :=
  alu (.fadd h rm sub d a b) (fun c l => wr1 l d (faddVal (rmMode rm) sub (c.r1 l a) (c.src l b))) s

def execFmul (h : Hdr) (rm : Rm) (d a : RegCode) (b : Src) (s : State) : Host.Outcome State Fault Refusal :=
  alu (.fmul h rm d a b) (fun c l => wr1 l d (fmulVal (rmMode rm) (c.r1 l a) (c.src l b))) s

def execFfma (h : Hdr) (rm : Rm) (np nc : Bool) (d a : RegCode) (b : Src) (cc : RegCode) (s : State) :
    Host.Outcome State Fault Refusal :=
  alu (.ffma h rm np nc d a b cc) (fun c l =>
    wr1 l d (ffmaVal (rmMode rm) np nc (c.r1 l a) (c.src l b) (c.r1 l cc))) s

/-! ### Minimum, maximum, comparison, class (R101 to R103) -/

def fminmaxVal (isMax : Bool) (a b : Word) : Word := BitVec.ofNat 32 (minmaxCode fp32 isMax a.toNat b.toNat)

def execFmin (h : Hdr) (d a : RegCode) (b : Src) (s : State) : Host.Outcome State Fault Refusal :=
  alu (.fmin h d a b) (fun c l => wr1 l d (fminmaxVal false (c.r1 l a) (c.src l b))) s

def execFmax (h : Hdr) (d a : RegCode) (b : Src) (s : State) : Host.Outcome State Fault Refusal :=
  alu (.fmax h d a b) (fun c l => wr1 l d (fminmaxVal true (c.r1 l a) (c.src l b))) s

/-- Table 5-2. -/
def fcmpHolds (m : FCmp) (a b : Word) : Bool :=
  let x := f32v a
  let y := f32v b
  let un := x.isNan || y.isNan
  let c := x.cmp y
  match m with
  | .lt => !un && decide (c < 0)
  | .eq => !un && decide (c = 0)
  | .le => !un && decide (c ≤ 0)
  | .gt => !un && decide (0 < c)
  | .ne => !un && decide (c ≠ 0)
  | .ge => !un && decide (0 ≤ c)
  | .num => !un
  | .nan => un
  | .ltu => un || decide (c < 0)
  | .equ => un || decide (c = 0)
  | .leu => un || decide (c ≤ 0)
  | .gtu => un || decide (0 < c)
  | .neu => un || decide (c ≠ 0)
  | .geu => un || decide (0 ≤ c)

def execFsetp (h : Hdr) (m : FCmp) (d a : RegCode) (b : Src) (s : State) : Host.Outcome State Fault Refusal :=
  alu (.fsetp h m d a b) (fun c l => wrP l d (fcmpHolds m (c.r1 l a) (c.src l b))) s

/-- The class bit of a code (R103). -/
def classBit (f : Fmt) (code : Nat) : Nat :=
  let neg := decide (f.sign ≤ code)
  let mag := code % f.sign
  match f.value code with
  | .nan => if bitOf code (f.t - 1) then 9 else 8
  | .inf _ => if neg then 0 else 7
  | .fin .. =>
    if mag = 0 then (if neg then 3 else 4)
    else if mag < 2 ^ f.t then (if neg then 2 else 5)
    else (if neg then 1 else 6)

def fclassVal (k : FKind) (a : Word) : Word :=
  let code := match k with | .f32 => a.toNat | .f16 | .bf16 => a.toNat % 65536
  1#32 <<< classBit (fkFmt k) code

def execFclass (h : Hdr) (f : FKind) (d a : RegCode) (s : State) : Host.Outcome State Fault Refusal :=
  alu (.fclass h f d a) (fun c l => wr1 l d (fclassVal f (c.r1 l a))) s

/-! ### Correctly rounded functions (R104, R105) -/

def fdivVal (a b : Word) : Word := to32 .rn ((f32v a).div (f32v b))

def fsqrtVal (a : Word) : Word :=
  match f32v a with
  | .nan => 0x7FC00000
  | .inf neg => if neg then 0x7FC00000 else a
  | .fin neg n d => if n = 0 then a else if neg then 0x7FC00000 else to32 .rn (sqrtQ n d)

def frcpVal (a : Word) : Word := to32 .rn ((Xv.fin false 1 1).div (f32v a))

def frsqVal (a : Word) : Word :=
  match f32v a with
  | .nan => 0x7FC00000
  | .inf neg => if neg then 0x7FC00000 else 0
  | .fin neg n d => if n = 0 then to32 .rn (.inf neg) else if neg then 0x7FC00000 else to32 .rn (sqrtQ d n)

def fex2Val (a : Word) : Word :=
  match f32v a with
  | .nan => 0x7FC00000
  | .inf neg => if neg then 0 else 0x7F800000
  | .fin neg n d =>
    if n = 0 then 0x3F800000
    else if neg && decide (150 * d ≤ n) then 0
    else if !neg && decide (128 * d ≤ n) then 0x7F800000
    else BitVec.ofNat 32 (exp2Code neg n d)

def flg2Val (a : Word) : Word :=
  match f32v a with
  | .nan => 0x7FC00000
  | .inf neg => if neg then 0x7FC00000 else 0x7F800000
  | .fin neg n d => if n = 0 then 0xFF800000 else if neg then 0x7FC00000 else BitVec.ofNat 32 (log2Code n d)

/-- sin(πa); the zeros at the integers take the sign of a. -/
def fsinpiVal (a : Word) : Word :=
  match f32v a with
  | .nan | .inf _ => 0x7FC00000
  | .fin neg n d => BitVec.ofNat 32 (sinPiQ neg neg n d)

/-- cos(πa) = sin(π(|a| + 1/2)); every zero is +0. -/
def fcospiVal (a : Word) : Word :=
  match f32v a with
  | .nan | .inf _ => 0x7FC00000
  | .fin _ n d => BitVec.ofNat 32 (sinPiQ false false (2 * n + d) (2 * d))

def ftanhVal (a : Word) : Word :=
  match f32v a with
  | .nan => 0x7FC00000
  | .inf neg => if neg then 0xBF800000 else 0x3F800000
  | .fin neg n d => if n = 0 then a else BitVec.ofNat 32 (tanhCode n d + (if neg then 2 ^ 31 else 0))

def execFdiv (h : Hdr) (d a : RegCode) (b : Src) (s : State) : Host.Outcome State Fault Refusal :=
  alu (.fdiv h d a b) (fun c l => wr1 l d (fdivVal (c.r1 l a) (c.src l b))) s

def execFsqrt (h : Hdr) (d a : RegCode) (s : State) : Host.Outcome State Fault Refusal :=
  alu (.fsqrt h d a) (fun c l => wr1 l d (fsqrtVal (c.r1 l a))) s

def execFrcp (h : Hdr) (d a : RegCode) (s : State) : Host.Outcome State Fault Refusal :=
  alu (.frcp h d a) (fun c l => wr1 l d (frcpVal (c.r1 l a))) s

def execFrsq (h : Hdr) (d a : RegCode) (s : State) : Host.Outcome State Fault Refusal :=
  alu (.frsq h d a) (fun c l => wr1 l d (frsqVal (c.r1 l a))) s

def execFex2 (h : Hdr) (d a : RegCode) (s : State) : Host.Outcome State Fault Refusal :=
  alu (.fex2 h d a) (fun c l => wr1 l d (fex2Val (c.r1 l a))) s

def execFlg2 (h : Hdr) (d a : RegCode) (s : State) : Host.Outcome State Fault Refusal :=
  alu (.flg2 h d a) (fun c l => wr1 l d (flg2Val (c.r1 l a))) s

def execFsinpi (h : Hdr) (d a : RegCode) (s : State) : Host.Outcome State Fault Refusal :=
  alu (.fsinpi h d a) (fun c l => wr1 l d (fsinpiVal (c.r1 l a))) s

def execFcospi (h : Hdr) (d a : RegCode) (s : State) : Host.Outcome State Fault Refusal :=
  alu (.fcospi h d a) (fun c l => wr1 l d (fcospiVal (c.r1 l a))) s

def execFtanh (h : Hdr) (d a : RegCode) (s : State) : Host.Outcome State Fault Refusal :=
  alu (.ftanh h d a) (fun c l => wr1 l d (ftanhVal (c.r1 l a))) s

/-! ### Packed 16-bit pairs (R109) -/

def halfFmt (bf : Bool) : Fmt := if bf then bf16 else fp16
def half (w : Word) (i : Nat) : Nat := w.toNat / 65536 ^ i % 65536

/-- An operation on the two elements of a register. -/
def pairMap (f : Nat → Nat) : Word := BitVec.ofNat 32 (f 0 + 65536 * f 1)

def hadd2Val (bf : Bool) (m : Mode) (sub : Bool) (a b : Word) : Word :=
  let f := halfFmt bf
  pairMap (fun i => roundTo f false m ((f.value (half a i)).add (decide (m = .rd))
    (if sub then (f.value (half b i)).neg else f.value (half b i))))

def hmul2Val (bf : Bool) (m : Mode) (a b : Word) : Word :=
  let f := halfFmt bf
  pairMap (fun i => roundTo f false m ((f.value (half a i)).mul (f.value (half b i))))

def hfma2Val (bf : Bool) (m : Mode) (a b c : Word) : Word :=
  let f := halfFmt bf
  pairMap (fun i => roundTo f false m (((f.value (half a i)).mul (f.value (half b i))).add (decide (m = .rd)) (f.value (half c i))))

def hmnmx2Val (bf isMax : Bool) (a b : Word) : Word :=
  pairMap (fun i => minmaxCode (halfFmt bf) isMax (half a i) (half b i))

def execHadd2 (h : Hdr) (bf : Bool) (rm : Rm) (sub : Bool) (d a : RegCode) (b : Src) (s : State) :
    Host.Outcome State Fault Refusal :=
  alu (.hadd2 h bf rm sub d a b) (fun c l => wr1 l d (hadd2Val bf (rmMode rm) sub (c.r1 l a) (c.src l b))) s

def execHmul2 (h : Hdr) (bf : Bool) (rm : Rm) (d a : RegCode) (b : Src) (s : State) : Host.Outcome State Fault Refusal :=
  alu (.hmul2 h bf rm d a b) (fun c l => wr1 l d (hmul2Val bf (rmMode rm) (c.r1 l a) (c.src l b))) s

def execHfma2 (h : Hdr) (bf : Bool) (rm : Rm) (d a : RegCode) (b : Src) (cc : RegCode) (s : State) :
    Host.Outcome State Fault Refusal :=
  alu (.hfma2 h bf rm d a b cc) (fun c l => wr1 l d (hfma2Val bf (rmMode rm) (c.r1 l a) (c.src l b) (c.r1 l cc))) s

def execHmnmx2 (h : Hdr) (bf max : Bool) (d a : RegCode) (b : Src) (s : State) : Host.Outcome State Fault Refusal :=
  alu (.hmnmx2 h bf max d a b) (fun c l => wr1 l d (hmnmx2Val bf max (c.r1 l a) (c.src l b))) s

/-! ### Conversions (R106 to R108, R110 to R112) -/

def cvtffVal (m : Mode) (sat : Bool) (dst src : FKind) (a : Word) : Word :=
  let code := match src with | .f32 => a.toNat | .f16 | .bf16 => a.toNat % 65536
  BitVec.ofNat 32 (roundTo (fkFmt dst) sat m ((fkFmt src).value code))

def execCvtff (h : Hdr) (cv : Cv) (sat : Bool) (dst src : FKind) (d a : RegCode) (s : State) :
    Host.Outcome State Fault Refusal :=
  alu (.cvtff h cv sat dst src d a) (fun c l => wr1 l d (cvtffVal (cvMode cv) sat dst src (c.r1 l a))) s

/-- Signedness and width of an integer type. -/
def ikSigned : IKind → Bool | .s32 | .s64 => true | .u32 | .u64 => false
def ikWide : IKind → Bool | .s64 | .u64 => true | .s32 | .u32 => false

def cvtfiVal (m : Mode) (k : IKind) (sat : Bool) (a : Word) : Nat :=
  roundToInt (if ikWide k then 64 else 32) (ikSigned k) sat m (f32v a)

def execCvtfi (h : Hdr) (cv : Cv) (k : IKind) (sat : Bool) (d a : RegCode) (s : State) :
    Host.Outcome State Fault Refusal :=
  alu (.cvtfi h cv k sat d a) (fun c l =>
    let v := cvtfiVal (cvMode cv) k sat (c.r1 l a)
    if ikWide k then wr64 l d (BitVec.ofNat 64 v) else wr1 l d (BitVec.ofNat 32 v)) s

/-- The exact value of an integer; zero is +0. -/
def xInt (x : Int) : Xv := .fin (decide (x < 0)) x.natAbs 1

def cvtifVal (m : Mode) (x : Int) : Word := to32 m (xInt x)

def execCvtif (h : Hdr) (cv : Cv) (k : IKind) (d a : RegCode) (s : State) : Host.Outcome State Fault Refusal :=
  alu (.cvtif h cv k d a) (fun c l => wr1 l d (cvtifVal (cvMode cv) (match k with
    | .s32 => (c.r1 l a).toInt
    | .u32 => (c.r1 l a).toNat
    | .s64 => (c.r2 l a).toInt
    | .u64 => (c.r2 l a).toNat))) s

/-- FRND (R106): a zero result takes the sign of a. -/
def frndVal (m : Mode) (a : Word) : Word :=
  match f32v a with
  | .nan => 0x7FC00000
  | .inf _ => a
  | .fin neg n d => to32 .rn (.fin neg (roundInt m neg n d) 1)

def execFrnd (h : Hdr) (rm : Rm) (d a : RegCode) (s : State) : Host.Outcome State Fault Refusal :=
  alu (.frnd h rm d a) (fun c l => wr1 l d (frndVal (rmMode rm) (c.r1 l a))) s

/-- FSCALE (R107). Every scale beyond ±600 rounds as ±600 does. -/
def fscaleVal (m : Mode) (a b : Word) : Word := to32 m ((f32v a).scale (max (-600) (min 600 b.toInt)))

def execFscale (h : Hdr) (rm : Rm) (d a : RegCode) (b : Src) (s : State) : Host.Outcome State Fault Refusal :=
  alu (.fscale h rm d a b) (fun c l => wr1 l d (fscaleVal (rmMode rm) (c.r1 l a) (c.src l b))) s

def fgetexpVal (a : Word) : Word :=
  match f32v a with
  | .nan => 0x80000001
  | .inf _ => 0x7FFFFFFF
  | .fin _ n d => if n = 0 then 0x80000000 else BitVec.ofInt 32 (log2Q n d)

def execFgetexp (h : Hdr) (d a : RegCode) (s : State) : Host.Outcome State Fault Refusal :=
  alu (.fgetexp h d a) (fun c l => wr1 l d (fgetexpVal (c.r1 l a))) s

/-! ### Packing and unpacking through a slot (R113 to R115) -/

/-- The registers of a run of `k` from code `n`; `none` where the last lies at or beyond the register count. -/
def runOf (w : Bool) (count : Nat) (n : RegCode) (k : Nat) : Option (List Opnd) :=
  if n.toNat + k ≤ count then some ((List.range k).map (fun i => ⟨w, .reg, n + BitVec.ofNat 8 i⟩)) else none

/-- Table 5-5: elements and packed registers of a slot; `none` for a format that these instructions refuse. -/
def pkShape (slot : DWord) : Option (EFmt × Nat × Nat) :=
  match slotFmt slot with
  | none | some .unbound => none
  | some e =>
    match e.width with
    | 16 => some (e, 2, 1)
    | 8 => some (e, 4, 1)
    | 6 => some (e, 16, 3)
    | 4 => some (e, 8, 1)
    | _ => none

/-- The registers that CVTPK (`pack`) or CVTUNPK reads and writes under a launch record. -/
def pkRuns (r : Rec) (pack : Bool) (d a b : RegCode) (slot : BitVec 3) : Option (List Opnd) :=
  let sl := r.slot slot.toNat
  match pkShape sl with
  | none => none
  | some (_, n, w) =>
    match runOf true r.regs d (if pack then w else n), runOf false r.regs a (if pack then n else w) with
    | some x, some y => some (x ++ y ++ (if slotSck sl = 0 then [] else [rd b]))
    | _, _ => none

/-- The packed words of a run of elements. -/
def packWords (w n : Nat) (codes : List Nat) : List Word :=
  let v := packBits w codes
  (List.range n).map (fun i => BitVec.ofNat 32 (v / 2 ^ (32 * i)))

def cvtpkCodes (slot : DWord) (e : EFmt) (cv : CvD) (sat : Bool) (scale : Word) (vals : List Word) : List Nat :=
  let sc := scaleVal (slotSck slot) scale.toNat
  vals.map (fun v => e.put (sat || slotSat slot) (cvdMode cv slot) ((f32v v).div sc))

def execCvtpk (h : Hdr) (cv : CvD) (sat : Bool) (d a b : RegCode) (slot : BitVec 3) (s : State) :
    Host.Outcome State Fault Refusal :=
  issueI (.cvtpk h cv sat d a b slot) { runs := fun c => pkRuns c.t.lrec true d a b slot } (fun inf c =>
    let sl := c.t.lrec.slot slot.toNat
    match pkShape sl with
    | none => .trap 1 0
    | some (e, n, w) =>
      .ok { s := c.s, mode := .fixed inf.lat, wr := c.lanes.flatMap (fun l =>
        let vals := (List.range n).map (fun i => c.r1 l (a + BitVec.ofNat 8 i))
        let out := packWords e.width w (cvtpkCodes sl e cv sat (c.r1 l b) vals)
        out.zipIdx.flatMap (fun (v, i) => wr1 l (d + BitVec.ofNat 8 i) v)) }) s

def cvtunpkVal (slot : DWord) (e : EFmt) (cv : Cv) (sat : Bool) (scale : Word) (code : Nat) : Word :=
  BitVec.ofNat 32 (roundTo fp32 sat (cvMode cv) (expand e code (scaleVal (slotSck slot) scale.toNat)))

def execCvtunpk (h : Hdr) (cv : Cv) (sat : Bool) (d a b : RegCode) (slot : BitVec 3) (s : State) :
    Host.Outcome State Fault Refusal :=
  issueI (.cvtunpk h cv sat d a b slot) { runs := fun c => pkRuns c.t.lrec false d a b slot } (fun inf c =>
    let sl := c.t.lrec.slot slot.toNat
    match pkShape sl with
    | none => .trap 1 0
    | some (e, n, w) =>
      .ok { s := c.s, mode := .fixed inf.lat, wr := c.lanes.flatMap (fun l =>
        let v := ofLE ((List.range w).flatMap (fun i => leBytes (c.r1 l (a + BitVec.ofNat 8 i)).toNat 4))
        (List.range n).flatMap (fun i =>
          wr1 l (d + BitVec.ofNat 8 i) (cvtunpkVal sl e cv sat (c.r1 l b) (element v e.width i)))) }) s

end Sys2Proof.Machine
end

