-- ==== Sys2Proof/Machine/Access.lean ====
section
/-!
DEFINITION. Accesses of lanes to global memory: their translation (13, 25 R419, R420), the home slices and the
draining of the write-through buffer (13 R222, R228, 14 R238, R242), loads (06 R126 to R128), stores, operations at a home
(14 R258, R259), and the waits of releases.
-/
namespace Sys2Proof.Machine

/-! ### Sizes (06 Table 6-2) -/

def ldBytes : LdSize → Nat
  | .u8 | .s8 => 1
  | .u16 | .s16 => 2
  | .w32 | .u32d | .s32d => 4
  | .d64 => 8
  | .q128 => 16

def stBytes : StSize → Nat | .b8 => 1 | .b16 => 2 | .b32 => 4 | .b64 => 8 | .b128 => 16
def atBytes : AtSize → Nat | .w32 => 4 | .d64 => 8 | .q128 => 16
def wBytes : WSize → Nat | .w32 => 4 | .d64 => 8

/-- The register writes of a load of the number `v` (Table 6-2). -/
def ldWrites (sz : LdSize) (l : Nat) (d : RegCode) (v : Nat) (m : Option DWord) : List Wr :=
  match sz with
  | .u8 | .u16 | .w32 => wr1 l d (BitVec.ofNat 32 v) m
  | .s8 => wr1 l d (BitVec.ofInt 32 (sextN 8 v)) m
  | .s16 => wr1 l d (BitVec.ofInt 32 (sextN 16 v)) m
  | .d64 | .u32d => wr64 l d (BitVec.ofNat 64 v) m
  | .s32d => wr64 l d (BitVec.ofInt 64 (sextN 32 v)) m
  | .q128 => wr128 l d (BitVec.ofNat 128 v) m

/-- The register writes of a result of `n` bytes. -/
def sizedWrites (n l : Nat) (d : RegCode) (v : Nat) (m : Option DWord) : List Wr :=
  match n with
  | 8 => wr64 l d (BitVec.ofNat 64 v) m
  | 16 => wr128 l d (BitVec.ofNat 128 v) m
  | _ => wr1 l d (BitVec.ofNat 32 v) m

/-- A register operand of `n` bytes in lane `l`. -/
def Ctx.rdN (c : Ctx) (l n : Nat) (r : RegCode) : Nat :=
  match n with
  | 8 => (c.r2 l r).toNat
  | 16 => (c.r4 l r).toNat
  | _ => (c.r1 l r).toNat % 256 ^ n

/-! ### Homes -/

/-- A write of a page that is inserted into rings: local, neither STABLE nor SHARED (14 R249). -/
def Tr.recorded (t : Tr) : Bool := t.tgt.isLoc && !bitOf t.leaf 5 && !t.shared

/-! ### Draining the write-through buffer (13 R228, 14 R242) -/

/-- The home performs a buffered sector; a host line that another partition has taken since is refused (13 R234). -/
def State.performEntry (s : State) (e : WtbE) : State :=
  if s.hostTaken e.func e.tgt 32 then s.freeze e.func 8 e.fpa 0 0 else
  let bs (i : Nat) : Byte := tget 0 e.data i
  let s := s.touchHost e.func e.tgt
  if e.mask = 0xFFFFFFFF then s.homeWrite e.tgt ((List.range 32).map bs)
  else (List.range 32).foldl (fun s i => if e.mask.getLsbD i then s.homeWrite (e.tgt.add i) [bs i] else s) s

/-- Which entries leave with those that `p` selects: these and the earlier ones bound for the same slices (13 R228). -/
def withEarlier (p : WtbE → Bool) : List WtbE → List Bool
  | [] => []
  | e :: r => (p e || r.any (fun x => p x && decide (homeSlice x.tgt = homeSlice e.tgt))) :: withEarlier p r

/-- Every buffer entry that `p` selects is performed and acknowledged, in the order taken, and with it the earlier ones bound for its
slice; `error` when a line of one waits for the host (29 R466). -/
def State.drain (s : State) (core : Nat) (p : WtbE → Bool) : Except State State :=
  let mine := (s.core core).wtb.zip (withEarlier p (s.core core).wtb)
  let sel := (mine.filter (fun (x : WtbE × Bool) => x.2)).map (fun (x : WtbE × Bool) => x.1)
  match sel.find? (fun e => decide (e.st ≠ .performed) && s.snooped e.tgt) with
  | some e => .error (s.biSend e.tgt)
  | none =>
    if sel = [] then .ok s else
    let s := s.answerLoads core (sel.map (fun e => homeSlice e.tgt))
    let k := s.core core
    let s := s.setCore core { k with wtb := (mine.filter (fun (x : WtbE × Bool) => !x.2)).map (fun (x : WtbE × Bool) => x.1) }
    let s := sel.foldl (fun s e => (if e.st = .performed then s else s.performEntry e).ackEntry e) s
    .ok s.wakeMem

/-! ### Translation and release of a lane -/

/-- The translation of one data access of the issuing core. -/
def Ctx.xlAs (c : Ctx) (sup : Bool) (acc : Acc) (va : Nat) : XRes :=
  let k := c.s.core c.core
  c.s.refine c.t.func (translate k.tlb k.wfail c.t.func c.fn.s1root.toNat sup acc va)

def Ctx.xl (c : Ctx) (acc : Acc) (va : Nat) : XRes := c.xlAs c.sup acc va

/-- The wait of a release at a scope (Table 14-3): `error` when it is not over. -/
def State.releaseWait (s : State) (core func : Nat) (sc : Scope) : Except State State :=
  if sc.code.toNat < 3 then .ok s
  else if 8 ≤ sc.code.toNat && s.remoteBusy core func then .error s
  else s.drain core (fun e => decide (e.func = func))

/-! ### One lane's access -/

/-- An access of a lane that translates. -/
structure Ax where
  lane : Nat
  va : Nat
  tr : Tr

/-- The accesses of the active lanes: the first misaligned one, or those that translate and those that do not. -/
def Ctx.accesses (c : Ctx) (sup : Bool) (acc : Acc) (n : Nat) (addr : Nat → DWord) :
    Except DWord (List Ax × List (Nat × Nat × XRes)) :=
  match c.lanes.find? (fun l => (addr l).toNat % n ≠ 0) with
  | some l => .error (addr l)
  | none =>
    let xs := c.lanes.map (fun l => (l, (addr l).toNat, c.xlAs sup acc (addr l).toNat))
    .ok (xs.filterMap (fun x => match x.2.2 with
          | .ok t => some ⟨x.1, x.2.1, t⟩
          | .page1 | .access1 | .page2 _ | .access2 | .moving _ | .miss | .unbacked _ => none),
         xs.filter (fun x => match x.2.2 with
          | .ok _ => false
          | .page1 | .access1 | .page2 _ | .access2 | .moving _ | .miss | .unbacked _ => true))

/-- The order in which the aligned accesses of one size of different lanes take effect, which the spec does not state where they reach the
same bytes, under one virtual address or under two (06 R128): a free value decides it there (log entry 11). -/
def laneOrder (s : State) (xs : List Ax) : List Ax :=
  if xs.any (fun a => xs.any (fun b => decide (a.lane ≠ b.lane) && decide (a.tr.tgt = b.tr.tgt)))
  then sortBy (fun a => Config.laneKey s.freeCtr a.lane) xs else xs

/-- The index of free values moves on. -/
def State.useFree (s : State) : State := { s with freeCtr := s.freeCtr + 1 }

/-! ### Loads (06 R126 to R128) -/

/-- Whether a lane of this mode finds the line in L1. -/
def Ctx.l1For (c : Ctx) (t : Tr) (l1 : Bool) : Bool := l1 && t.cached c.sup

/-- The soft-error mark of a load of `n` bytes (13 R231). -/
def State.loadMark (s : State) (core func : Nat) (t : Tr) (l1 : Bool) (n va : Nat) : Option DWord :=
  let k := s.core core
  if (List.range n).any (fun i =>
    (k.wtbByte func (t.fpa + i)).isNone &&
    (match (if l1 then k.l1Hit func s.epoch (t.fpa + i) else none) with
     | some l => l.marks.contains ((t.fpa + i) % 512)
     | none => s.homeMarked (t.tgt.add i) 1))
  then some (BitVec.ofNat 64 va) else none

/-- The load goes to a peer. -/
def Ctx.goesOut (c : Ctx) (l1 : Bool) (n : Nat) (a : Ax) : Bool :=
  a.tr.tgt.isFab && !(c.l1For a.tr l1 && (List.range n).all (fun i => ((c.s.core c.core).l1Hit c.t.func c.s.epoch (a.tr.fpa + i)).isSome))

/-- The 128-byte blocks of a peer that accesses touch, in ascending address order, each with its accesses (25 R423). -/
def blocksBy {α : Type} (tgt : α → Tgt) (xs : List α) : List (Nat × Nat × List α) :=
  let key (a : α) : Option (Nat × Nat) := match tgt a with
    | .fab v ma => some (v, ma / 128)
    | .loc _ | .host _ | .notify .. => none
  let uniq := (xs.filterMap key).foldl (fun (l : List (Nat × Nat)) (k : Nat × Nat) => if l.contains k then l else l ++ [k]) []
  (sortBy (fun (k : Nat × Nat) => k.2) uniq).map (fun (k : Nat × Nat) => (k.1, k.2 * 128, xs.filter (fun a => decide (key a = some k))))

def fabBlocks (xs : List Ax) : List (Nat × Nat × List Ax) := blocksBy (fun a => a.tr.tgt) xs

/-- The byte offset of an access in its 128-byte block. -/
def Ax.off (a : Ax) : Nat := match a.tr.tgt with | .fab _ ma => ma % 128 | .loc _ | .host _ | .notify .. => 0

/-- The sectors of an access's line that its grain-aligned block holds (R225). -/
def Ax.grainMask (a : Ax) : BitVec 16 :=
  let g := leafGrain a.tr.leaf
  BitVec.ofNat 16 ((2 ^ (g / 32) - 1) * 2 ^ (a.tr.fpa % 512 / g * (g / 32)))

/-- What L1 takes of the 128-byte block that accesses of a fabric line have in common (R225, 25 R423): the sectors of their
grain-aligned blocks. -/
def fabFill (s : State) (func : Nat) (sup : Bool) (xs : List Ax) (base : Nat) : Option Fill :=
  match xs with
  | [] => none
  | a :: _ =>
    if a.tr.cached sup then
      some { func := func, line := a.tr.fpa / 512, off := (a.tr.fpa - a.off) % 512, len := 128,
             keep := xs.foldl (fun m a => m ||| a.grainMask) 0, tgt := (match a.tr.tgt with
          | .fab v _ => .fab v base
          | .loc _ | .host _ | .notify .. => a.tr.tgt), stable := a.tr.stable, fepoch := s.epoch }
    else none

/-- The 128-byte blocks of 512-byte grains that accesses miss and do not touch, each by a request of its own, which waits where no response
slot is free: the accesses themselves form one request per block that they touch (R225, 25 R423, log entry 47). -/
def State.fabMore (s : State) (core func gk tok : Nat) (sup : Bool) (bs : List (Nat × Nat × List Ax)) : State :=
  let grain := bs.flatMap (fun b => match b.2.2 with
    | a :: _ => if a.tr.cached sup && decide (leafGrain a.tr.leaf = 512)
      then (List.range 4).map (fun i => (b.1, b.2.1 / 512 * 512 + 128 * i, a.tr)) else []
    | [] => [])
  let more := grain.foldl (fun (l : List (Nat × Nat × Tr)) x =>
    if l.any (fun y => decide (y.1 = x.1) && decide (y.2.1 = x.2.1)) || bs.any (fun b => decide (b.1 = x.1) && decide (b.2.1 = x.2.1))
    then l else l ++ [x]) []
  more.foldl (fun s (v, ma, t) =>
    let off := ma % 512
    if (List.range 4).all (fun j => ((s.core core).l1Hit func s.epoch (t.fpa / 512 * 512 + off + 32 * j)).isSome) then s else
    s.requestLater core func v 1 ma [] (.pref gk tok
      { func := func, line := t.fpa / 512, off := off, len := 128, tgt := .fab v ma, stable := t.stable, fepoch := s.epoch })) s

/-- The effect of a load on the lanes that translate. `l1`: L1 is consulted and filled; what is read at its home leaves the core's L1 (log
entry 45). `acq`: the load is an acquire load of
a fabric line. -/
def Ctx.loadEff (c : Ctx) (sz : LdSize) (d : RegCode) (l1 : Bool) (acq : Option Scope) (xs : List Ax) : Except State Eff :=
  let n := ldBytes sz
  let inRa := c.g.ra.isSome
  let out := xs.filter (c.goesOut l1 n)
  let here := xs.filter (fun a => !c.goesOut l1 n a)
  let s := c.s
  let wrs := here.flatMap (fun a =>
    let useL1 := c.l1For a.tr l1
    let v := ofLE ((List.range n).map (fun i => s.loadByte c.core c.t.func a.tr useL1 i))
    ldWrites sz a.lane d v (s.loadMark c.core c.t.func a.tr useL1 n a.va))
  let miss := here.filter (fun a => !s.loadHits c.core c.t.func a.tr (c.l1For a.tr l1) n)
  let s := here.foldl (fun s a => s.touchHost c.t.func a.tr.tgt) s
  let s := (xs.filter (fun a => !c.l1For a.tr l1)).foldl (fun (s : State) a =>
    s.setCore c.core ((s.core c.core).dropSector c.t.func a.tr.fpa)) s
  if miss = [] ∧ (out = [] ∨ inRa) then
    .ok { s := s, wr := wrs, mode := .now, poison := if inRa then out.map (·.lane) else [] }
  else
    let tok := s.nextTok
    let s := s.newTok
    let fills := (miss.filter (fun a => c.l1For a.tr l1)).foldl (fun (l : List Fill) a =>
      let f := s.fillOf c.t.func a.tr
      if l.contains f then l else l ++ [f]) []
    let k := s.core c.core
    let s := if here = [] then s else
      s.setCore c.core { k with served := k.served + 1, loads := k.loads ++ [{
        what := ⟨c.gk, tok, maskOf (here.map (·.lane))⟩, fills := fills, slices := (miss.map (fun a => homeSlice a.tr.tgt)).eraseDups,
        seq := k.served }] }
    if inRa then .ok { s := s, wr := wrs, mode := .pend tok true, out := some (tok, c.act), poison := out.map (·.lane) }
    else
      let outWrs := out.flatMap (fun a => (ldWrites sz a.lane d 0 none).map (fun w => { w with unk := true }))
      match (fabBlocks out).foldl (fun (s : Option State) b => s.bind (fun s =>
          s.request c.core c.t.func b.1 1 b.2.1 [] (.load c.gk tok sz d (b.2.2.map (fun a => (a.lane, a.off)))
            (match b.2.2 with | a :: _ => BitVec.ofNat 64 (a.va - a.off) | [] => 0) acq
            (if l1 then fabFill s c.t.func c.sup b.2.2 b.2.1 else none)))) (some s) with
      | none => .error c.s
      | some s =>
        let s := if l1 then s.fabMore c.core c.t.func c.gk tok c.sup (fabBlocks out) else s
        .ok { s := s, wr := sortBy (fun (w : Wr) => w.lane) (wrs ++ outWrs), mode := .pend tok true, out := some (tok, c.act) }

/-- A load instruction of global memory. -/
def Ctx.load (c : Ctx) (sup : Bool) (sz : LdSize) (d : RegCode) (l1 : Bool) (addr : Nat → DWord) : Res :=
  match c.accesses sup .read (ldBytes sz) addr with
  | .error a => .trap 4 a
  | .ok (good, bad) =>
    match c.loadEff sz d l1 none good with
    | .ok e => if bad = [] then .ok e else .xl .read bad e
    | .error s => if bad = [] then .hold s else .xl .read bad { s := c.s }

/-! ### Stores -/

/-- The store that R380 accepts on a notify page: ST.64 at 8q below 512, ST.32 at 0x200 + 4k. -/
def notifyOk (n off : Nat) : Bool :=
  (decide (n = 8) && decide (off < 512) && decide (off % 8 = 0)) ||
  (decide (n = 4) && decide (512 ≤ off) && decide (off < 1024) && decide (off % 4 = 0))

/-- A migration of the function is in its stop phase, or the function has left and its window has not ended (23 R399, R404). -/
def State.stopping (s : State) (func : Nat) : Bool :=
  s.migs.any (fun (e : Nat × Mig) => decide (e.2.func = func) && (decide (e.2.st = 3) || decide (e.2.st = 4)))

/-- A store that R380 does not accept is refused at stage 2; so is one to a function in its stop phase (23 R399). -/
def State.notifyRefuse (s : State) (n : Nat) (x : Nat × Nat × XRes) : Nat × Nat × XRes :=
  match x.2.2 with
  | .ok t => (match t.tgt with
    | .notify f _ off => if notifyOk n off && !s.stopping f then x else (x.1, x.2.1, .access2)
    | .loc _ | .host _ | .fab .. => x)
  | .page1 | .access1 | .page2 _ | .access2 | .moving _ | .miss | .unbacked _ => x

/-- A local or host store of one lane enters the write-through buffer, and L1 where it holds the sector (13 R226, R228). -/
def Ctx.bufferStore (c : Ctx) (s : State) (a : Ax) (bs : List Byte) (tok : Nat) : Option State :=
  let k := s.core c.core
  let off := a.tr.fpa % 32
  let e : WtbE := { func := c.t.func, fpa := a.tr.fpa / 32 * 32, tgt := a.tr.tgt.sub off,
                    mask := BitVec.ofNat 32 ((2 ^ bs.length - 1) * 2 ^ off), data := writeBytes [] off bs,
                    rings := if a.tr.recorded then [c.plane] else [],
                    toks := [⟨c.gk, tok, 1#32 <<< a.lane⟩] }
  (k.bufStore e).map (fun k => s.setCore c.core (k.l1Store c.t.func s.epoch a.tr.fpa bs))

/-- A store of one lane to a peer's line updates the bytes that the core's L1 holds of it (13 R226), as one reached through another page
of the function that is STABLE. -/
def Ctx.fabricL1 (c : Ctx) (val : Nat → List Byte) (s : State) (a : Ax) : State :=
  s.setCore c.core ((s.core c.core).l1Store c.t.func s.epoch a.tr.fpa (val a.lane))

/-- The effect of a store on the lanes that translate; the bytes are those of each lane. -/
def Ctx.storeEff (c : Ctx) (n : Nat) (val : Nat → Nat) (xs : List Ax) : Option Eff :=
  let tok := c.s.nextTok
  let xs' := laneOrder c.s xs
  let s := c.s.newTok.useFree
  let notify (s : State) (a : Ax) : State := match a.tr.tgt with
    | .notify f p o => { s with
        notifyQ := s.notifyQ ++ [⟨f, p, o, c.t.func, c.core, c.plane, c.sup, leBytes (val a.lane) n⟩],
        agenda := s.agenda ++ [if n = 8 then .notifyEnqueue else .notify] }
    | .loc _ | .host _ | .fab .. => s
  let s := xs'.foldl notify s
  let s? := (xs'.filter (fun a => match a.tr.tgt with | .loc _ | .host _ => true | .fab .. | .notify .. => false)).foldl
    (fun (s : Option State) a => s.bind (fun s => c.bufferStore s a (leBytes (val a.lane) n) tok)) (some s)
  let s? := (fabBlocks xs').foldl (fun (s : Option State) b => s.bind (fun s =>
    s.remoteStore c.core c.t.func b.1 b.2.1 (storePayload (b.2.2.map (fun a => (a.off, leBytes (val a.lane) n))))
      ⟨c.gk, tok, maskOf (b.2.2.map (·.lane))⟩)) s?
  let open' := xs.filter (fun a => match a.tr.tgt with | .notify .. => false | .loc _ | .host _ | .fab .. => true)
  let s? := s?.map (fun s => (xs'.filter (fun a => a.tr.tgt.isFab)).foldl (c.fabricL1 (fun l => leBytes (val l) n)) s)
  s?.map (fun s => { s := s, out := if open' = [] then none else some (tok, maskOf (open'.map (·.lane))) })

/-- An access that a notify page refuses (20 R358). -/
def notifyNever (x : Nat × Nat × XRes) : Nat × Nat × XRes :=
  match x.2.2 with
  | .ok t => (match t.tgt with
    | .notify .. => (x.1, x.2.1, .access2)
    | .loc _ | .host _ | .fab .. => x)
  | .page1 | .access1 | .page2 _ | .access2 | .moving _ | .miss | .unbacked _ => x

/-- A store instruction of global memory. -/
def Ctx.store (c : Ctx) (sup : Bool) (n : Nat) (addr : Nat → DWord) (val : Nat → Nat) : Res :=
  match c.lanes.find? (fun l => (addr l).toNat % n ≠ 0) with
  | some l => .trap 4 (addr l)
  | none =>
    let xs := c.lanes.map (fun l => c.s.notifyRefuse n (l, (addr l).toNat, c.xlAs sup .write (addr l).toNat))
    let good := xs.filterMap (fun x => match x.2.2 with
      | .ok t => some (⟨x.1, x.2.1, t⟩ : Ax)
      | .page1 | .access1 | .page2 _ | .access2 | .moving _ | .miss | .unbacked _ => none)
    let bad := xs.filter (fun x => match x.2.2 with
      | .ok _ => false
      | .page1 | .access1 | .page2 _ | .access2 | .moving _ | .miss | .unbacked _ => true)
    if bad ≠ [] then .xl .write bad { s := c.s }
    else match c.storeEff n val good with
      | some e => .ok e
      | none => .hold c.s

/-! ### Operations at a home (14 R258, 15 R269) -/

/-- The new value of Table 15-4; `none` writes nothing. -/
def atomNew (fn size m b c : Nat) : Option Nat :=
  let w := 8 * size
  let u (x : Int) : Nat := wrapN w x
  match fn with
  | 0 => some (u (m + b))
  | 1 => some (if sextN w b < sextN w m then b else m)
  | 2 => some (if sextN w m < sextN w b then b else m)
  | 3 => some (min m b)
  | 4 => some (max m b)
  | 5 => some (m &&& b)
  | 6 => some (m ||| b)
  | 7 => some (m ^^^ b)
  | 8 => some b
  | 9 => if m = c then some b else none
  | 10 => some (if b ≤ m then 0 else m + 1)
  | 11 => some (if m = 0 ∨ b < m then b else m - 1)
  | 12 => some (roundTo fp32 false .rn ((fp32.value m).add false (fp32.value b)))
  | 13 => some (minmaxCode fp32 false m b)
  | _ => some (minmaxCode fp32 true m b)

def fnOf : AtomOp → Nat
  | .add => 0 | .minS => 1 | .maxS => 2 | .minU => 3 | .maxU => 4 | .and => 5 | .or => 6 | .xor => 7 | .exch => 8
  | .cas _ => 9 | .inc => 10 | .dec => 11 | .fadd => 12 | .fmin => 13 | .fmax => 14

/-- The chunk that a range object hands out (17 R305); 0 when nothing is written. -/
def rngChunk (nx stop p m : Nat) : Nat :=
  if p = 0 ∨ m = 0 ∨ stop ≤ nx then 0 else min (stop - nx) (max m ((stop - nx + p - 1) / p))

/-- One operation at the home of a local or host line, as one indivisible step: the state after it, the value it returns and
whether it was taken. `pub` publishes with OR at a scope (R254). -/
def State.homeOp (s : State) (t : Tgt) (op : HomeOp) (pub : Option (Scope × List RSlot)) : State × Nat × Bool :=
  let b := t.block
  let publish (s : State) : State := match pub with | some (sc, ring) => s.publish b false sc ring | none => s
  match op with
  | .atom fn size x y relop =>
    let m := s.rdAt t 0 size
    let s := match atomNew fn size m x y with | some v => s.wrAt t 0 size v | none => s
    let s := publish s
    let s := if relop && s.cellKind b then s.barTest b else s
    (s, m, true)
  | .barInit n =>
    let mg := s.barMgen b
    let s := ((s.wrAt b 0 4 n).wrAt b 4 4 0).wrAt b 32 8 0
    let s := s.wrAt b 12 2 (256 + (if n = 0 then 1 else 0))
    let s := (List.range 3).foldl (fun s k => (s.wrAt b (16 + 4 * k) 4 (s.epoch % 2 ^ 32)).wrAt b (128 + 128 * k) 128 0) s
    (s.wrAt b 40 4 ((mg + 1) % 2 ^ 32), 0, true)
  | .barArrive n =>
    let tok := s.barPhase b
    if s.cellBroken b || !s.cellKind b || decide (s.barExpect b < s.barArrived b + n) then (s.setBroken b, tok, false)
    else
      let s := publish (s.wrAt b 4 4 (s.barArrived b + n))
      (s.barTest b, tok, true)
  | .barTest tok =>
    let s := if s.cellKind b then s else s.setBroken b
    if barPassed (s.barPhase b) tok then (s, 0, true)
    else if s.cellBroken b then (s, 1, false) else (s, 2, false)
  | .barExpect n =>
    if !s.cellKind b then (s.setBroken b, 0, false)
    else ((s.wrAt b 32 8 ((s.barPending b + n) % 2 ^ 64)).barTest b, 0, true)
  | .barDrop n =>
    if !s.cellKind b then (s.setBroken b, 0, false)
    else if s.barExpect b < n ∨ s.barExpect b - n < s.barArrived b then (s.setBroken b, 0, false)
    else
      let s := (s.wrAt b 0 4 (s.barExpect b - n)).wrAt b 40 4 ((s.barMgen b + 1) % 2 ^ 32)
      (s.barTest b, 0, true)
  | .barBreak mg => if s.barMgen b = mg then (s.setBroken b, 0, true) else (s, 0, true)
  | .rngInit nx stop p m =>
    (((((s.wrAt t 0 8 nx).wrAt t 8 8 stop).wrAt t 16 4 p).wrAt t 20 4 m).wrAt t 24 8 0, 0, true)
  | .rngNext =>
    let nx := s.rdAt t 0 8
    let stop := s.rdAt t 8 8
    let len := rngChunk nx stop (s.rdAt t 16 4) (s.rdAt t 20 4)
    ((if len = 0 then s else s.wrAt t 0 8 (nx + len)), nx + 2 ^ 64 * len, true)
  | .gridDone =>
    let v := s.rdAt t 0 8
    let s := s.wrAt t 0 8 ((v + 1) % 2 ^ 64)
    if t ≠ b then (s, v, true) else
    let s := s.wrAt b 8 4 ((s.rdAt b 8 4 + 1) % 2 ^ 32)
    let f := s.cellFlags b
    let s := s.wrAt b 12 2 (f - bits f 7 4 * 16 + 7 * 16)
    ((List.range 3).foldl (fun s k =>
      let s := s.wrAt b (16 + 4 * k) 4 (windowEpoch s.epoch k)
      s.wrAt b 12 2 (setBit (s.cellFlags b) (1 + k) true)) s, v, true)

/-- Every write-through entry bound to the slice of one of these targets is performed before the home serves the lanes:
program order at the home (06 R128, 13 R228), and the loads that the slice has served return first (14 R246). `error`: a line waits for
the host. -/
def Ctx.orderAt (c : Ctx) (s : State) (ts : List Tgt) : Except State State :=
  let ts := ts.filter (fun t => !t.isFab)
  match s.drain c.core (fun e => ts.any (fun t => sameSlice t e)) with
  | .error s => .error s
  | .ok s =>
    match ts.find? (fun t => s.snooped t) with
    | some t => .error (s.biSend t)
    | none => .ok (s.answerSlices c.core ts)

end Sys2Proof.Machine
end

