-- ==== Sys2Proof/Machine/Mem.lean ====
section
/-!
DEFINITION. Loads and stores of global memory and of the lane-private window, prefetch and uniform loads (06 R124 to R131,
MAJ 0x70 to 0x75), and the loads and stores of the scratchpad levels (15 R268, MAJ 0xA0 to 0xA5, 0xB5).
-/
namespace Sys2Proof.Machine

/-- Base and signed offset of FORM 10 (02 R29). -/
def Ctx.addr (c : Ctx) (a : RegCode) (off : Word) (l : Nat) : DWord := c.r2 l a + off.signExtend 64

def loadRa : Opts := { ra := .load }
def quiet : Opts := { ra := .suppress }

def execLd (h : Hdr) (sz : LdSize) (d a : RegCode) (off : Word) (s : State) : Host.Outcome State Fault Refusal :=
  issueI (.ld h sz d a off) loadRa (fun _ c => c.load c.sup sz d true (c.addr a off)) s

def execSt (h : Hdr) (sz : StSize) (a : RegCode) (off : Word) (b : RegCode) (s : State) : Host.Outcome State Fault Refusal :=
  issueI (.st h sz a off b) quiet (fun _ c =>
    c.store c.sup (stBytes sz) (c.addr a off) (fun l => c.rdN l (stBytes sz) b)) s

/-- LDNC neither consults nor fills L1 (15 R268). The core's own copy of what it read at the home goes, so that a later load does not go
back behind it (14 R238, log entry 45). -/
def execLdnc (h : Hdr) (sz : LdSize) (d a : RegCode) (off : Word) (s : State) : Host.Outcome State Fault Refusal :=
  issueI (.ldnc h sz d a off) loadRa (fun _ c => c.load c.sup sz d false (c.addr a off)) s

/-- LDC (R131): one access at the uniform base, for every active lane. -/
def execLdc (h : Hdr) (sz : LdSize) (d a : RegCode) (off : Word) (s : State) : Host.Outcome State Fault Refusal :=
  issueI (.ldc h sz d a off) loadRa (fun _ c =>
    if !c.uniform2 a then .trap 8 0 else c.load c.sup sz d true (fun _ => c.u2 a + off.signExtend 64)) s

/-! ### The lane-private window (01 R17, 06 R129, 13 R212, R213) -/

/-- LPSIZE as the window uses it: 0 where the function has no team slots. -/
def Ctx.window (c : Ctx) : Nat := if c.fn.lpteams = 0 then 0 else c.fn.lpsize

/-- The first check of a window access that fails: MISALIGN, then ACCESS. DEDUCED: where one lane meets the limit and another PAGE2 or a
stage-1 failure of its backing, the limit comes first, as R129 orders the tests of the instruction; 01 R24 lists the limits last (log
entry 56). -/
def Ctx.windowTrap (c : Ctx) (n : Nat) (o : Nat → DWord) : Option (Nat × DWord) :=
  match c.lanes.find? (fun l => (o l).toNat % n ≠ 0) with
  | some l => some (4, o l)
  | none => (c.lanes.find? (fun l => decide (c.window < (o l).toNat + n))).map (fun l => (7, o l))

/-- The virtual address of a window offset of a lane (R212). -/
def Ctx.windowVa (c : Ctx) (o : Nat → DWord) (l : Nat) : DWord :=
  BitVec.ofNat 64 (c.fn.lpbase.toNat + (1024 * c.t.lpslot.getD 0 + 32 * c.gid + l) * c.fn.lpsize + (o l).toNat)

/-- A stage-1 failure of the area freezes the function (R213). -/
def windowRes (r : Res) : Res :=
  match r with
  | .xl acc bad e =>
    (match bad.find? (fun b => match b.2.2 with
        | .page1 | .access1 => true
        | .ok _ | .page2 _ | .access2 | .moving _ | .miss | .unbacked _ => false) with
     | some b => .viol 2 b.2.1
     | none => .xl acc bad e)
  | .ok _ | .trap .. | .trapAct _ | .hold _ | .viol .. => r

/-- The stage-1 leaf of a lane's address, which the core holds, lacks R or W, which are both required of the area whichever the access is, U
and STABLE apart (R213). -/
def Ctx.lacksRW (c : Ctx) (va : Nat) : Bool :=
  match tlbFind (c.s.core c.core).tlb.s1 c.t.func (bits va 54 16) with
  | some e => !(bitOf e.leaf.toNat 1 && bitOf e.leaf.toNat 2)
  | none => false

def Ctx.needRW (c : Ctx) (addr : Nat → DWord) (r : Res) : Res :=
  match windowRes r, c.lanes.find? (fun l => c.lacksRW (addr l).toNat) with
  | .viol k a, _ => .viol k a
  | _, some l => .viol 2 (addr l).toNat
  | x, none => x

/-- Where the window of some lane lies on a notify page, which takes no STL (20 R358), the lanes whose accesses fail. -/
def Ctx.onNotify (c : Ctx) (addr : Nat → DWord) : List (Nat × Nat × XRes) :=
  let xs := c.lanes.map (fun l => (l, (addr l).toNat, c.xlAs true .write (addr l).toNat))
  if xs.all (fun x => decide (notifyNever x = x)) then [] else
  (xs.map notifyNever).filter (fun x => match x.2.2 with
    | .ok _ => false
    | .page1 | .access1 | .page2 _ | .access2 | .moving _ | .miss | .unbacked _ => true)

def execLdl (h : Hdr) (sz : LdSize) (d a : RegCode) (off : Word) (s : State) : Host.Outcome State Fault Refusal :=
  issueI (.ldl h sz d a off) loadRa (fun _ c =>
    match c.windowTrap (ldBytes sz) (c.addr a off) with
    | some (k, x) => .trap k x
    | none => c.needRW (c.windowVa (c.addr a off)) (c.load true sz d true (c.windowVa (c.addr a off)))) s

def execStl (h : Hdr) (sz : StSize) (a : RegCode) (off : Word) (b : RegCode) (s : State) : Host.Outcome State Fault Refusal :=
  issueI (.stl h sz a off b) quiet (fun _ c =>
    match c.windowTrap (stBytes sz) (c.addr a off) with
    | some (k, x) => .trap k x
    | none => c.needRW (c.windowVa (c.addr a off))
        (if c.onNotify (c.windowVa (c.addr a off)) ≠ [] then .xl .write (c.onNotify (c.windowVa (c.addr a off))) { s := c.s } else
         c.store true (stBytes sz) (c.windowVa (c.addr a off)) (fun l => c.rdN l (stBytes sz) b))) s

/-! ### Prefetch (R130) -/

/-- The prefetch of one lane that translates; `none` where a peer's response slots are all taken (25 R424). -/
def Ctx.prefetch (c : Ctx) (l2 : Bool) (s : State) (t : Tr) : Option State :=
  let s := s.touchHost c.t.func t.tgt
  if l2 || !t.cached c.sup then some s else
  match t.tgt with
  | .fab v ma =>
    if c.g.ra.isSome then some s else
    let a : Ax := ⟨0, 0, t⟩
    let base := ma / 128 * 128
    (match fabFill s c.t.func c.sup [a] base with
     | some f => (s.request c.core c.t.func v 1 base [] (.pref c.gk s.nextTok f)).map
         (fun s => s.fabMore c.core c.t.func c.gk s.nextTok c.sup [(v, base, [a])])
     | none => some s)
  | .loc _ | .host _ | .notify .. =>
    if s.loadHits c.core c.t.func t true 1 then some s else
    let k := s.core c.core
    some (s.setCore c.core { k with served := k.served + 1, loads := k.loads ++ [{
      what := ⟨c.gk, s.nextTok, 0⟩, fills := [s.fillOf c.t.func t], slices := [homeSlice t.tgt], seq := k.served }] })

/-- The lanes of a prefetch that form requests: one for each 128-byte block of a peer (25 R423). -/
def prefTargets (xs : List Tr) : List Tr :=
  xs.foldl (fun (l : List Tr) t => if t.tgt.isFab && l.any (fun u => decide ((u.fpa / 128, u.tgt.isFab) = (t.fpa / 128, true))) then l else l ++ [t]) []

/-- PREF raises nothing that depends on its address: what does not translate is dropped. -/
def execPref (h : Hdr) (l2 : Bool) (a : RegCode) (off : Word) (s : State) : Host.Outcome State Fault Refusal :=
  issueI (.pref h l2 a off) { noEcc := true } (fun _ c =>
    let xs := c.lanes.map (fun l => ((c.addr a off l).toNat, c.xl .read (c.addr a off l).toNat))
    match xs.find? (fun x => decide (x.2 = .miss)) with
    | some x => .hold (c.s.queueWalk (c.core / 160) c.t.func (bits x.1 54 16) (some c.core))
    | none =>
      let s := c.s.dropWfail c.core c.t.func (xs.map (fun x => x.1))
      let ts := prefTargets (xs.filterMap (fun x => match x.2 with
        | .ok t => some t
        | .page1 | .access1 | .page2 _ | .access2 | .moving _ | .miss | .unbacked _ => none))
      match ts.foldl (fun (s : Option State) t => s.bind (fun s => c.prefetch l2 s t)) (some s) with
      | some s => .ok { s := s.newTok }
      | none => .hold c.s) s

/-! ### Scratchpads (13 R214 to R220) -/

/-- A place of a byte string that has one copy: a team's scratchpad, or a chip-scratchpad granule. -/
inductive Pad where
  | team (t : Nat)
  | chip
  deriving DecidableEq, Repr

def State.padBytes (s : State) : Pad → Table Byte
  | .team t => (match s.team? t with | some x => x.spad | none => [])
  | .chip => s.chip

def State.padMarks (s : State) : Pad → List Nat
  | .team t => (match s.team? t with | some x => x.spadMarks | none => [])
  | .chip => s.chipMarks

/-- Bytes written to a pad; a write of a whole 8-byte word clears its mark (R216). -/
def State.padWrite (s : State) (p : Pad) (a : Nat) (bs : List Byte) : State :=
  let keep (m : List Nat) : List Nat := m.filter (fun w => !(decide (a ≤ 8 * w) && decide (8 * w + 8 ≤ a + bs.length)))
  match p with
  | .team t =>
    (match s.team? t with
     | some x => s.setTeam t { x with spad := writeBytes x.spad a bs, spadMarks := keep x.spadMarks }
     | none => s)
  | .chip => { s with chip := writeBytes s.chip a bs, chipMarks := keep s.chipMarks }

/-- The bytes that a store of a lane is about to replace are kept while matrix instructions of the plane are outstanding (11 R187). -/
def State.padNote (s : State) (p : Pad) (a n : Nat) : State :=
  match p with
  | .team t =>
    (match s.team? t with
     | some x => if (s.plane (3 * x.core + x.plane)).matq = [] then s else
       s.setTeam t { x with spadOld := x.spadOld ++ (List.range n).map (fun i => (a + i, tget 0 x.spad (a + i), s.nextTok)) }
     | none => s)
  | .chip => s

/-- A store of a lane to a pad. -/
def State.padStore (s : State) (p : Pad) (a : Nat) (bs : List Byte) : State := (s.padNote p a bs.length).padWrite p a bs

/-- The number held at `a`, and whether a marked word is read. -/
def State.padRead (s : State) (p : Pad) (a n : Nat) : Nat × Bool :=
  (readLE (s.padBytes p) a n, (s.padMarks p).any (fun w => decide (a / 8 ≤ w) && decide (w ≤ (a + n - 1) / 8)))

/-- The scratchpad offset of a lane: (u32(A) + IMM) mod 2^32 (R214). -/
def Ctx.padOff (c : Ctx) (a : RegCode) (off : Word) (l : Nat) : Nat := (c.r1 l a + off).toNat

/-- Where an access falls, or the offset that ACCESS reports. -/
abbrev Loc := Except Nat (Pad × Nat)

/-- The first byte of `n` bytes at `o` at or beyond `size`. -/
def firstBad (o n size : Nat) : Option Nat := if o + n ≤ size then none else some (max o size)

/-- A scratchpad location of the lane's own team. -/
def Ctx.spadLoc (c : Ctx) (n : Nat) (o : Nat) : Loc :=
  match firstBad o n (c.t.lrec.spad * 1024) with
  | some b => .error b
  | none => .ok (.team c.tid, o)

/-- The resident team of a rank of the caller's cluster (08 R137, R141). -/
def Ctx.mate (c : Ctx) (rank : Nat) : Option Nat :=
  (c.s.teams.find? (fun (e : Nat × Team) => decide (e.2.grid = c.t.grid) && decide (e.2.idx = c.t.idx - c.t.rank + rank))).map (·.1)

/-- A cluster-shared location (R217). -/
def Ctx.clusterLoc (c : Ctx) (n : Nat) (o : Nat) : Loc :=
  let rank := o / 2 ^ 24
  let off := o % 2 ^ 18
  if c.t.lrec.w * c.t.lrec.h ≤ rank ∨ bits o 23 18 ≠ 0 then .error o
  else match firstBad off n (c.t.lrec.spad * 1024) with
    | some b => .error (o - off + b)
    | none => match c.mate rank with
      | some t => .ok (.team t, off)
      | none => .error o

/-- A chip-scratchpad location (R219): granules in the order of the grant. -/
def Ctx.chipLoc (c : Ctx) (n : Nat) (o : Nat) : Loc :=
  match firstBad o n (c.fn.grant.length * 2 ^ 20) with
  | some b => .error b
  | none => .ok (.chip, (c.fn.grant[o / 2 ^ 20]?).getD 0 * 2 ^ 20 + o % 2 ^ 20)

/-- The active lanes' locations, or the trap of the first check that fails: MISALIGN, then ACCESS (R268). -/
def Ctx.padLocs (c : Ctx) (n : Nat) (o : Nat → Nat) (loc : Nat → Loc) : Except (Nat × DWord) (List (Nat × Pad × Nat)) :=
  match c.lanes.find? (fun l => o l % n ≠ 0) with
  | some l => .error (4, BitVec.ofNat 64 (o l))
  | none =>
    match c.lanes.findSome? (fun l => match loc (o l) with | .error b => some b | .ok _ => none) with
    | some b => .error (7, BitVec.ofNat 64 b)
    | none => .ok (c.lanes.filterMap (fun l => match loc (o l) with | .ok (p, a) => some (l, p, a) | .error _ => none))

def Ctx.padLoad (c : Ctx) (sz : LdSize) (d : RegCode) (o : Nat → Nat) (loc : Nat → Loc) : Res :=
  match c.padLocs (ldBytes sz) o loc with
  | .error (k, x) => .trap k x
  | .ok xs => .ok { s := c.s, wr := xs.flatMap (fun x =>
                    let (v, m) := c.s.padRead x.2.1 x.2.2 (ldBytes sz)
                    ldWrites sz x.1 d v (if m then some (BitVec.ofNat 64 (o x.1)) else none)) }

/-- Lanes in the order their pad accesses take effect: a free value where they touch common bytes (log entry 11). -/
def padOrder (s : State) (n : Nat) (xs : List (Nat × Pad × Nat)) : List (Nat × Pad × Nat) :=
  if xs.any (fun a => xs.any (fun b => decide (a.1 ≠ b.1) && decide (a.2.1 = b.2.1) && decide (a.2.2 / n = b.2.2 / n)))
  then sortBy (fun (a : Nat × Pad × Nat) => Config.laneKey s.freeCtr a.1) xs else xs

def Ctx.padStore (c : Ctx) (n : Nat) (o : Nat → Nat) (loc : Nat → Loc) (val : Nat → Nat) : Res :=
  match c.padLocs n o loc with
  | .error (k, x) => .trap k x
  | .ok xs => .ok { s := (padOrder c.s n xs).foldl (fun s x => s.padStore x.2.1 x.2.2 (leBytes (val x.1) n)) c.s.useFree }

def execLds (h : Hdr) (sz : LdSize) (d a : RegCode) (off : Word) (s : State) : Host.Outcome State Fault Refusal :=
  issueI (.lds h sz d a off) {} (fun _ c => c.padLoad sz d (c.padOff a off) (c.spadLoc (ldBytes sz))) s

def execSts (h : Hdr) (sz : StSize) (a : RegCode) (off : Word) (b : RegCode) (s : State) : Host.Outcome State Fault Refusal :=
  issueI (.sts h sz a off b) quiet (fun _ c =>
    c.padStore (stBytes sz) (c.padOff a off) (c.spadLoc (stBytes sz)) (fun l => c.rdN l (stBytes sz) b)) s

def execLdcl (h : Hdr) (sz : LdSize) (d a : RegCode) (off : Word) (s : State) : Host.Outcome State Fault Refusal :=
  issueI (.ldcl h sz d a off) {} (fun _ c => c.padLoad sz d (c.padOff a off) (c.clusterLoc (ldBytes sz))) s

def execStcl (h : Hdr) (sz : StSize) (a : RegCode) (off : Word) (b : RegCode) (s : State) : Host.Outcome State Fault Refusal :=
  issueI (.stcl h sz a off b) quiet (fun _ c =>
    c.padStore (stBytes sz) (c.padOff a off) (c.clusterLoc (stBytes sz)) (fun l => c.rdN l (stBytes sz) b)) s

def execLdx (h : Hdr) (sz : LdSize) (d a : RegCode) (off : Word) (s : State) : Host.Outcome State Fault Refusal :=
  issueI (.ldx h sz d a off) {} (fun _ c =>
    c.padLoad sz d (fun l => (c.addr a off l).toNat) (c.chipLoc (ldBytes sz))) s

def execStx (h : Hdr) (sz : StSize) (a : RegCode) (off : Word) (b : RegCode) (s : State) : Host.Outcome State Fault Refusal :=
  issueI (.stx h sz a off b) quiet (fun _ c =>
    c.padStore (stBytes sz) (fun l => (c.addr a off l).toNat) (c.chipLoc (stBytes sz)) (fun l => c.rdN l (stBytes sz) b)) s

end Sys2Proof.Machine
end

