-- ==== Sys2Proof/Machine/Card.lean ====
section
/-!
DEFINITION. Shape records, views and footprints (17 R291 to R295, 18 R318 to R321), the accesses of a running card (17 R301),
and the work of one segment of XCOPY, XGATH, XSCAT, XPACK, XUNPK and XFILL (18 R319 to R322, 21 R365).
-/
namespace Sys2Proof.Machine

/-! ### Shape records (R291, R292) -/

/-- A view: a record with an origin (R293), in lists by dimension. -/
structure View where
  space : Nat
  esz : Nat
  base : Nat
  dims : List Nat
  strs : List Nat
  boxes : List Nat
  orig : List Int
  deriving DecidableEq, Repr

/-- The record's rank as its field gives it. -/
def recRank (bs : List Byte) : Nat := bits (ofLE bs) 70 68

/-- A valid record as a view with an origin; `none` for an invalid one (R292). -/
def viewOf (bs : List Byte) (orig : List Int) : Option View :=
  let r := ofLE bs
  let rank := bits r 70 68
  let esz := bits r 66 64
  let dim (d : Nat) : Nat := bits r (80 + 32 * d + 31) (80 + 32 * d)
  let str (d : Nat) : Nat := if d = 0 then 2 ^ esz else bits r (240 + 40 * (d - 1) + 39) (240 + 40 * (d - 1))
  let box (d : Nat) : Nat := bits r (400 + 16 * d + 15) (400 + 16 * d)
  let base := bits r 63 0
  let used := List.range rank
  let rest := (List.range 5).filter (fun d => decide (rank ≤ d))
  if bits r 511 480 ≠ 0 ∨ bits r 79 75 ≠ 0 ∨ bits r 71 71 ≠ 0 ∨ bits r 67 67 ≠ 0 ∨ 3 < bits r 74 72 ∨ rank = 0 ∨ 5 < rank ∨ 4 < esz
  then none
  else if used.any (fun d => decide (dim d = 0)) ||
      rest.any (fun d => decide (dim d ≠ 0) || decide (box d ≠ 0) || (decide (d ≠ 0) && decide (str d ≠ 0))) ||
      used.any (fun d => decide (str d % 2 ^ esz ≠ 0)) || decide (base % 2 ^ esz ≠ 0)
  then none
  else some ⟨bits r 74 72, esz, base, used.map dim, used.map str, used.map (fun d => box d + 1),
             used.map (fun d => (orig[d]?).getD 0)⟩

/-- Number of box elements. -/
def View.count (v : View) : Nat := v.boxes.foldl (· * ·) 1

/-- The indices of box element `j` by dimension (R293). -/
def boxIndex : List Nat → Nat → List Nat
  | [], _ => []
  | b :: r, j => j % b :: boxIndex r (j / b)

/-- The absolute position of box element `j`. -/
def View.pos (v : View) (j : Nat) : List Int := List.zipWith (fun (c : Int) (i : Nat) => c + i) v.orig (boxIndex v.boxes j)

/-- A position lies within the extents. -/
def posIn (dims : List Nat) (p : List Int) : Bool := (List.zipWith (fun (n : Nat) (x : Int) => decide (0 ≤ x) && decide (x < n)) dims p).all id

/-- The offset from the base of an in-bounds position. -/
def posOff (strs : List Nat) (p : List Int) : Nat := (List.zipWith (fun (s : Nat) (x : Int) => s * x.toNat) strs p).foldl (· + ·) 0

/-- An address in a space: scratchpad and cluster offsets have 32 bits (R214, R217), the others 64. -/
def spaceAddr (space a : Nat) : Nat := if space = 1 ∨ space = 2 then a % 2 ^ 32 else a % 2 ^ 64

/-- The address of box element `j`, if it is in bounds (R293). -/
def View.addr (v : View) (j : Nat) : Option Nat :=
  let p := v.pos j
  if posIn v.dims p then some (spaceAddr v.space (v.base + posOff v.strs p)) else none

/-- The bit position, counted from byte 0, of packed element `j` of `k` bits (R321). -/
def View.bitAddr (v : View) (k j : Nat) : Option Nat :=
  let p := v.pos j
  if posIn v.dims p then
    match p, v.strs with
    | x :: ps, _ :: ss => some (8 * (v.base + posOff ss ps) + k * x.toNat)
    | _, _ => none
  else none

/-! ### Footprints (R294) -/

/-- A footprint: a byte interval of a space, with the team or cluster that the space belongs to. -/
structure Foot where
  space : Nat
  owner : Nat
  lo : Nat
  hi : Nat
  deriving DecidableEq, Repr

def Foot.overlaps (a b : Foot) : Bool :=
  decide (a.space = b.space) && decide (a.owner = b.owner) && decide (a.lo ≤ b.hi) && decide (b.lo ≤ a.hi)

/-- The least and greatest in-bounds position of each dimension. -/
def View.range (v : View) : Option (List (Nat × Nat)) :=
  let l := (List.zip v.orig (List.zip v.boxes v.dims)).map (fun (c, b, n) => (max 0 c, min (c + (b : Int) - 1) ((n : Int) - 1)))
  if l.all (fun (lo, hi) => decide (lo ≤ hi)) then some (l.map (fun (lo, hi) => (lo.toNat, hi.toNat))) else none

/-- The lowest and the highest byte of addresses reduced to a space, of accesses of `n` bytes. -/
def bytesHull (space n : Nat) (as : List Nat) : Option (Nat × Nat) :=
  match as.map (spaceAddr space) with
  | [] => none
  | a :: r => some ((a :: r).foldl min a, (a :: r).foldl max a + n - 1)

/-- The hull of a view; `k` is the width in bits of a packed element, 0 for a view of whole bytes. The addresses are those of R293:
where the interval of the in-bounds elements runs past the end of the space, its elements are taken one by one. -/
def View.hull (v : View) (k : Nat) : Option (Nat × Nat) :=
  match v.range with
  | none => none
  | some l =>
    let sum (ss : List Nat) (l : List (Nat × Nat)) (f : Nat × Nat → Nat) : Nat :=
      (List.zipWith (fun s (r : Nat × Nat) => s * f r) ss l).foldl (· + ·) v.base
    let (lo, hi) : Nat × Nat :=
      if k = 0 then (sum v.strs l Prod.fst, sum v.strs l Prod.snd + 2 ^ v.esz - 1)
      else match l with
        | r :: ls => (sum (v.strs.drop 1) ls Prod.fst + k * r.1 / 8, sum (v.strs.drop 1) ls Prod.snd + (k * r.2 + k - 1) / 8)
        | [] => (v.base, v.base)
    let room := if v.space = 1 ∨ v.space = 2 then 2 ^ 32 else 2 ^ 64
    if lo / room = hi / room then some (lo % room, hi % room)
    else if k = 0 then bytesHull v.space (2 ^ v.esz) ((List.range v.count).filterMap (fun j => v.addr j))
    else bytesHull v.space 1 ((List.range v.count).flatMap (fun j => match v.bitAddr k j with
      | some b => (List.range ((b % 8 + k + 7) / 8)).map (fun i => b / 8 + i)
      | none => []))

/-! ### The parts of an engine card (R318) -/

/-- The element format and width of the card's slot. -/
def Card.fmt (c : Card) : EFmt := (slotFmt c.slot).getD .unbound
def Card.width (c : Card) : Nat := c.fmt.width

/-- Whether the first coordinates of the run belong to the A side. -/
def Card.rankA (c : Card) : Nat := if c.maj = 0xC5 then 0 else recRank c.srec

/-- The source side view (A) and the destination side view (B). -/
def Card.viewA (c : Card) : Option View := viewOf c.srec (c.orig.take c.rankA)
def Card.viewB (c : Card) : Option View := viewOf c.drec (c.orig.drop c.rankA)

/-- The index view of XGATH and XSCAT. -/
def Card.viewX (c : Card) : Option View := viewOf c.xrec []

/-- The view of the packed side of XPACK and XUNPK. -/
def Card.viewP (c : Card) : Option View := if c.maj = 0xC3 then c.viewB else c.viewA

/-- Floor of x / n. -/
def floorDiv (x : Int) (n : Nat) : Int := x / (n : Int)

/-- The scale view with the origin that the packed view gives it (R318, R321). -/
def Card.viewS (c : Card) : Option View :=
  match c.viewP, viewOf c.xrec [] with
  | some p, some s =>
    (match p.orig with
     | x :: xs => some { s with orig := floorDiv x (blockLen c.slot) :: xs }
     | [] => none)
  | _, _ => none

/-- The packed view without the elements whose scale lies out of the scale view's bounds, which are out of bounds themselves (R321). -/
def Card.scaled (c : Card) (v : Option View) : Option View :=
  if slotSck c.slot = 0 then v else
  match v, viewOf c.xrec [] with
  | some p, some s => some { p with dims := List.zipWith min p.dims (match s.dims with
      | d :: r => blockLen c.slot * d :: r
      | [] => []) }
  | v, _ => v

/-- XPACK.auto. -/
def Card.auto (c : Card) : Bool := decide (c.maj = 0xC3) && bitOf c.fn 3

/-- The owner that tags a footprint of a space. -/
def State.owner (s : State) (team space : Nat) : Nat :=
  match space, s.team? team with
  | 1, _ => team
  | 2, some t => t.grid * 2 ^ 64 + (t.idx - t.rank)
  | _, _ => 0

/-- A view's footprint. -/
def State.foot (s : State) (team : Nat) (v : Option View) (k : Nat) : List Foot :=
  match v with
  | none => []
  | some v => match v.hull k with
    | none => []
    | some (lo, hi) => [⟨v.space, s.owner team v.space, lo, hi⟩]

/-- Read and write footprints of an engine card (R294, R318). -/
def State.cardFeet (s : State) (c : Card) : List Foot × List Foot :=
  let f (v : Option View) (k : Nat) : List Foot := s.foot c.team v k
  let k := c.width
  match c.maj with
  | 0xC0 => (f c.viewA 0, f c.viewB 0)
  | 0xC1 | 0xC2 => (f c.viewA 0 ++ f c.viewX 0, f c.viewB 0)
  | 0xC3 => if c.auto then (f c.viewA 0, f (c.scaled c.viewB) k ++ f c.viewS 0)
    else (f c.viewA 0 ++ (if slotSck c.slot = 0 then [] else f c.viewS 0), f (c.scaled c.viewB) k)
  | 0xC4 => (f (c.scaled c.viewA) k ++ (if slotSck c.slot = 0 then [] else f c.viewS 0), f c.viewB 0)
  | _ => ([], f c.viewB 0)

/-- The conditions on the records (R292, R293, R318, R321, R322). -/
def Card.recordsOk (c : Card) : Bool :=
  let packed (p : View) : Bool :=
    let k := c.width
    decide (p.esz = 0) && (match p.dims, p.boxes, p.orig with
      | d :: _, b :: _, x :: _ => decide (k * d % 8 = 0) && decide (k * b % 8 = 0) && decide ((k * x) % 8 = 0)
      | _, _, _ => false) &&
    (decide (slotSck c.slot = 0) || (match viewOf c.xrec [] with
      | some s => decide (s.dims.length = p.dims.length) && decide (s.esz = slotSck c.slot - 1)
      | none => false))
  match c.maj with
  | 0xC0 => (match c.viewA, c.viewB with
    | some a, some b => decide (a.count = b.count) && decide (a.esz = b.esz)
    | _, _ => false)
  | 0xC1 | 0xC2 => (match c.viewA, c.viewB, c.viewX with
    | some a, some b, some x =>
      decide (a.esz = b.esz) && (decide (x.esz = 2) || decide (x.esz = 3)) &&
      decide (x.count = if c.maj = 0xC1 then b.count else a.count)
    | _, _, _ => false)
  | 0xC3 => (match c.viewA, c.viewB with
    | some a, some b => decide (a.count = b.count) && decide (a.esz = 2) && packed b && (!c.auto || decide (slotSck c.slot = 1))
    | _, _ => false)
  | 0xC4 => (match c.viewA, c.viewB with
    | some a, some b => decide (a.count = b.count) && decide (b.esz = 2) && packed a
    | _, _ => false)
  | _ => c.viewB.isSome

/-! ### Segments (21 R365) -/

/-- The view whose elements the segments number. -/
def Card.viewN (c : Card) : Option View := if c.maj = 0xC2 then c.viewX else c.viewB

/-- Elements that the card carries. -/
def Card.elems (c : Card) : Nat := match c.viewN with | some v => v.count | none => 0

/-- Bits of a destination element. -/
def Card.destBits (c : Card) : Nat :=
  if c.maj = 0xC3 then c.width else match c.viewB with | some v => 8 * 2 ^ v.esz | none => 8

/-- E, the elements of a segment. -/
def Card.segElems (c : Card) : Nat := if c.maj = 0xC3 then 32768 / c.width / 4 * 4 else 4096 * 8 / c.destBits

/-- Segments in all. -/
def Card.segs (c : Card) : Nat := (c.elems + c.segElems - 1) / c.segElems

/-- The bytes that segment `i` reports. -/
def Card.segBytes (c : Card) (i : Nat) : Nat := min c.segElems (c.elems - i * c.segElems) * c.destBits / 8

/-! ### Accesses of a card (R301) -/

/-- Why an access of a card does not happen. -/
inductive CStop where
  /-- a walk, a peer or the host is waited for, and the segment is tried again from its start -/
  | retry (s : State)
  /-- a stage-1 fault at this address -/
  | stage1 (va : Nat)
  /-- a refusal that ends the card, with the address (R301) -/
  | refused (va : Nat)
  /-- a violation with its code -/
  | viol (code va : Nat)
  | unbacked (ma : Nat)

def Card.die (c : Card) : Nat := c.core / 160

/-- The translation of an engine's access through the translations that the die holds. -/
def State.engXl (s : State) (die func : Nat) (sup : Bool) (acc : Acc) (va : Nat) : XRes :=
  let d := s.die die
  s.refine func (translate d.tlb d.wfail func (s.func func).s1root.toNat sup acc va)

/-- The translation of one block of a card. -/
def State.cardXl (s : State) (c : Card) (acc : Acc) (va : Nat) : Except CStop Tr :=
  match s.engXl c.die c.func c.sup acc va with
  | .ok t => (match t.tgt with
    | .notify .. => .error (.viol 1 va)
    | .loc _ | .host _ | .fab .. => .ok t)
  | .miss => .error (.retry (s.queueWalk c.die c.func (bits va 54 16) none))
  | .page1 => .error (.stage1 va)
  | .access1 => .error (.refused va)
  | .page2 _ | .access2 => .error (.viol 1 va)
  | .moving _ => .error (.retry s)
  | .unbacked ma => .error (.unbacked ma)

/-- The place of `n` bytes of a space other than global memory, or `none` beyond its window. -/
def State.cardPad (s : State) (c : Card) (space a n : Nat) : Option (Pad × Nat) :=
  match space with
  | 1 => (match s.team? c.team with
    | some t => if a + n ≤ t.lrec.spad * 1024 then some (.team c.team, a) else none
    | none => none)
  | 2 => (match s.team? c.team with
    | some t =>
      let rank := a / 2 ^ 24
      let off := a % 2 ^ 18
      if t.lrec.w * t.lrec.h ≤ rank ∨ bits a 23 18 ≠ 0 ∨ t.lrec.spad * 1024 < off + n then none
      else (s.teams.find? (fun (e : Nat × Team) => decide (e.2.grid = t.grid) && decide (e.2.idx = t.idx - t.rank + rank))).map
        (fun (e : Nat × Team) => (.team e.1, off))
    | none => none)
  | _ =>
    let f := s.func c.func
    if a + n ≤ f.grant.length * 2 ^ 20 then some (.chip, (f.grant[a / 2 ^ 20]?).getD 0 * 2 ^ 20 + a % 2 ^ 20) else none

/-- A block of a peer that the card needs: it is asked for once. -/
def State.cardAsk (s : State) (c : Card) (vdn ma : Nat) : State :=
  let base := ma / 128 * 128
  let asked := (s.core c.core).peers.any (fun (e : Nat × Peer) => e.2.slots.any (fun (q : Nat × RReq) =>
    decide (q.2.what = .card c.die c.id vdn base)))
  if asked then s else (s.request c.core c.func vdn 1 base [] (.card c.die c.id vdn base)).getD s

/-- The key of a byte of a peer in a card's buffer. -/
def bufKey (vdn ma : Nat) : Nat := 2 ^ 90 + vdn * 2 ^ 52 + ma

/-- The card without the blocks that peers have sent it. -/
def Card.dropPeer (c : Card) : Card := { c with buf := c.buf.filter (fun e => !(decide (2 ^ 90 ≤ e.1) && decide (e.1 < 2 ^ 91))) }

/-- `n` bytes of a space as a card reads them, naturally aligned, and whether one is marked. -/
def State.cardRead (s : State) (c : Card) (space a n : Nat) : Except CStop (List Byte × Bool) :=
  if space = 0 then
    match s.cardXl c .read a with
    | .error e => .error e
    | .ok t =>
      match t.tgt with
      | .fab v ma =>
        (match tget 0 c.buf (bufKey v (ma / 128 * 128) + 2 ^ 80) with
         | 0 => .error (.retry (s.cardAsk c v ma))
         | k => .ok (readBytes c.buf (bufKey v ma) n, decide (k = 2)))
      | .loc _ | .host _ | .notify .. => .ok (s.homeBytes t.tgt n, s.homeMarked t.tgt n)
  else
    match s.cardPad c space a n with
    | none => .error (.refused a)
    | some (p, o) =>
      let (v, m) := s.padRead p o n
      .ok (leBytes v n, m)

/-- Bytes marked at a home or in a pad (R301, 13 R231). -/
def State.markHome (s : State) (t : Tgt) (n : Nat) : State :=
  match t with
  | .loc ma => { s with memMarks := addMarks s.memMarks ((List.range n).map (· + ma)) }
  | .host ha => { s with hostMarks := addMarks s.hostMarks ((List.range n).map (· + ha)) }
  | .fab .. | .notify .. => s

def State.markPad (s : State) (p : Pad) (o n : Nat) : State :=
  let ws := (List.range ((o + n - 1) / 8 - o / 8 + 1)).map (· + o / 8)
  match p with
  | .team t => (match s.team? t with
    | some x => s.setTeam t { x with spadMarks := addMarks x.spadMarks ws }
    | none => s)
  | .chip => { s with chipMarks := addMarks s.chipMarks ws }

/-- The places in `Card.wrote`. -/
def homeKey : Tgt → Option Nat
  | .loc ma => some ma
  | .host ha => some (2 ^ 60 + ha)
  | .fab .. | .notify .. => none

def padKey : Pad → Nat
  | .chip => 2 ^ 61
  | .team t => 2 ^ 62 + t * 2 ^ 40

/-- Bytes that the card writes are noted. -/
def Card.note (c : Card) (key n : Nat) (marked : Bool) : Card :=
  { c with wrote := (List.range n).foldl (fun t i => tset t (key + i) (if marked then 2 else 1)) c.wrote }

/-- The marked ones of `n` bytes from a place, if the card has written them all since its segment began. -/
def Card.covered (c : Card) (key n : Nat) : Option (List Nat) :=
  if (List.range n).all (fun i => (tfind c.wrote (key + i)).isSome) then some ((List.range n).filter (fun i => tget 0 c.wrote (key + i) = 2)) else none

/-- Sectors that the card's elements have wholly written carry the marks of the elements alone (13 R231). -/
def Card.sectorMarks (c : Card) (key a n : Nat) (m : List Nat) : List Nat :=
  (List.range ((a + n - 1) / 32 - a / 32 + 1)).foldl (fun m i =>
    let b := (a / 32 + i) * 32
    match c.covered (key + b) 32 with
    | some l => addMarks (m.filter (fun x => decide (x / 32 * 32 ≠ b))) (l.map (· + b))
    | none => m) m

/-- The same of the 8-byte words of a pad (13 R216). -/
def Card.wordMarks (c : Card) (key a n : Nat) (m : List Nat) : List Nat :=
  (List.range ((a + n - 1) / 8 - a / 8 + 1)).foldl (fun m i =>
    let w := a / 8 + i
    match c.covered (key + 8 * w) 8 with
    | some l => let m := m.filter (fun x => x ≠ w); if l = [] then m else m ++ [w]
    | none => m) m

/-- The marks of a home after a card's write of `n` bytes. -/
def State.homeCover (s : State) (c : Card) (t : Tgt) (n : Nat) : State :=
  match t with
  | .loc ma => { s with memMarks := c.sectorMarks 0 ma n s.memMarks }
  | .host ha => { s with hostMarks := c.sectorMarks (2 ^ 60) ha n s.hostMarks }
  | .fab .. | .notify .. => s

/-- The marks of a pad after a card's write of `n` bytes. -/
def State.padCover (s : State) (c : Card) (p : Pad) (o n : Nat) : State :=
  match p with
  | .team t => (match s.team? t with
    | some x => s.setTeam t { x with spadMarks := c.wordMarks (padKey p) o n x.spadMarks }
    | none => s)
  | .chip => { s with chipMarks := c.wordMarks (padKey p) o n s.chipMarks }

/-- A card at work: the state, and the card with its signature, its scales and its stores to peers as they grow. -/
structure CW where
  s : State
  c : Card

/-- Bytes that a function's cards have written (22 Table 22-4). -/
def State.countEngine (s : State) (func n : Nat) : State :=
  let f := s.func func
  s.setFunc func { f with meter := { f.meter with ebytes := f.meter.ebytes + n } }

/-- `n` bytes of a space read by a card at work; the partition that reaches a host line holds it (13 R234). -/
def CW.read (w : CW) (space a n : Nat) : Except CStop (CW × List Byte × Bool) :=
  match w.s.cardRead w.c space a n with
  | .error e => .error e
  | .ok (bs, m) =>
    let s := match (if space = 0 then w.s.engXl w.c.die w.c.func w.c.sup .read a else .miss) with
      | .ok t => w.s.touchHost w.c.func t.tgt
      | .page1 | .access1 | .page2 _ | .access2 | .moving _ | .miss | .unbacked _ => w.s
    .ok ({ w with s := s }, bs, m)

/-- A piece for a block of a peer joins the card's stores that have not left. -/
def Card.post (c : Card) (vdn ma : Nat) (bs : List Byte) (marked : Bool) : Card :=
  let base := ma / 128 * 128
  let p : Piece := ⟨ma % 128, bs, marked⟩
  let here (e : Nat × Nat × List Piece) : Bool := decide (e.1 = vdn) && decide (e.2.1 = base)
  if c.outq.any here then { c with outq := c.outq.map (fun e => if here e then (e.1, e.2.1, e.2.2 ++ [p]) else e) }
  else { c with outq := c.outq ++ [(vdn, base, [p])] }

/-- Bytes written by a card into a space (R301, R232, 14 R262), and counted. -/
def CW.write (w : CW) (space a : Nat) (bs : List Byte) (marked : Bool) : Except CStop CW :=
  let n := bs.length
  if space = 0 then
    match w.s.cardXl w.c .write a with
    | .error e => .error e
    | .ok t =>
      if w.s.snooped t.tgt then .error (.retry (w.s.biSend t.tgt)) else
      let s := w.s.countEngine w.c.func n
      match t.tgt with
      | .fab v ma => .ok ⟨s, w.c.post v ma bs marked⟩
      | .loc _ | .host _ | .notify .. =>
        let s := s.devWrite w.c.func t.tgt bs
        let s := if marked then s.markHome t.tgt n else s
        let c := match homeKey t.tgt with | some k => w.c.note k n marked | none => w.c
        .ok ⟨s.homeCover c t.tgt n, if t.recorded then { c with sig := ringInsert c.sig s.epoch (t.fpa / 512) } else c⟩
  else
    match w.s.cardPad w.c space a n with
    | none => .error (.refused a)
    | some (p, o) =>
      let s := (w.s.countEngine w.c.func n).padWrite p o bs
      let s := if marked then s.markPad p o n else s
      let c := w.c.note (padKey p + o) n marked
      .ok ⟨s.padCover c p o n, c⟩

/-! ### Elements -/

/-- The bytes of an element of a view, zeros out of bounds. -/
def CW.elem (w : CW) (v : View) (j : Nat) : Except CStop (CW × List Byte × Bool) :=
  match v.addr j with
  | none => .ok (w, List.replicate (2 ^ v.esz) 0, false)
  | some a => w.read v.space a (2 ^ v.esz)

/-- Packed element `j`: its code, 0 out of bounds. The bytes that hold it are read one by one. -/
def CW.packedElem (w : CW) (v : View) (j : Nat) : Except CStop (CW × Nat × Bool) :=
  let k := w.c.width
  match v.bitAddr k j with
  | none => .ok (w, 0, false)
  | some b =>
    let n := (b % 8 + k + 7) / 8
    (List.range n).foldl (fun (r : Except CStop (CW × Nat × Bool)) i => match r with
      | .error e => .error e
      | .ok (w, x, m) => (match w.read v.space (spaceAddr v.space (b / 8 + i)) 1 with
        | .error e => .error e
        | .ok (w, bs, m') => .ok (w, x + ofLE bs * 256 ^ i, m || m'))) (.ok (w, 0, false)) |>.map (fun (w, x, m) =>
          (w, x / 2 ^ (b % 8) % 2 ^ k, m))

/-- The scale of a packed element: its raw value, or `none` where its position is out of the scale view's bounds (R321). -/
def CW.scaleAt (w : CW) (p : View) (j : Nat) : Except CStop (CW × Option (Nat × Bool)) :=
  if slotSck w.c.slot = 0 then .ok (w, some (0, false)) else
  match w.c.viewS, p.pos j with
  | some v, x :: xs =>
    let q := floorDiv x (blockLen w.c.slot) :: xs
    if posIn v.dims q then
      match w.read v.space (spaceAddr v.space (v.base + posOff v.strs q)) (2 ^ v.esz) with
      | .error e => .error e
      | .ok (w, bs, m) => .ok (w, some (ofLE bs, m))
    else .ok (w, none)
  | _, _ => .ok (w, none)

/-- The scale byte of XPACK.auto for a list of FP32 codes (R322). -/
def autoScale (e : EFmt) (vals : List Nat) : Nat :=
  let mags := vals.filterMap (fun v => match fp32.value v with
    | .fin _ n d => if n = 0 then none else some (log2Q n d)
    | .nan | .inf _ => none)
  match e, argMax id mags with
  | .float f _, some m =>
    (match f.value f.maxCode with
     | .fin _ n d => (min 254 (max 0 (m - log2Q n d + 127))).toNat
     | .nan | .inf _ => 127)
  | _, _ => 127

/-- The box elements of the block of packed element `j`, by their numbers: those of its row whose position along dimension 0
lies in the same block. -/
def blockMates (l : Nat) (p : View) (j : Nat) : List Nat :=
  match p.boxes, p.orig with
  | b :: _, x :: _ =>
    let i := j % b
    let row := j - i
    let blk := floorDiv (x + (i : Int)) l
    ((List.range (2 * l + 1)).map (fun k => i + k)).filterMap (fun k =>
      if l ≤ k ∧ k - l < b ∧ floorDiv (x + ((k - l : Nat) : Int)) l = blk then some (row + (k - l)) else none)
  | _, _ => []

/-- The scale byte of XPACK.auto for element `j`, computed once from the in-bounds elements of its block and then written to the block's
entry; later elements of the block take the same scale. -/
def CW.autoScale (w : CW) (a p : View) (j : Nat) : Except CStop (CW × Option (Nat × Bool)) :=
  match w.c.viewS, p.pos j with
  | some v, x :: xs =>
    let q := floorDiv x (blockLen w.c.slot) :: xs
    if !posIn v.dims q then .ok (w, none) else
    let mates := (blockMates (blockLen w.c.slot) p j).filter (fun i => (p.bitAddr w.c.width i).isSome)
    let first := mates.headD j
    match tfind w.c.scales first with
    | some k => .ok (w, some (k % 256, decide (256 ≤ k)))
    | none =>
      let vals := mates.foldl (fun (r : Except CStop (CW × List Nat × Bool)) i => match r with
        | .error e => .error e
        | .ok (w, l, m) => (match w.elem a i with
          | .error e => .error e
          | .ok (w, bs, m') => .ok (w, l ++ [ofLE bs], m || m'))) (.ok (w, [], false))
      (match vals with
       | .error e => .error e
       | .ok (w, l, m) =>
         let sc := Machine.autoScale w.c.fmt l
         match w.write v.space (spaceAddr v.space (v.base + posOff v.strs q)) [BitVec.ofNat 8 sc] m with
         | .error e => .error e
         | .ok w => .ok ({ w with c := { w.c with scales := w.c.scales ++ [(first, sc + if m then 256 else 0)] } }, some (sc, m)))
  | _, _ => .ok (w, none)

/-- The rounding mode of XPACK and XUNPK: FN[1:0], 3 the slot's own. -/
def Card.mode (c : Card) : Mode :=
  match bits c.fn 1 0 with | 0 => .rn | 1 => .rz | 2 => .ro | _ => slotMode c.slot

/-- The code that XPACK gives in-bounds element `j` of the packed view, with a mark where its source or its scale is marked. -/
def CW.packCode (w : CW) (a b : View) (j : Nat) : Except CStop (CW × Option (Nat × Bool)) :=
  match (if w.c.auto then w.autoScale a b j else w.scaleAt b j) with
  | .error e => .error e
  | .ok (w, none) => .ok (w, none)
  | .ok (w, some (sc, ms)) => match w.elem a j with
    | .error e => .error e
    | .ok (w, bs, m) =>
      let c := w.c
      let x := (fp32.value (ofLE bs)).div (scaleVal (slotSck c.slot) sc)
      .ok (w, some (if (a.addr j).isNone then 0 else c.fmt.put (slotSat c.slot || bitOf c.fn 2) c.mode x, m || ms))

/-- Packed elements that fill whole bytes together. -/
def packUnit (k : Nat) : Nat := if k % 8 = 0 then 1 else if k % 4 = 0 then 2 else if k % 2 = 0 then 4 else 8

/-- The elements of XPACK that fill whole bytes, from element `j` on, written byte by byte (R321: no byte holds both an in-bounds and
an out-of-bounds element). -/
def CW.putUnit (w : CW) (a b : View) (j : Nat) : Except CStop CW :=
  let k := w.c.width
  match b.bitAddr k j with
  | none => .ok w
  | some p =>
    let codes := (List.range (packUnit k)).foldl (fun (r : Except CStop (CW × List (Nat × Bool))) i => match r with
      | .error e => .error e
      | .ok (w, l) => match w.packCode a b (j + i) with
        | .error e => .error e
        | .ok (w, none) => .ok (w, l)
        | .ok (w, some x) => .ok (w, l ++ [x])) (.ok (w, []))
    match codes with
    | .error e => .error e
    | .ok (w, l) =>
      if l.length < packUnit k then .ok w else
      let word := (l.zipIdx).foldl (fun (n : Nat) (x : (Nat × Bool) × Nat) => n + x.1.1 * 2 ^ (k * x.2)) 0
      let marked (i : Nat) : Bool := (l.zipIdx).any (fun (x : (Nat × Bool) × Nat) =>
        x.1.2 && decide (k * x.2 < 8 * i + 8) && decide (8 * i < k * x.2 + k))
      (List.range (packUnit k * k / 8)).foldl (fun (r : Except CStop CW) i => match r with
        | .error e => .error e
        | .ok w => w.write b.space (spaceAddr b.space (p / 8 + i)) [BitVec.ofNat 8 (word / 256 ^ i % 256)] (marked i)) (.ok w)

/-- One element carried; an index that names no element makes the status CLIPPED (R320). -/
def CW.carry (w : CW) (j : Nat) : Except CStop CW :=
  let put (w : CW) (v : View) (i : Nat) (bs : List Byte) (m : Bool) : Except CStop CW :=
    match v.addr i with
    | none => .ok w
    | some a => w.write v.space a bs m
  let clip (w : CW) : CW := { w with c := { w.c with status := max w.c.status 1 } }
  match w.c.maj, w.c.viewA, w.c.viewB with
  | 0xC0, some a, some b => (match w.elem a j with
    | .error e => .error e
    | .ok (w, bs, m) => put w b j bs m)
  | 0xC5, _, some b =>
    let p := leBytes w.c.pattern.toNat 8
    put w b j (if b.esz = 4 then p ++ p else p.take (2 ^ b.esz)) false
  | 0xC1, some a, some b => (match w.c.viewX with
    | none => .ok w
    | some x => match w.elem x j with
      | .error e => .error e
      | .ok (w, ib, im) =>
        let i := ofLE ib
        if i < a.count then
          match w.elem a i with
          | .error e => .error e
          | .ok (w, bs, m) => put w b j bs (m || im)
        else put (clip w) b j (List.replicate (2 ^ b.esz) 0) im)
  | 0xC2, some a, some b => (match w.c.viewX with
    | none => .ok w
    | some x => match w.elem x j with
      | .error e => .error e
      | .ok (w, ib, im) =>
        let i := ofLE ib
        if i < b.count then
          match w.elem a j with
          | .error e => .error e
          | .ok (w, bs, m) => put w b i bs (m || im)
        else .ok (clip w))
  | 0xC3, some a, some b => if j % packUnit w.c.width = 0 then w.putUnit a b j else .ok w
  | 0xC4, some a, some b => (match w.scaleAt a j with
    | .error e => .error e
    | .ok (w, none) => put w b j (List.replicate 4 0) false
    | .ok (w, some (sc, ms)) => match w.packedElem a j with
      | .error e => .error e
      | .ok (w, code, m) =>
        let c := w.c
        let v := if (a.bitAddr c.width j).isNone then 0
          else roundTo fp32 (bitOf c.fn 2) c.mode (expand c.fmt code (scaleVal (slotSck c.slot) sc))
        put w b j (leBytes v 4) (m || ms))
  | _, _, _ => .ok w

/-- The bytes of the destination that element `j` writes: the first and their number. Packed elements write them together (R321). -/
def Card.destSpan (c : Card) (j : Nat) : Option (Nat × Nat) :=
  match c.viewB with
  | none => none
  | some b =>
    if c.maj = 0xC3 then
      if j % packUnit c.width ≠ 0 then none
      else (b.bitAddr c.width j).map (fun p => (spaceAddr b.space (p / 8), packUnit c.width * c.width / 8))
    else (b.addr j).map (fun a => (a, 2 ^ b.esz))

/-- Two of the spans, of one length, share a byte. -/
def spansMeet (l : List (Nat × Nat)) : Bool :=
  let l := sortBy (fun (x : Nat × Nat) => x.1) l
  (List.zip l (l.drop 1)).any (fun (a, b) => decide (b.1 < a.1 + a.2))

/-- The elements of a segment in the order in which they take effect: a free value where the destination overlaps the source
or itself (R293, R320, R321; log entry 11). -/
def Card.order (c : Card) (s : State) (feet : List Foot × List Foot) (js : List Nat) : List Nat :=
  let self := feet.1.any (fun a => feet.2.any (fun b => a.overlaps b))
  if self || decide (c.maj = 0xC2) || spansMeet (js.filterMap c.destSpan) then sortBy (fun j => Config.elemKey s.freeCtr j) js else js

/-- The elements still to carry, one after another: what is left where an access stops. -/
def CW.carryAll : List Nat → CW → CW × List Nat × Option CStop
  | [], w => (w, [], none)
  | j :: r, w => match w.carry j with
    | .ok w => CW.carryAll r w
    | .error e => (w, j :: r, some e)

/-- The next segment of an engine card begins. -/
def Card.begin (c : Card) (s : State) : Card :=
  let e := c.segElems
  let js := (List.range (min e (c.elems - c.done * e))).map (· + c.done * e)
  { c with inseg := true, todo := c.order s (s.cardFeet c) js, scales := [], wrote := [] }

end Sys2Proof.Machine
end

