-- ==== Sys2Proof/Machine/CardOps.lean ====
section
/-!
DEFINITION. Cards as the rest of the machine handles them: changing them in place, the fault records of paused and ended cards
(19 R338, R344), cancelling (19 R350, 14 R257), and the XDRAINs that wait for them.
-/
namespace Sys2Proof.Machine

/-- `f` on every card of the device. -/
def State.mapCards (s : State) (f : Card → Card) : State :=
  { s with dies := s.dies.map (fun (e : Nat × Die) => (e.1, { e.2 with cardQ := e.2.cardQ.map f, cards := e.2.cards.map f })) }

/-- All cards of the device in flight. -/
def State.allCards (s : State) : List Card := s.dies.flatMap (fun (e : Nat × Die) => e.2.cardQ ++ e.2.cards)

/-- A card in place. -/
def State.setCard (s : State) (c : Card) : State := s.mapCards (fun x => if x.id = c.id then c else x)

/-- The tag that a card names. -/
def Card.tag (c : Card) : Option Nat := if bitOf c.imm 6 then some (c.imm % 64) else none

/-- A card counts into a barrier. -/
def Card.bar (c : Card) : Bool := decide (c.maj < 0xE0) && bitOf c.imm 7

/-- The completion scope. -/
def scopeOfNat (n : Nat) : Scope :=
  match n with
  | 0 => .lane | 1 => .group | 2 => .team | 3 => .cluster | 4 => .die | 5 => .part | 6 => .device | 7 => .system | 8 => .peer
  | 9 => .mesh | 10 => .domain | _ => .fabric

def Card.scope (c : Card) : Scope := scopeOfNat (bits c.imm 11 8)

/-- The CARD field of a fault record (19 Table 19-3). -/
def Card.field (c : Card) : Nat :=
  c.maj + (match c.tag with | some t => t * 256 + 2 ^ 14 | none => 0) + c.tidx % 2 ^ 32 * 2 ^ 32

/-- A fault record of a card, KIND 2 or 3, with the address of its 4 KiB block (17 R301). -/
def State.cardRecord (s : State) (c : Card) (kind va : Nat) : FqRes :=
  s.fqWrite c.func kind 0 0 0 (whereOf c.core 0) 0 (va / 4096 * 4096) c.field []

/-- A paused card goes on at its faulting block (R351): one that had ended retries the access of its end. -/
def Card.goOn (c : Card) (eng : Nat) : Card :=
  { c with st := if c.status = 2 ∨ (decide (c.maj < 0xE0) && decide (c.segs ≤ c.done)) = true then .finished eng else .running eng, again := false }

/-- A card pauses at a stage-1 fault (R344). While its KIND 2 record cannot be written it stays paused (R338); one that FLTQ.resume has let
go meanwhile runs on then. -/
def State.pauseCard (s : State) (c : Card) (eng va : Nat) : State :=
  match s.cardRecord c 2 va with
  | .written s => s.setCard (if c.again then c.goOn eng else { c with st := .paused eng va false })
  | .full => s.setCard { c with st := .paused eng va true }
  | .violation s | .wait s => s.setCard { c with st := .paused eng va true }

/-- Held KIND 2 records of a function are written while the queue has room. -/
def State.writeHeld (s : State) (func : Nat) : State :=
  (s.allCards).foldl (fun s c => match c.st with
    | .paused e va true => if c.func = func ∧ !(s.func func).fqFull then s.pauseCard c e va else s
    | .formed | .waiting | .ready _ | .running _ | .paused _ _ false | .finished _ => s) s

/-- The engine that a card holds, if any. -/
def CardSt.engine : CardSt → Option Nat
  | .running e | .paused e _ _ | .finished e => some e
  | .formed | .waiting | .ready _ => none

/-- A sync object becomes BROKEN at its home (14 R257). Where its page is away or moving, that waits for the page. -/
def State.breakAt (s : State) (b : Break) : State :=
  match (s.setFunc b.func { s.func b.func with s1root := b.root }).xlDirect b.func .write b.va with
  | .ok t =>
    (match t.tgt with
     | .loc _ | .host _ =>
       let cell := t.tgt.block
       if b.mgen.all (fun m => decide (s.barMgen cell = m)) then (s.setBroken cell).wakeMem else s
     | .fab v ma =>
       let (o, op) : Nat × HomeOp := match b.mgen with | some m => (0, .barBreak m) | none => (12, .atom 6 4 1 0 false)
       s.requestLater b.core b.func v 4 (ma / 512 * 512) (opBytes o op) (.cardCtr 3 0)
     | .notify .. => s)
  | .page2 f => { (s.pageToHost b.func f).1 with breaks := s.breaks ++ [b] }
  | .moving _ => { s with breaks := s.breaks ++ [b] }
  | .page1 | .access1 | .access2 | .miss | .unbacked _ => s

/-- The breaks of a function that wait for a page are tried again. -/
def State.retryBreaks (s : State) (func : Nat) : State :=
  let (mine, rest) := s.breaks.partition (fun b => decide (b.func = func))
  mine.foldl State.breakAt { s with breaks := rest }

/-- BROKEN is set on the barrier that a cancelled card counts into (14 R257). -/
def State.breakCard (s : State) (c : Card) : State :=
  if !c.bar || decide (c.counter = 0) then s else s.breakAt ⟨c.core, c.func, (s.func c.func).s1root, c.counter, none⟩

/-- A card ends with a status, its completion due. Where `cancel`, it increments nothing, a barrier that counts its bytes breaks, and a
running card first carries the segment in hand (R350; log entry 50). Stores to peers that have not left still leave. The record of an end
at a fault names the faulting block (R337). An engine number beyond the real ones stands for a card that never started. -/
def State.endCard (s : State) (c : Card) (status : Nat) (cancel : Bool) : State :=
  let s := if cancel then (s.breakCard c).forgetEng c.die c.func else s
  let c := if cancel then { c with counter := 0 } else c
  match c.st, cancel && c.inseg with
  | .running _, true => s.setCard { c with ending := true }
  | st, _ =>
    let fva := match st with
      | .paused _ va _ => va
      | .formed | .waiting | .ready _ | .running _ | .finished _ => c.fva
    s.setCard { c with st := .finished (st.engine.getD 255), status := max c.status status, fva := fva, edges := [], buf := [],
                       inseg := false, todo := [], scales := [], ending := false, again := false }

/-- The completion scope's XDRAINs whose cards have all completed. -/
def State.wakeDrains (s : State) (tid : Nat) : State :=
  match s.team? tid with
  | none => s
  | some t =>
    let left := s.allCards.filter (fun c => c.team = tid)
    let (ok, no) := t.drains.partition (fun (d : Token × Nat) => !left.any (fun c => decide (c.id < d.2)))
    if ok = [] then s else (s.setTeam tid { t with drains := no }).finishToks (ok.map (fun (d : Token × Nat) => d.1))

end Sys2Proof.Machine
end

