-- ==== Sys2Proof/Machine/Sync.lean ====
section
/-!
DEFINITION. Atomics, releases, acquires, fences, barriers, cache control and signatures (15, MAJ 0xA6 to 0xB7).
-/
namespace Sys2Proof.Machine

/-! ### Common parts -/

def xOk (x : Nat × Nat × XRes) : Option Ax :=
  match x.2.2 with
  | .ok t => some ⟨x.1, x.2.1, t⟩
  | .page1 | .access1 | .page2 _ | .access2 | .moving _ | .miss | .unbacked _ => none

/-- The accesses of lanes to the home: misaligned, not translated, or the list of them. -/
def Ctx.homeAccesses (c : Ctx) (lanes : List Nat) (acc : Acc) (n : Nat) (addr : Nat → DWord) (k : List Ax → Res) : Res :=
  match lanes.find? (fun l => (addr l).toNat % n ≠ 0) with
  | some l => .trap 4 (addr l)
  | none =>
    let xs := lanes.map (fun l => notifyNever (l, (addr l).toNat, c.xl acc (addr l).toNat))
    let good := xs.filterMap xOk
    if good.length = xs.length then k good else .xl acc (xs.filter (fun x => (xOk x).isNone)) { s := c.s }

/-- A load of an active lane has not returned (14 R242). -/
def Ctx.loadsOut (c : Ctx) : Bool :=
  (c.s.core c.core).loads.any (fun d => decide (d.what.gk = c.gk) && decide (d.what.lanes &&& c.act ≠ 0)) ||
  (c.s.core c.core).peers.any (fun (e : Nat × Peer) => e.2.slots.any (fun (q : Nat × RReq) => match q.2.what with
    | .load gk _ _ _ ls _ _ _ => decide (gk = c.gk) && ls.any (fun (x : Nat × Nat) => c.act.getLsbD x.1)
    | .op .. | .watch .. | .fetch .. | .pref .. | .recd .. | .dev .. | .card .. | .cardCtr .. => false))

/-- The wait of a release of the active lanes (14 R242), then `k`. -/
def Ctx.released (c : Ctx) (rel : Bool) (sc : Scope) (k : State → Res) : Res :=
  if !rel || decide (c.act = 0) then k c.s
  else if c.loadsOut then .hold c.s
  else match c.s.releaseWait c.core c.t.func sc with
    | .error s => .hold s
    | .ok s => k s

def ordRel : Ord4 → Bool | .release | .acqRel => true | .relaxed | .acquire => false
def ordAcq : Ord4 → Bool | .acquire | .acqRel => true | .relaxed | .release => false

/-- The ring of the issuing plane. -/
def Ctx.ring (c : Ctx) (s : State) : List RSlot := (s.plane c.plane).ring

/-- A write at a home by the issuing core itself: L1's sector goes, the line enters the ring when `rec` says so, the waits are
evaluated (14 R249, R259). -/
def Ctx.wroteHome (c : Ctx) (s : State) (a : Ax) (wrote rec : Bool) : State :=
  let s := s.setCore c.core ((s.core c.core).dropSector c.t.func a.tr.fpa)
  let s := s.touchHost c.t.func a.tr.tgt
  let s := if wrote && rec && a.tr.recorded then s.recordLine c.plane (a.tr.fpa / 512) else s
  if wrote then s.wakeMem else s

/-- The soft-error mark of a value read at the home. -/
def homeMark (s : State) (a : Ax) (n : Nat) : Option DWord :=
  if s.homeMarked a.tr.tgt n then some (BitVec.ofNat 64 a.va) else none

/-- A local outstanding part of an instruction whose other lanes wait for a peer. -/
def Ctx.localPart (c : Ctx) (s : State) (tok : Nat) (lanes : List Nat) : State :=
  if lanes = [] then s else
  let k := s.core c.core
  s.setCore c.core { k with loads := k.loads ++ [{ what := ⟨c.gk, tok, maskOf lanes⟩, fills := [] }] }

/-! ### Atomics (R269 to R271) -/

/-- The operands of an atomic in one lane. -/
def Ctx.atomOp (c : Ctx) (op : AtomOp) (n : Nat) (b : RegCode) (relop : Bool) (l : Nat) : HomeOp :=
  .atom (fnOf op) n (c.rdN l n b) (match op with
    | .cas r => c.rdN l n r
    | .add | .minS | .maxS | .minU | .maxU | .and | .or | .xor | .exch | .inc | .dec | .fadd | .fmin | .fmax => 0) relop

/-- Whether an atomic writes. -/
def opWrites : HomeOp → Nat → Bool
  | .atom fn size x y _, m => (atomNew fn size m x y).isSome
  | .rngNext, m => decide (2 ^ 64 ≤ m)
  | .barInit _, _ | .barArrive _, _ | .barTest _, _ | .barExpect _, _ | .barDrop _, _ | .barBreak _, _ | .rngInit .., _ | .gridDone, _ => true

/-- The operations whose writes enter the ring (14 R249): atomics, RED, RELOP; not barrier and range operations. -/
def HomeOp.rings (o : HomeOp) : Bool :=
  match o with
  | .atom .. => true
  | .barInit _ | .barArrive _ | .barTest _ | .barExpect _ | .barDrop _ | .barBreak _ | .rngInit .. | .rngNext | .gridDone => false

/-- One atomic at a local or host home. An acquire-release one absorbs after its own Publish (log entry 48). -/
def Ctx.atomHere (c : Ctx) (rel acq : Bool) (sc : Scope) (n : Nat) (d : Option RegCode) (op : Nat → HomeOp)
    (r : State × List Wr) (a : Ax) : State × List Wr :=
  let s := r.1
  let pub := if rel && isCellAddr a.va then some (sc, c.ring s) else none
  let mark := homeMark s a n
  let (s, m, _) := s.homeOp a.tr.tgt (op a.lane) pub
  let s := c.wroteHome s a (opWrites (op a.lane) m || pub.isSome) ((op a.lane).rings && opWrites (op a.lane) m)
  let s := if acq then s.acquire c.core c.t.func c.plane ⟨sc, a.va, a.tr.fpa, a.tr.tgt⟩ else s
  (s, r.2 ++ (match d with | some d => sizedWrites n a.lane d m mark | none => []))

/-- Atomics of the active lanes (R270) on locations aligned to `al` with results of `n` bytes: those of a fabric line leave as
requests (25 R423, R426), the others are performed. The core's own copy of each location goes (02 R45). -/
def Ctx.atomics (c : Ctx) (rel acq : Bool) (sc : Scope) (al n : Nat) (d : Option RegCode) (addr : Nat → DWord)
    (op : Nat → HomeOp) : Res :=
  c.homeAccesses c.lanes .write al addr (fun xs =>
    c.released rel sc (fun s =>
      let out := xs.filter (fun a => a.tr.tgt.isFab)
      let here := xs.filter (fun a => !a.tr.tgt.isFab)
      match c.orderAt s (here.map (·.tr.tgt)) with
      | .error s => .hold s
      | .ok s =>
        let tok := s.nextTok
        match (fabBlocks (laneOrder s out)).foldl (fun (s : Option State) b => s.bind (fun s =>
            s.requestAll c.core c.t.func b.1 (if d.isSome then 3 else 4) b.2.1
              (opPayloads ((if acq then 1 else 0) + (if rel then 2 else 0)) sc.code.toNat (b.2.2.map (fun a => (a.off, op a.lane))))
              (.op c.gk tok n (d.getD 255) none (b.2.2.map (fun a => (a.lane, a.off))) (if acq && decide (3 ≤ sc.code.toNat) then some sc else none)
                (b.2.2.map (fun a => op a.lane)) (match b.2.2 with | a :: _ => BitVec.ofNat 64 (a.va - a.off) | [] => 0)))) (some s) with
        | none => .hold s
        | some s =>
          let s := out.foldl (fun (s : State) a => s.setCore c.core ((s.core c.core).dropSector c.t.func a.tr.fpa)) s
          let (s, wr) := (laneOrder s here).foldl (c.atomHere rel acq sc n d op) (s.newTok.useFree, [])
          if out = [] then .ok { s := s, wr := sortBy (fun (w : Wr) => w.lane) wr }
          else
            let s := c.localPart s tok (here.map (·.lane))
            let unk := match d with
              | some d => out.flatMap (fun a => (sizedWrites n a.lane d 0 none).map (fun w => { w with unk := true }))
              | none => []
            .ok { s := s, wr := sortBy (fun (w : Wr) => w.lane) (wr ++ unk), mode := .pend tok true, out := some (tok, c.act) }))

def execAtom (h : Hdr) (op : AtomOp) (sz : AtSize) (ord : Ord4) (scope : Scope) (d a b : RegCode) (s : State) :
    Host.Outcome State Fault Refusal :=
  issueI (.atom h op sz ord scope d a b) quiet (fun _ c =>
    c.atomics (ordRel ord) (ordAcq ord) scope (atBytes sz) (atBytes sz) (some d) (fun l => c.r2 l a) (c.atomOp op (atBytes sz) b false)) s

def execRed (h : Hdr) (op : AtomOp) (sz : AtSize) (rel : Bool) (scope : Scope) (a b : RegCode) (s : State) :
    Host.Outcome State Fault Refusal :=
  issueI (.red h op sz rel scope a b) quiet (fun _ c =>
    c.atomics rel false scope (atBytes sz) (atBytes sz) none (fun l => c.r2 l a) (c.atomOp op (atBytes sz) b false)) s

/-- RELOP (R271): a release read-modify-write of a cell's VALUE. -/
def execRelop (h : Hdr) (op : AtomOp) (sz : AtSize) (scope : Scope) (d a b : RegCode) (s : State) :
    Host.Outcome State Fault Refusal :=
  issueI (.relop h op sz scope d a b) quiet (fun _ c =>
    match c.lanes.find? (fun l => (c.r2 l a).toNat % 512 ≠ 0) with
    | some l => .trap 4 (c.r2 l a)
    | none => c.atomics true false scope (atBytes sz) (atBytes sz) (some d) (fun l => c.r2 l a) (c.atomOp op (atBytes sz) b true)) s

/-- ATOMS (R270): relaxed, at the scratchpad bank. -/
def execAtoms (h : Hdr) (op : AtomOp) (sz : AtSize) (cl : Bool) (d a b : RegCode) (s : State) :
    Host.Outcome State Fault Refusal :=
  issueI (.atoms h op sz cl d a b) quiet (fun _ c =>
    let n := atBytes sz
    let o (l : Nat) : Nat := (c.r1 l a).toNat
    match c.padLocs n o (if cl then c.clusterLoc n else c.spadLoc n) with
    | .error (k, x) => .trap k x
    | .ok xs =>
      let (s, wr) := (padOrder c.s n xs).foldl (fun (r : State × List Wr) (x : Nat × Pad × Nat) =>
        let (m, mk) := r.1.padRead x.2.1 x.2.2 n
        let s := match c.atomOp op n b false x.1 with
          | .atom fn size v w _ => (match atomNew fn size m v w with
            | some y => r.1.padStore x.2.1 x.2.2 (leBytes y n)
            | none => r.1)
          | .barInit _ | .barArrive _ | .barTest _ | .barExpect _ | .barDrop _ | .barBreak _ | .rngInit .. | .rngNext | .gridDone => r.1
        (s, r.2 ++ sizedWrites n x.1 d m (if mk then some (BitVec.ofNat 64 (o x.1)) else none))) (c.s.useFree, [])
      .ok { s := s, wr := sortBy (fun (w : Wr) => w.lane) wr }) s

/-! ### Release stores and acquire loads (R272) -/

/-- One release store at a local or host home, its value write and Publish in one step. -/
def Ctx.relstHere (c : Ctx) (sc : Scope) (n : Nat) (val : Nat → Nat) (s : State) (a : Ax) : State :=
  let s := s.homeWrite a.tr.tgt (leBytes (val a.lane) n)
  let s := if isCellAddr a.va then s.publish a.tr.tgt.block true sc (c.ring s) else s
  c.wroteHome s a true true

def execRelst (h : Hdr) (sz : WSize) (scope : Scope) (a b : RegCode) (s : State) : Host.Outcome State Fault Refusal :=
  issueI (.relst h sz scope a b) quiet (fun _ c =>
    let n := wBytes sz
    let val (l : Nat) : Nat := c.rdN l n b
    c.homeAccesses c.lanes .write n (fun l => c.r2 l a) (fun xs =>
      c.released true scope (fun s =>
        let here := xs.filter (fun a => !a.tr.tgt.isFab)
        match c.orderAt s (here.map (·.tr.tgt)) with
        | .error s => .hold s
        | .ok s =>
          let tok := s.nextTok
          let out := fabBlocks (laneOrder s (xs.filter (fun a => a.tr.tgt.isFab)))
          match out.foldl (fun (s : Option State) (b : Nat × Nat × List Ax) => s.bind (fun s =>
              s.remoteStore c.core c.t.func b.1 b.2.1 (storePayload (b.2.2.map (fun a => (a.off, leBytes (val a.lane) n))))
                ⟨c.gk, tok, maskOf (b.2.2.map (·.lane))⟩)) (some s) with
          | none => .hold s
          | some s =>
            let s := (xs.filter (fun a => a.tr.tgt.isFab)).foldl (fun (s : State) a =>
              s.setCore c.core ((s.core c.core).dropSector c.t.func a.tr.fpa)) s
            .ok { s := (laneOrder s here).foldl (c.relstHere scope n val) s.newTok.useFree,
                  out := if out = [] then none else some (tok, maskOf (out.flatMap (fun b => b.2.2.map (·.lane)))) }))) s

/-- One acquire load at a local or host home. In run-ahead it reads, and its acquire, which would stay in the plane's ring, is not made (19
R342). -/
def Ctx.acqldHere (c : Ctx) (sc : Scope) (n : Nat) (d : RegCode) (r : State × List Wr) (a : Ax) : State × List Wr :=
  let v := r.1.rdAt a.tr.tgt 0 n
  let s := r.1.touchHost c.t.func a.tr.tgt
  (if c.g.ra.isSome then s else s.acquire c.core c.t.func c.plane ⟨sc, a.va, a.tr.fpa, a.tr.tgt⟩, r.2 ++ sizedWrites n a.lane d v (homeMark r.1 a n))

def wLd : WSize → LdSize | .w32 => .w32 | .d64 => .d64

def execAcqld (h : Hdr) (sz : WSize) (scope : Scope) (d a : RegCode) (s : State) : Host.Outcome State Fault Refusal :=
  issueI (.acqld h sz scope d a) loadRa (fun _ c =>
    let n := wBytes sz
    c.homeAccesses c.lanes .read n (fun l => c.r2 l a) (fun xs =>
      let out := xs.filter (fun a => a.tr.tgt.isFab)
      let here := xs.filter (fun a => !a.tr.tgt.isFab)
      match c.orderAt c.s (here.map (·.tr.tgt)) with
      | .error s => .hold s
      | .ok s =>
        if out = [] then
          let (s, wr) := here.foldl (c.acqldHere scope n d) (s, [])
          .ok { s := s, wr := wr }
        else
          match ({ c with s := s } : Ctx).loadEff (wLd sz) d false (if 3 ≤ scope.code.toNat then some scope else none) out with
          | .error s => .hold s
          | .ok e =>
            let (s, wr) := here.foldl (c.acqldHere scope n d) (e.s, [])
            let s := match e.out with | some (tok, _) => c.localPart s tok (here.map (·.lane)) | none => s
            .ok { e with s := s, wr := sortBy (fun (w : Wr) => w.lane) (wr ++ e.wr) })) s

/-! ### Waits at a home (R273, R278) -/

/-- What a lane's wait finds when its request arrives: it goes on with its status, or parks. -/
def Ctx.arrive (c : Ctx) (r : State × List Wr × List (Nat × Wait)) (l : Nat) (w : Wait) : State × List Wr × List (Nat × Wait) :=
  match r.1.homeWait l w with
  | some (ws, acq) =>
    let s := match acq with
      | some a => r.1.acquire c.core c.t.func c.plane a
      | none => r.1
    (s, r.2.1 ++ ws, r.2.2)
  | none => (r.1, r.2.1, r.2.2 ++ [(l, w)])

/-- The watches of lanes in one block of a peer: a LOAD of it (25 R423, R426). -/
def State.watchOut (s : State) (core func gk tok vdn base : Nat) (lanes : List Nat) (first : Bool) : Option State :=
  s.request core func vdn 1 base [] (.watch gk tok lanes first)

/-- The participating lanes with their waits, which `f` gives as the requests arrive at the homes: a step of ACQWT, CNTWT, BARWT and
CWAIT. -/
def Ctx.parkOn (c : Ctx) (s : State) (ts : List (Nat × Tgt)) (f : State → Nat → Wait) : Res :=
  match c.orderAt s (ts.map (fun w => w.2)) with
  | .error s => .hold s
  | .ok s =>
    let ws := ts.map (fun w => (w.1, w.2, f s w.1))
    let out := ws.filter (fun w => w.2.1.isFab)
    let here := ws.filter (fun w => !w.2.1.isFab)
    let tok := s.nextTok
    match (blocksBy (fun (w : Nat × Tgt × Wait) => w.2.1) out).foldl (fun (s : Option State) b => s.bind (fun s =>
        s.watchOut c.core c.t.func c.gk tok b.1 b.2.1 (b.2.2.map (fun w => w.1)) true)) (some s) with
    | none => .hold s
    | some s =>
      let (s, wr, parks) := here.foldl (fun r w => c.arrive r w.1 w.2.2) (s.newTok, [], out.map (fun w => (w.1, w.2.2)))
      .ok { s := s, wr := wr, parks := parks,
            out := if parks = [] then none else some (tok, maskOf (parks.map (fun p => p.1))) }

/-- The watched location is a sync cell's VALUE (14 R257). -/
def State.watchesCell (s : State) (a : Ax) : Bool := isCellAddr a.va && !a.tr.tgt.isFab && !s.cellKind a.tr.tgt.block

/-- The wait of a lane among accesses. -/
def waitOf (xs : List Ax) (f : State → Ax → Wait) (s : State) (l : Nat) : Wait :=
  match xs.find? (fun x => decide (x.lane = l)) with | some x => f s x | none => .none

def execAcqwt (h : Hdr) (m : Cmp) (sz : WSize) (scope : Scope) (d a b cc : RegCode) (s : State) :
    Host.Outcome State Fault Refusal :=
  issueI (.acqwt h m sz scope d a b cc) { ra := .stop } (fun _ c =>
    let n := wBytes sz
    c.homeAccesses c.lanes .read n (fun l => c.r2 l a) (fun xs =>
      c.parkOn c.s (xs.map (fun x => (x.lane, x.tr.tgt)))
        (waitOf xs (fun s x => .acq false (BitVec.ofNat 64 x.va) x.tr.fpa x.tr.tgt m (decide (sz = .d64)) (BitVec.ofNat 64 (c.rdN x.lane n b))
          scope d cc (s.watchesCell x))))) s

/-! ### Fences (R274) and remote promotion (R275) -/

def execFence (h : Hdr) (ord : Ord4) (scope : Scope) (s : State) : Host.Outcome State Fault Refusal :=
  issueI (.fence h ord scope) quiet (fun _ c =>
    if c.act = 0 then .ok { s := c.s } else
    c.released (ordRel ord) scope (fun s =>
      .ok { s := if ordAcq ord && decide (3 ≤ scope.code.toNat) then s.fullInval c.core c.t.func c.plane else s })) s

/-- Steps 2 and 3 of R260: the victim's buffer drains, its lines go, and the rings are merged both ways. -/
def Ctx.promote (c : Ctx) (s : State) (victim : Nat) : Except State State :=
  match s.drain victim (fun e => decide (e.func = c.t.func)) with
  | .error s => .error s
  | .ok s =>
    let planes := (List.range 3).filter (fun p => decide ((s.plane (3 * victim + p)).func = some c.t.func))
    if planes = [] then .ok (s.fullInval c.core c.t.func c.plane)
    else
      let s := s.setCore victim ((s.core victim).dropLines (fun l => decide (l.func = c.t.func) && !(l.loc && l.stable)))
      .ok (planes.foldl (fun s p =>
        let own := (s.plane c.plane).ring
        let theirs := (s.plane (3 * victim + p)).ring
        let s := s.absorbWalk c.core c.t.func c.plane theirs
        if 3 * victim + p = c.plane then s else s.absorbWalk victim c.t.func (3 * victim + p) own) s)

def execRemacq (h : Hdr) (a : RegCode) (s : State) : Host.Outcome State Fault Refusal :=
  issueI (.remacq h a) quiet (fun _ c =>
    if c.act = 0 then .ok { s := c.s }
    else if !c.uniform1 a then .trap 8 0
    else
      let v := (c.u1 a).toNat
      if 160 ≤ v % 256 ∨ 512 ≤ v then .trap 7 (BitVec.ofNat 64 v)
      else c.released true .device (fun s =>
        match c.promote s (160 * (v / 256) + v % 256) with
        | .error s => .hold s
        | .ok s => .ok { s := s })) s

/-! ### Barriers (R276 to R279) -/

/-- The checks common to the barrier instructions: uniform operands, the cell's alignment, translation. -/
def Ctx.cell (c : Ctx) (acc : Acc) (a : RegCode) (b : Option RegCode) (k : Ax → Res) : Res :=
  match c.lanes with
  | [] => .ok { s := c.s }
  | l :: _ =>
    if !c.uniform2 a || (match b with | some r => !c.uniform1 r | none => false) then .trap 8 0
    else
      let x := c.r2 l a
      if x.toNat % 512 ≠ 0 then .trap 4 x
      else c.homeAccesses [l] acc 8 (fun _ => x) (fun xs => match xs with | y :: _ => k y | [] => .ok { s := c.s })

/-- One update of the cell for the cohort, at its home or as one request; `res` writes the result of a local one. -/
def Ctx.barOp (c : Ctx) (s : State) (x : Ax) (op : HomeOp) (pub acq : Option Scope) (d : RegCode) (cc : Option RegCode)
    (res : State → Nat → Bool → State × List Wr) : Res :=
  match x.tr.tgt with
  | .fab v ma =>
    let tok := s.nextTok
    (match s.request c.core c.t.func v 3 (ma / 128 * 128)
        (opsBytes ((if acq.isSome then 1 else 0) + (if pub.isSome then 2 else 0)) ((acq.or pub).getD .lane).code.toNat [(ma % 128, op)])
        (.op c.gk tok 0 d cc (c.lanes.map (fun l => (l, 0))) (acq.filter (fun sc => decide (3 ≤ sc.code.toNat))) [op] (BitVec.ofNat 64 x.va)) with
     | none => .hold s
     | some s =>
       let s := s.setCore c.core ((s.core c.core).dropSector c.t.func x.tr.fpa)
       let unk := if cc.isNone then [] else c.lanes.flatMap (fun l =>
         (wr1 l d 0 ++ (match cc with | some p => wrP l p false | none => [])).map (fun w => { w with unk := true }))
       .ok { s := s.newTok, wr := unk, mode := .pend tok true, out := some (tok, c.act) })
  | .loc _ | .host _ | .notify .. =>
    match c.orderAt s [x.tr.tgt] with
    | .error s => .hold s
    | .ok s =>
      let (s, v, ok) := s.homeOp x.tr.tgt op (pub.map (fun sc => (sc, c.ring s)))
      let s := c.wroteHome s x true false
      let (s, wr) := res s v ok
      .ok { s := s, wr := wr }

/-- The group's membership entry is created or refreshed (14 R257). -/
def Ctx.member (c : Ctx) (s : State) (x : Ax) : State :=
  s.setGroup c.gk ((s.group c.gk).touchMember s.clock (BitVec.ofNat 64 x.va) x.tr.tgt (s.barMgen x.tr.tgt))

/-- Lanes parked on a barrier when BARINIT sets it up wake with BROKEN (R276). -/
def State.wakeBroken (s : State) (t : Tgt) : State :=
  s.groups.foldl (fun s (e : Nat × Group) =>
    (List.range e.2.lanes.length).foldl (fun s l =>
      match ((s.group e.1).lane l).wait with
      | .bar _ _ t' _ _ d cc => if t' = t then
          (match s.homeOf e.1 with | some (_, _, core) => s.answerSlices core [t] | none => s).wakeLane e.1 l (statusWr l d cc 1) else s
      | .acq .. | .chan .. | .none | .k _ | .tags .. | .launch .. | .cjoin | .sleep _ | .fetch _ | .pri _ | .moving _
      | .walk _ | .woken | .satisfied .. => s) s) s

def execBarinit (h : Hdr) (a b : RegCode) (s : State) : Host.Outcome State Fault Refusal :=
  issueI (.barinit h a b) quiet (fun _ c =>
    c.cell .write a (some b) (fun x =>
      c.barOp c.s x (.barInit (c.u1 b).toNat) none none 255 none (fun s _ _ => (s.wakeBroken x.tr.tgt, [])))) s

/-- The count of an arrival or a drop: the lanes with guard 1, or 1 for .grp (R277). -/
def Ctx.arrivals (c : Ctx) (grp : Bool) : Nat := if grp then 1 else c.lanes.length

def execBararv (h : Hdr) (grp : Bool) (scope : Scope) (d cc a : RegCode) (s : State) : Host.Outcome State Fault Refusal :=
  issueI (.bararv h grp scope d cc a) quiet (fun _ c =>
    c.cell .write a none (fun x => c.released true scope (fun s =>
      c.barOp s x (.barArrive (c.arrivals grp)) (some scope) none d (some cc) (fun s tok ok =>
        (c.member s x, c.lanes.flatMap (fun l => wr1 l d (BitVec.ofNat 32 tok) ++ wrP l cc ok)))))) s

def execBarwt (h : Hdr) (scope : Scope) (d cc a b : RegCode) (s : State) : Host.Outcome State Fault Refusal :=
  issueI (.barwt h scope d cc a b) { ra := .stop } (fun _ c =>
    c.cell .read a (some b) (fun x =>
      let w : Wait := .bar (BitVec.ofNat 64 x.va) x.tr.fpa x.tr.tgt (c.u1 b) scope d cc
      match c.orderAt c.s [x.tr.tgt] with
      | .error s => .hold s
      | .ok s =>
        let s := if x.tr.tgt.isFab then s
          else if s.cellKind x.tr.tgt then c.member s x
          else (c.member (s.setBroken x.tr.tgt) x).wakeMem
        c.parkOn s (c.lanes.map (fun l => (l, x.tr.tgt))) (fun _ _ => w))) s

def execBartst (h : Hdr) (scope : Scope) (d cc a b : RegCode) (s : State) : Host.Outcome State Fault Refusal :=
  issueI (.bartst h scope d cc a b) quiet (fun _ c =>
    c.cell .read a (some b) (fun x =>
      c.barOp c.s x (.barTest (c.u1 b).toNat) none (some scope) d (some cc) (fun s st ok =>
        (if ok then s.acquire c.core c.t.func c.plane ⟨scope, x.va, x.tr.fpa, x.tr.tgt⟩ else s,
         c.lanes.flatMap (fun l => statusWr l d cc st))))) s

def execBarexp (h : Hdr) (a b : RegCode) (s : State) : Host.Outcome State Fault Refusal :=
  issueI (.barexp h a b) quiet (fun _ c =>
    c.cell .write a (some b) (fun x =>
      c.barOp c.s x (.barExpect (c.u1 b).toNat) none none 255 none (fun s _ _ => (s, [])))) s

def execBardrop (h : Hdr) (grp : Bool) (a : RegCode) (s : State) : Host.Outcome State Fault Refusal :=
  issueI (.bardrop h grp a) quiet (fun _ c =>
    c.cell .write a none (fun x =>
      let drop (s : State) : State :=
        let g := s.group c.gk
        s.setGroup c.gk { g with members := g.members.filter (fun m => m.tgt ≠ x.tr.tgt) }
      c.barOp (if x.tr.tgt.isFab then drop c.s else c.s) x (.barDrop (c.arrivals grp)) none none 255 none (fun s _ _ => (drop s, [])))) s

/-! ### Cache control (R280) -/

/-- A store of an active lane to a peer is not acknowledged (R280). -/
def Ctx.storesOut (c : Ctx) : Bool :=
  (c.s.core c.core).peers.any (fun (e : Nat × Peer) => e.2.stores.any (fun r => decide (r.what.gk = c.gk) && decide (r.what.lanes &&& c.act ≠ 0)))

/-- The lines of the active lanes' addresses, translated as a load. -/
def Ctx.cctl (c : Ctx) (a : RegCode) (off : Word) (f : State → Ax → State) (wait : Bool) : Res :=
  let xs := c.lanes.map (fun l => (l, (c.addr a off l).toNat, c.xl .read (c.addr a off l).toNat))
  let good := xs.filterMap xOk
  if good.length ≠ xs.length then .xl .read (xs.filter (fun x => (xOk x).isNone)) { s := c.s }
  else if wait && c.storesOut then .hold c.s
  else match (if wait && decide (c.act ≠ 0) then c.s.drain c.core (fun e => decide (e.func = c.t.func)) else .ok c.s) with
    | .error s => .hold s
    | .ok s => .ok { s := good.foldl f s }

def execCctlIvl (h : Hdr) (a : RegCode) (off : Word) (s : State) : Host.Outcome State Fault Refusal :=
  issueI (.cctlIvl h a off) quiet (fun _ c =>
    c.cctl a off (fun s x => s.setCore c.core ((s.core c.core).dropLines (fun l =>
      decide (l.func = c.t.func) && decide (l.line = x.tr.fpa / 512)))) false) s

def execCctlIvall (h : Hdr) (s : State) : Host.Outcome State Fault Refusal :=
  issueI (.cctlIvall h) quiet (fun _ c =>
    if c.act = 0 then .ok { s := c.s }
    else .ok { s := c.s.setCore c.core ((c.s.core c.core).dropLines (fun l => decide (l.func = c.t.func))) }) s

/-- Instruction-cache lines of a function leave the core; lanes that have entered one fetch it again. -/
def State.dropInstr (s : State) (core func : Nat) (p : Nat → Bool) : State :=
  let k := s.core core
  s.setCore core { k with icache := k.icache.filter (fun l => !(decide (l.func = func) && p l.line)) }

def execCctlIvi (h : Hdr) (a : RegCode) (off : Word) (s : State) : Host.Outcome State Fault Refusal :=
  issueI (.cctlIvi h a off) quiet (fun _ c =>
    c.cctl a off (fun s x => s.dropInstr c.core c.t.func (fun l => decide (l / 8 = x.tr.fpa / 512))) true) s

def Ctx.drained (c : Ctx) (out : Bool) (f : State → State) : Res :=
  if c.act = 0 then .ok { s := c.s } else
  if out then .hold c.s else
  match c.s.drain c.core (fun e => decide (e.func = c.t.func)) with
  | .error s => .hold s
  | .ok s => .ok { s := f s }

def execCctlIviall (h : Hdr) (s : State) : Host.Outcome State Fault Refusal :=
  issueI (.cctlIviall h) quiet (fun _ c => c.drained c.storesOut (fun s => s.dropInstr c.core c.t.func (fun _ => true))) s

def execCctlDrain (h : Hdr) (s : State) : Host.Outcome State Fault Refusal :=
  issueI (.cctlDrain h) quiet (fun _ c => c.drained false id) s

/-! ### Signatures (R281) -/

/-- Stage 1 alone of an address. -/
def Ctx.xl1 (c : Ctx) (va : Nat) : XRes :=
  let k := c.s.core c.core
  if !(vaCanonical va && s1On c.fn.s1root.toNat) then .page1 else
  match tlbFind k.tlb.s1 c.t.func (bits va 54 16) with
  | some e => if leaf1Refuses e.leaf.toNat c.sup .read then .access1
    else .ok ⟨leaf1Fpa e va, .loc 0, e.leaf.toNat, false⟩
  | none => translate k.tlb k.wfail c.t.func c.fn.s1root.toNat c.sup .read va

/-- The lines of the active lanes' addresses by stage 1, and the register writes that they give. -/
def Ctx.sigrd (c : Ctx) (a : RegCode) (f : Nat → Nat → List Wr) : Res :=
  let xs := c.lanes.map (fun l => (l, (c.r2 l a).toNat, c.xl1 (c.r2 l a).toNat))
  let good := xs.filterMap xOk
  let walks := xs.filter (fun x => decide (x.2.2 = .miss))
  if walks ≠ [] then .hold (walks.foldl (fun s x => s.queueWalk (c.core / 160) c.t.func (bits x.2.1 54 16) (some c.core) true) c.s) else
  let e : Eff := { s := c.s, wr := good.flatMap (fun x => f x.lane (x.tr.fpa / 512)) }
  if good.length = xs.length then .ok e else .xl .read (xs.filter (fun x => (xOk x).isNone)) e

/-- The slots that contain a line, and the SAT bits of the slots (R281). -/
def sigTest (ring : List RSlot) (line : Nat) : Nat :=
  (List.range 3).foldl (fun x k => x + (if sigHas (ringSlot ring k).bits line then 2 ^ k else 0) +
    (if (ringSlot ring k).sat then 2 ^ (3 + k) else 0)) 0

def sigHashes (line : Nat) : Nat :=
  sigHash line 0 + 2 ^ 10 * sigHash line 1 + 2 ^ 20 * sigHash line 2 + 2 ^ 30 * sigHash line 3

def execSigrdTest (h : Hdr) (d a : RegCode) (s : State) : Host.Outcome State Fault Refusal :=
  issueI (.sigrdTest h d a) loadRa (fun _ c =>
    c.sigrd a (fun l line => wr1 l d (BitVec.ofNat 32 (sigTest (c.ring c.s) line)))) s

def execSigrdHash (h : Hdr) (d a : RegCode) (s : State) : Host.Outcome State Fault Refusal :=
  issueI (.sigrdHash h d a) loadRa (fun _ c =>
    c.sigrd a (fun l line => wr64 l d (BitVec.ofNat 64 (sigHashes line)))) s

def execSigrdWord (h : Hdr) (d : RegCode) (slot : BitVec 2) (word : BitVec 5) (s : State) : Host.Outcome State Fault Refusal :=
  issueI (.sigrdWord h d slot word) {} (fun _ c =>
    .ok { s := c.s, wr := c.lanes.flatMap (fun l =>
          wr1 l d (((ringSlot (c.ring c.s) slot.toNat).bits >>> (32 * word.toNat)).setWidth 32)) }) s

end Sys2Proof.Machine
end

