-- ==== Sys2Proof/Machine/Launch.lean ====
section
/-!
DEFINITION. Launch records (08 R139, R140), bind records (12 R200, R201), the acceptance of grids and of children into the
pending pool and the spill area (17 R306 to R310), and the reading of records by instructions (18 R315, R329).
-/
namespace Sys2Proof.Machine

/-! ### Launch records (Table 8-2) -/

/-- Byte `i` of a record. -/
def recByte (bs : List Byte) (i : Nat) : Nat := ((bs[i]?).getD 0).toNat

/-- `n` bytes of a record from byte `i`. -/
def recNum (bs : List Byte) (i n : Nat) : Nat := ofLE ((bs.drop i).take n)

/-- The fields of a launch record. -/
def recFields (bs : List Byte) : Rec :=
  { entry := recNum bs 0 8, args := recNum bs 8 8, ntx := recNum bs 16 4, nty := recNum bs 20 2, ntz := recNum bs 22 2,
    gpt := recByte bs 24 % 64, regs := 8 * recByte bs 25, spad := recNum bs 26 2, qb := recByte bs 28 % 8,
    tags := recByte bs 29, w := recByte bs 30 % 16 + 1, h := recByte bs 30 / 16 + 1, prio := recByte bs 31 % 32,
    chk := bitOf (recNum bs 32 4) 0, ccnt := recNum bs 40 8, spb := recNum bs 48 8, spn := recNum bs 56 4,
    slots := (List.range 8).map (fun n => BitVec.ofNat 64 (recNum bs (64 + 8 * n) 8)) }

/-- The 128 bytes of a launch record. -/
def recBytes (r : Rec) : List Byte :=
  leBytes r.entry 8 ++ leBytes r.args 8 ++ leBytes r.ntx 4 ++ leBytes r.nty 2 ++ leBytes r.ntz 2 ++ leBytes r.gpt 1 ++
  leBytes (r.regs / 8) 1 ++ leBytes r.spad 2 ++ leBytes r.qb 1 ++ leBytes r.tags 1 ++ leBytes ((r.w - 1) + 16 * (r.h - 1)) 1 ++
  leBytes r.prio 1 ++ leBytes (if r.chk then 1 else 0) 4 ++ leBytes 0 4 ++ leBytes r.ccnt 8 ++ leBytes r.spb 8 ++
  leBytes r.spn 4 ++ leBytes 0 4 ++ (List.range 8).flatMap (fun n => leBytes ((r.slots[n]?).getD 0).toNat 8)

/-- The record is one that R140 accepts. -/
def recOk (bs : List Byte) : Bool :=
  let r := recFields bs
  pcOk (BitVec.ofNat 64 r.entry) &&
  decide (recByte bs 24 < 64) && decide (recByte bs 28 < 8) && decide (recByte bs 31 < 32) && decide (recNum bs 32 4 < 2) &&
  decide (recNum bs 36 4 = 0) && decide (recNum bs 60 4 = 0) &&
  decide (r.ntx ≠ 0) && decide (r.nty ≠ 0) && decide (r.ntz ≠ 0) && decide (r.gpt ≠ 0) && decide (r.gpt ≤ 32) &&
  decide (32 ≤ r.regs) && decide (r.regs ≤ 224) && decide (r.spad ≤ 256) && decide (r.qb ≤ 4) && decide (r.tags ≤ 64) &&
  decide (r.prio ≤ 23) && decide (r.w ≤ 12) && decide (r.h ≤ 10) && decide (r.w * r.h ≤ 12) &&
  decide (r.ntx * r.nty * r.ntz % (r.w * r.h) = 0) && decide (r.gpt * 32 * r.regs * 4 ≤ 262144) &&
  decide (r.ccnt % 8 = 0) && decide (r.spb % 128 = 0) && (decide (r.spb ≠ 0) || decide (r.spn = 0)) &&
  r.slots.all slotValid

/-- Units of a grid. -/
def Rec.units (r : Rec) : Nat := r.ntx * r.nty * r.ntz / (r.w * r.h)

/-! ### Bind records (Table 12-1) -/

def bindFunc (r : Nat) : Nat := bits r 6 0
def bindValid (r : Nat) : Bool := bitOf r 15
def bindWeight (r : Nat) : Nat := bits r 31 16
def bindFloor (r : Nat) : Nat := bits r 36 32
def bindMax (r : Nat) : Nat := bits r 44 40
def bindShare (r : Nat) : Nat := bits r 49 48
def bindQueue (r q : Nat) : Bool := bitOf r (72 + q)
/-- Core `k` = 160 × die + %core. -/
def bindCore (r k : Nat) : Bool := bitOf r (136 + k)

/-- Why a valid record is disregarded by itself (R201), as R474 numbers the reasons. -/
def bindBad (r : Nat) : Option Nat :=
  if bits r 511 456 ≠ 0 ∨ bits r 71 56 ≠ 0 ∨ bits r 55 50 ≠ 0 ∨ bits r 47 45 ≠ 0 ∨ bits r 39 37 ≠ 0 ∨ bits r 14 7 ≠ 0 then some 1
  else if bindWeight r = 0 then some 2
  else if bindShare r = 0 then some 3
  else if bindMax r < bindFloor r then some 4
  else none

/-- The record that binds a function: the lowest valid entry that names it and is not disregarded. -/
def Part.bind (p : Part) (func : Nat) : Option Nat :=
  (p.slots.find? (fun (e : Nat × Nat) => bindValid e.2 && (bindBad e.2).isNone && decide (bindFunc e.2 = func))).map (·.2)

/-- Why the record of an entry is disregarded (R201); `none` for a record that binds or is not valid. -/
def Part.disregards (p : Part) (slot : Nat) : Option Nat :=
  let r := tget 0 p.slots slot
  if !bindValid r then none else
  match bindBad r with
  | some x => some x
  | none => if p.slots.any (fun (e : Nat × Nat) => decide (e.1 < slot) && bindValid e.2 && (bindBad e.2).isNone && decide (bindFunc e.2 = bindFunc r))
      then some 5 else none

/-- The slot table after a write of records: the running values of the functions named by the records written return to 0 (R201), and
a hold ends with its function's binding (R205). -/
def Part.rebind (p : Part) (slots : Table Nat) (funcs : List Nat) : Part :=
  let q := { p with slots := slots, cur := p.cur.filter (fun (e : Nat × Int) => !funcs.contains (e.1 % 128)) }
  { q with holds := q.holds.filter (fun (e : Nat × Nat × Nat) => (q.bind e.2.1).isSome) }

def State.prt (s : State) (p : Nat) : Part := tget {} s.parts p
def State.setPrt (s : State) (p : Nat) (x : Part) : State := { s with parts := tput {} s.parts p x }

/-- The bind record of a function in its partition. -/
def State.bindOf (s : State) (func : Nat) : Option Nat :=
  match (s.func func).part with
  | some p => (s.prt p).bind func
  | none => none

/-- The weight of R203. -/
def State.weight (s : State) (func : Nat) : Nat := match s.bindOf func with | some r => bindWeight r | none => 0

/-- The effective priority of a grid (R198); PRIO alone where no record binds the function. The fields of a record hold up to 31: a grid
above 23 lies in no level and is never placed (log entry 33). -/
def State.effOf (s : State) (func prio : Nat) : Nat :=
  match s.bindOf func with
  | some r => min (max prio (bindFloor r)) (bindMax r)
  | none => prio

/-- SmoothPick (R203) over functions with their weights; `key` places a function's running value. -/
def smoothPick (cur : Table Int) (key : Nat → Nat) (c : List (Nat × Nat)) : Option (Nat × Table Int) :=
  let total : Nat := (c.map (·.2)).foldl (· + ·) 0
  let cur := c.foldl (fun (t : Table Int) (e : Nat × Nat) => tput 0 t (key e.1) (tget 0 t (key e.1) + (e.2 : Int))) cur
  match argMax (fun (e : Nat × Nat) => tget 0 cur (key e.1)) (sortBy (fun (e : Nat × Nat) => e.1) c) with
  | none => none
  | some g => some (g.1, tput 0 cur (key g.1) (tget 0 cur (key g.1) - total))

/-! ### Acceptance -/

/-- A grid is accepted: it joins the dispatch lists under its effective priority. -/
def State.acceptGrid (s : State) (func queue : Nat) (r : Rec) (parent : Option Nat) : State :=
  let g : Grid := { func := func, queue := queue, lrec := r, eff := s.effOf func r.prio, parent := parent, order := s.nextGrid }
  { s.setGrid s.nextGrid g with nextGrid := s.nextGrid + 1 }

/-- The queue through which a team's top-level ancestor arrived. -/
def State.queueOf (s : State) (tid : Nat) : Nat :=
  match s.team? tid with
  | none => 0
  | some t => match s.grid? t.grid with | some g => g.queue | none => 0

/-- The grid's spill area has a free slot. -/
def Grid.spillRoom (g : Grid) : Bool := decide (g.spillTail - g.spillHead < g.lrec.spn)

/-- The virtual address of slot `n` of a grid's spill ring (R307). -/
def Grid.spillVa (g : Grid) (n : Nat) : Nat := g.lrec.spb + 128 * (n % g.lrec.spn)

/-- A LAUNCH.wait of the same grid that was issued before `ord` is parked: its child enters first (R308). -/
def State.launchAhead (s : State) (grid ord : Nat) : Bool :=
  s.groups.any (fun (e : Nat × Group) => (s.team? (e.1 / 32)).any (fun t => decide (t.grid = grid)) &&
    (lanesOf e.2.live).any (fun l => match (e.2.lane l).wait with
      | .launch .. => decide ((e.2.lane l).wtok < ord)
      | .acq .. | .bar .. | .chan .. | .none | .k _ | .tags .. | .cjoin | .sleep _ | .fetch _ | .pri _ | .moving _ | .walk _ | .woken
      | .satisfied .. => false))

/-- The store of a child record into the spill area of its grid. -/
def State.spillPut (s : State) (t : Team) (g : Grid) (bs : List Byte) : DevRes :=
  s.devPut t.core t.func ⟨spillKey, t.grid, 0⟩ (g.spillVa g.spillTail) bs

/-- A lane's child record is offered to the pool (R306, R307, R309, R310): OK 0, FULL 1, INVALID 2, or 3 where a page of the spill area
has to come first (20 R357, R361). -/
def State.offer (s : State) (tid : Nat) (bs : List Byte) : State × Nat :=
  match s.team? tid with
  | none => (s, 1)
  | some t =>
    let r := recFields bs
    if !recOk bs then (s, 2)
    else if 2 ^ 32 - 1 ≤ t.children then (s, 1)
    else
      match (s.func t.func).part, s.grid? t.grid with
      | some p, some g =>
        let pt := s.prt p
        let more (s : State) : State := s.setTeam tid { t with children := t.children + 1 }
        if g.spillHead = g.spillTail ∧ pt.pool.length < 4096 then
          let id := s.nextGrid
          (more ((s.acceptGrid t.func g.queue r (some tid)).setPrt p { pt with pool := pt.pool ++ [id] }), 0)
        else if g.spillRoom then
          match s.spillPut t g bs with
          | .ok s _ => (more (s.setGrid t.grid { g with spillTail := g.spillTail + 1, spillParents := g.spillParents ++ [tid] }), 0)
          | .wait s => (s, 3)
          | .stop (.page2 f) _ => ((s.pageToHost t.func f).1, 3)
          | .stop .access2 va => (s.freeze t.func 8 va 0 (whereOf t.core 0), 1)
          | .stop .. => (s, 1)
        else (s, 1)
      | _, _ => (s, 1)

/-- A LAUNCH of `n` lanes has to wait for a page of the spill area that it may write. -/
def State.spillHold (s : State) (tid n : Nat) : Option State :=
  match s.team? tid with
  | none => none
  | some t =>
    match (s.func t.func).part, s.grid? t.grid with
    | some p, some g =>
      if g.spillHead = g.spillTail ∧ (s.prt p).pool.length + n ≤ 4096 then none
      else (List.range (min n (g.lrec.spn - (g.spillTail - g.spillHead)))).findSome? (fun i =>
        match s.xlDirect t.func .write (g.spillVa (g.spillTail + i)) with
        | .page2 f => some (s.pageToHost t.func f).1
        | .moving _ => some s
        | .ok _ | .page1 | .access1 | .access2 | .miss | .unbacked _ => none)
    | _, _ => none

/-- The lanes parked in LAUNCH.wait: the place of their instruction in the order of issue, group and lane. -/
def State.parkedLaunches (s : State) : List (Nat × Nat × Nat) :=
  sortBy (fun (x : Nat × Nat × Nat) => x.1) (s.groups.flatMap (fun (e : Nat × Group) => (List.range e.2.lanes.length).filterMap (fun l =>
    match (e.2.lane l).wait with
    | .launch .. => some ((e.2.lane l).wtok, e.1, l)
    | .acq .. | .bar .. | .chan .. | .none | .k _ | .tags .. | .cjoin | .sleep _ | .fetch _ | .pri _ | .moving _ | .walk _ | .woken
    | .satisfied .. => none)))

/-- The lanes parked in LAUNCH.wait offer their records again in the order of their instructions (R308, R309); once one of a team is
turned away, so are the later ones of its grid. -/
def State.wakeOffers (s : State) : State :=
  (s.parkedLaunches.foldl (fun (a : State × List Nat) (x : Nat × Nat × Nat) =>
    let (s, shut) := a
    match (s.team? (x.2.1 / 32)), ((s.group x.2.1).lane x.2.2).wait with
    | some t, .launch rec d =>
      if shut.contains t.grid || (s.func t.func).frozen then a else
      let (s', st) := s.offer (x.2.1 / 32) rec
      if st = 1 ∨ st = 3 then (s', t.grid :: shut) else (s'.wakeLane x.2.1 x.2.2 (wr1 x.2.2 d (BitVec.ofNat 32 st)), shut)
    | _, _ => a) (s, [])).1

/-- The lanes parked in LAUNCH.wait offer their records again, and those of CJOIN look at their count (R309, R310, R331). -/
def State.wakeLaunch (s : State) : State :=
  let s := s.wakeOffers
  s.groups.foldl (fun s e =>
    (List.range e.2.lanes.length).foldl (fun s l =>
      match (e.2.lane l).wait with
      | .cjoin => (match s.homeOf e.1 with
        | some (t, pl, core) => if t.children = 0 then (s.fullInval core t.func pl).wakeLane e.1 l [] else s
        | none => s)
      | .launch .. | .acq .. | .bar .. | .chan .. | .none | .k _ | .tags .. | .sleep _ | .fetch _ | .pri _ | .moving _ | .walk _ | .woken
      | .satisfied .. => s) s) s

/-! ### Records read by an instruction -/

/-- What a record read came to. -/
inductive RecRes where
  | ok (bs : List Byte)
  | xl (r : XRes)
  | hold (s : State)

/-- `n` bytes at `va`, inside one 128-byte block, read as a load of the cohort. A block of a peer is asked for once and kept
until the instruction issues. -/
def Ctx.recRead (c : Ctx) (va n : Nat) : RecRes :=
  match c.xl .read va with
  | .ok t =>
    (match t.tgt with
     | .fab v ma =>
       let base := ma / 128 * 128
       (match c.g.rbuf.find? (fun (b : Nat × Nat × List Byte) => decide (b.1 = v) && decide (b.2.1 = base)) with
        | some b => .ok ((b.2.2.drop (ma % 128)).take n)
        | none =>
          let asked := (c.s.core c.core).peers.any (fun (e : Nat × Peer) => e.2.slots.any (fun (q : Nat × RReq) =>
            decide (q.2.what = .recd c.gk v base)))
          if asked then .hold c.s
          else .hold ((c.s.request c.core c.t.func v 1 base [] (.recd c.gk v base)).getD c.s))
     | .notify .. => .xl .access2
     | .loc _ | .host _ =>
       .ok ((List.range n).map (fun i => c.s.loadByte c.core c.t.func t (t.cached c.sup) i)))
  | r => .xl r

/-- The blocks that its record reads brought are dropped as the instruction issues. -/
def Ctx.dropRbuf (c : Ctx) (s : State) : State := s.setGroup c.gk { s.group c.gk with rbuf := [] }

end Sys2Proof.Machine
end

