-- ==== Sys2Proof/Machine/Coll.lean ====
section
/-!
DEFINITION. Collectives as data (26): meshes and groups (R432), layout records (R433, R434), the exchange of each axis (R435),
reduction records (R438), the arithmetic of the switch (R436, R437), and the packets of collective traffic (R444; log entry
21 gives the layout of their payload, which the spec leaves open).
-/
namespace Sys2Proof.Machine

/-! ### Meshes (R432) -/

/-- Row-major coordinates of linear index `i`, axis 0 outermost. -/
def rowMajor : List Nat → Nat → List Nat
  | [], _ => []
  | e :: r, i => i / (r.foldl (· * ·) 1) % e :: rowMajor r i

/-- The linear index of coordinates. -/
def rowIndex (ext c : List Nat) : Nat := (List.zip ext c).foldl (fun i (e : Nat × Nat) => i * e.1 + e.2) 0

/-- The coordinate of a member VDN. -/
def Mesh.coord (m : Mesh) (vdn : Nat) : Option (List Nat) :=
  (findIdx (fun v => decide (v = vdn)) m.vdns).map (fun (e : Nat × Nat) => rowMajor m.ext e.1)

/-- The entries of a list on the axes of a mask, the lowest axis first. -/
def onAxes (mask : Nat) (l : List Nat) : List Nat := (l.zipIdx.filter (fun (e : Nat × Nat) => bitOf mask e.2)).map (·.1)

/-- A member's rank in its group over the axes of a mask. -/
def Mesh.rank (m : Mesh) (mask : Nat) (c : List Nat) : Nat := rowIndex (onAxes mask m.ext) (onAxes mask c)

/-- The VDNs of a member's group by rank. -/
def Mesh.group (m : Mesh) (mask : Nat) (c : List Nat) : List Nat :=
  let all := (List.range m.vdns.length).map (fun i => (rowMajor m.ext i, (m.vdns[i]?).getD 0))
  let same (y : List Nat) : Bool := (List.range m.ext.length).all (fun a => bitOf mask a || decide (y[a]? = (c)[a]?))
  (sortBy (fun (e : List Nat × Nat) => m.rank mask e.1) (all.filter (fun e => same e.1))).map (·.2)

/-- The mesh of a function with the function's own coordinate. -/
def State.meshOf (s : State) (func : Nat) : Option (Mesh × List Nat) :=
  match (s.func func).mesh, (s.func func).vdn with
  | some m, some v => (m.coord v).map (fun c => (m, c))
  | _, _ => none

/-! ### Layout records (R433, R434) -/

/-- The state of an axis. -/
inductive AxState where
  | repl | split (d : Nat) | partl | bad
  deriving DecidableEq, Repr

def eltBytes (elt : Nat) : Nat := if elt = 0 ∨ elt = 3 then 4 else 2

/-- A layout: base and length, handle, element type, extents of the tensor, states of the axes. -/
structure Layout where
  base : Nat
  wlen : Nat
  handle : Nat
  elt : Nat
  g : List Nat
  ax : List AxState
  deriving DecidableEq, Repr

/-- The state byte of an axis. -/
def axState (b : Nat) : AxState :=
  if bits b 5 2 ≠ 0 then .bad else
  match bits b 7 6 with
  | 0 => if bits b 1 0 = 0 then .repl else .bad
  | 1 => .split (bits b 1 0)
  | 2 => if bits b 1 0 = 0 then .partl else .bad
  | _ => .bad

/-- The axes split on dimension `d`, ascending. -/
def splitOn (ax : List AxState) (d : Nat) : List Nat :=
  (ax.zipIdx.filter (fun (e : AxState × Nat) => decide (e.1 = .split d))).map (·.2)

/-- The local extents of a layout over a mesh. -/
def Layout.ext (l : Layout) (m : Mesh) : List Nat :=
  (List.range l.g.length).map (fun d =>
    (l.g[d]?).getD 0 / ((splitOn l.ax d).foldl (fun p a => p * (m.ext[a]?).getD 1) 1))

/-- Bytes of the local shard. -/
def Layout.bytes (l : Layout) (m : Mesh) : Nat := (l.ext m).foldl (· * ·) (eltBytes l.elt)

/-- The conditions of R434 that depend on the states. -/
def Layout.valid (l : Layout) (m : Mesh) : Bool :=
  l.ax.all (fun a => match a with
    | .split d => decide (d < l.g.length)
    | .repl | .partl => true
    | .bad => false) &&
  (List.range l.g.length).all (fun d =>
    decide ((l.g[d]?).getD 0 % ((splitOn l.ax d).foldl (fun p a => p * (m.ext[a]?).getD 1) 1) = 0))

/-- A layout record; `none` for an invalid one. -/
def layoutOf (bs : List Byte) (m : Mesh) (target : Bool) : Option Layout :=
  let r := ofLE bs
  let n := bits r 141 140 + 1
  let rank := bits r 139 138 + 1
  let e (a : Nat) : Nat := bits r (256 + 16 * a + 15) (256 + 16 * a)
  let g (d : Nat) : Nat := bits r (32 * d + 31) (32 * d)
  let l : Layout := { base := bits r 447 384, wlen := bits r 511 448, handle := bits r 383 352, elt := bits r 135 128,
                      g := (List.range rank).map g,
                      ax := (List.range n).map (fun a => axState (bits r (320 + 8 * a + 7) (320 + 8 * a))) }
  if bits r 255 144 ≠ 0 ∨ bits r 143 142 ≠ 0 ∨ bits r 137 136 ≠ 0 ∨
     (List.range 4).any (fun a => decide (axState (bits r (320 + 8 * a + 7) (320 + 8 * a)) = .bad)) = true ∨ 3 < l.elt ∨ (target = false ∧ l.wlen ≠ 0) ∨ (List.range n).map e ≠ m.ext ∨
     (List.range 4).any (fun a => decide (n ≤ a) && decide (e a ≠ 0)) = true ∨ l.g.any (fun x => decide (x = 0)) = true ∨
     (List.range 4).any (fun d => decide (rank ≤ d) && decide (g d ≠ 0)) = true
  then none
  else if l.valid m then some l else none

/-! ### Steps of XRESH (R435) -/

/-- What one axis exchanges. -/
inductive Exch where
  | none | allReduce | redScatter (d : Nat) | gather (d : Nat) | a2a (d e : Nat) | slice (d : Nat)
  deriving DecidableEq, Repr

/-- Table 26-2; `none` where it is illegal. -/
def exchOf (a b : AxState) : Option Exch :=
  match a, b with
  | .repl, .repl => some .none
  | .partl, .partl => some .none
  | .partl, .repl => some .allReduce
  | .partl, .split d => some (.redScatter d)
  | .split d, .repl => some (.gather d)
  | .split d, .split e => some (if d = e then .none else .a2a d e)
  | .repl, .split d => some (.slice d)
  | .repl, .partl | .split _, .partl | .bad, _ | _, .bad => Option.none

/-- The layout after the steps of axes 0 to a − 1: the target's states there and the source's above. -/
def midLayout (src dst : Layout) (a : Nat) : Layout := { dst with ax := dst.ax.take a ++ src.ax.drop a }

/-- The exchanges of an XRESH by axis; `none` where a step is illegal or an intermediate layout is invalid or too large. -/
def reshSteps (m : Mesh) (src dst : Layout) : Option (List Exch) :=
  if src.handle ≠ dst.handle ∨ src.elt ≠ dst.elt ∨ src.g ≠ dst.g then none else
  let ok := (List.range dst.ax.length).all (fun a =>
    let l := midLayout src dst (a + 1)
    l.valid m && decide (l.bytes m ≤ dst.wlen))
  if !ok then none else
  (List.zip src.ax dst.ax).foldr (fun (e : AxState × AxState) (r : Option (List Exch)) =>
    match exchOf e.1 e.2, r with
    | some x, some l => some (x :: l)
    | _, _ => none) (some [])

/-- Element number `i` of a block along dimension `d` of a row-major shard: `n` its extents, the block of length `len` that
begins at `lo`. -/
def blockElem (n : List Nat) (d lo len i : Nat) : Nat :=
  let c := rowMajor (n.set d len) i
  rowIndex n (c.set d (((c)[d]?).getD 0 + lo))

/-- The elements of a block of a shard, each of `esz` entries. -/
def blockBytes {α : Type} (esz : Nat) (n : List Nat) (d lo len : Nat) (shard : List α) : List α :=
  (List.range ((n.set d len).foldl (· * ·) 1)).flatMap (fun i => (shard.drop (esz * blockElem n d lo len i)).take esz)

/-- A shard of extents `n` assembled from blocks along `d`, one from each rank. -/
def joinBlocks {α : Type} (esz : Nat) (n : List Nat) (d : Nat) (parts : List (List α)) : List α :=
  let len := (n[d]?).getD 1 / parts.length
  (List.range (n.foldl (· * ·) 1)).flatMap (fun i =>
    let c := rowMajor n i
    let x := ((c)[d]?).getD 0
    (((parts[x / len]?).getD []).drop (esz * rowIndex (n.set d len) (c.set d (x % len)))).take esz)

/-! ### Reduction records (R438) -/

structure RedRec where
  handle : Nat
  cnts : Nat
  cnt : Nat
  dst : Nat
  src : Nat
  alg : Alg
  deriving DecidableEq, Repr

/-- A reduction record over a mesh; `none` for an invalid one. XMCAST ignores OP and SKIP. -/
def redOf (bs : List Byte) (m : Mesh) (mcast : Bool) : Option RedRec :=
  let r := ofLE bs
  let alg : Alg := { axes := bits r 15 12, elt := bits r 2 0, op := bits r 5 4, skip := bits r 9 8, tileb := bits r 159 128,
                     ntile := bits r 191 160 }
  let x : RedRec := { handle := bits r 479 448, cnts := bits r 447 384, cnt := bits r 383 320, dst := bits r 319 256,
                      src := bits r 255 192, alg := alg }
  if bits r 511 480 ≠ 0 ∨ bits r 127 16 ≠ 0 ∨ bits r 11 10 ≠ 0 ∨ bits r 7 6 ≠ 0 ∨ bits r 3 3 ≠ 0 ∨ 3 < alg.elt ∨
     alg.axes = 0 ∨ 2 ^ m.ext.length ≤ alg.axes ∨ alg.tileb % 512 ≠ 0 ∨ alg.tileb = 0 ∨ 65536 < alg.tileb ∨
     alg.ntile = 0 ∨ 65536 < alg.ntile ∨ x.dst % 512 ≠ 0 ∨ x.src % 512 ≠ 0 ∨ x.cnt % 8 ≠ 0
  then none
  else if mcast then some { x with alg := { alg with op := 0, skip := 0 } }
  else if alg.op = 3 ∨ alg.skip = 3 ∨ (alg.skip ≠ 0 ∧ alg.elt = 3) then none
  else some x

/-- Bytes of counts of a tile (R437, R438). -/
def Alg.countBytes (a : Alg) : Nat :=
  match a.skip with
  | 1 => a.tileb / eltBytes a.elt
  | 2 => a.tileb / (16 * eltBytes a.elt)
  | _ => 0

/-! ### Switch arithmetic (R436, R437) -/

def eltFmt (elt : Nat) : Fmt := match elt with | 0 => fp32 | 1 => fp16 | _ => bf16

/-- The combination of the contributions to one element, as codes. -/
def combine (elt op : Nat) (xs : List Nat) : Nat :=
  match xs with
  | [] => 0
  | x :: r =>
    if elt = 3 then
      match op with
      | 0 => (x + r.foldl (· + ·) 0) % 2 ^ 32
      | 1 => r.foldl (fun a b => if sextN 32 a < sextN 32 b then b else a) x
      | _ => r.foldl (fun a b => if sextN 32 b < sextN 32 a then b else a) x
    else
      let f := eltFmt elt
      match op with
      | 0 => roundTo f false .rn (r.foldl (fun a b => a.add false (f.value b)) (f.value x))
      | 1 => r.foldl (minmaxCode f true) (minmaxCode f true x x)
      | _ => r.foldl (minmaxCode f false) (minmaxCode f false x x)

/-- The elements of a byte list. -/
def eltsOf (elt : Nat) : Nat → List Byte → List Nat
  | 0, _ => []
  | n + 1, bs => ofLE (bs.take (eltBytes elt)) :: eltsOf elt n (bs.drop (eltBytes elt))

/-- A reduced tile with its counts, from the contributions by rank. -/
def reduceTile (a : Alg) (parts : List (List Byte)) : List Byte × List Byte :=
  let n := a.tileb / eltBytes a.elt
  let cols := parts.map (fun p => (eltsOf a.elt n p).toArray)
  let isNan (x : Nat) : Bool := decide (a.elt ≠ 3) && ((eltFmt a.elt).value x).isNan
  let at' (c : Array Nat) (i : Nat) : Nat := ((c)[i]?).getD 0
  let used (i : Nat) : List Nat :=
    match a.skip with
    | 1 => (cols.map (fun c => at' c i)).filter (fun x => !isNan x)
    | 2 => (cols.filter (fun c => !(List.range 32).any (fun k => isNan (at' c (i / 32 * 32 + k))))).map (fun c => at' c i)
    | _ => cols.map (fun c => at' c i)
  let res := (List.range n).flatMap (fun i => leBytes (combine a.elt a.op (used i)) (eltBytes a.elt))
  let counts := match a.skip with
    | 1 => (List.range n).map (fun i => BitVec.ofNat 8 (min (used i).length 255))
    | 2 => (List.range (n / 32)).flatMap (fun b => leBytes (used (32 * b)).length 2)
    | _ => []
  (res, counts)

/-! ### Packets (R444; log entry 21) -/

/-- The 16 bytes that begin a collective payload: tile, sender's rank, offset of the piece in its tile, the algorithm, the step of XRESH, the
weight of the sender's function, and whether a byte of the piece carries a soft-error mark (13 R231). -/
structure CHead where
  tile : Nat
  rank : Nat
  off : Nat
  alg : Alg
  step : Nat := 0
  weight : Nat := 0
  marked : Bool := false
  deriving DecidableEq, Repr

def CHead.bytes (h : CHead) : List Byte :=
  let a := h.alg
  let code := a.axes + 16 * a.elt + 64 * a.op + 256 * a.skip + 1024 * h.step + (if h.marked then 4096 else 0)
  leBytes (h.tile + 2 ^ 28 * (a.ntile - 1) + 2 ^ 56 * h.rank + 2 ^ 68 * h.off + 2 ^ 88 * (a.tileb / 512) + 2 ^ 96 * h.weight + 2 ^ 112 * code) 16

def headOf (bs : List Byte) : CHead :=
  let r := ofLE (bs.take 16)
  { tile := bits r 27 0, rank := bits r 67 56, off := bits r 87 68,
    alg := { axes := bits r 115 112, elt := bits r 117 116, op := bits r 119 118, skip := bits r 121 120, tileb := 512 * bits r 95 88,
             ntile := bits r 55 28 + 1 },
    step := bits r 123 122, weight := bits r 111 96, marked := bitOf r 124 }

/-- A collective packet of a handle and an instance. -/
def collPacket (type src dst handle inst : Nat) (h : CHead) (data : List Byte) : Packet :=
  { dst := dst, src := src, type := type, vc := 2, stat := 0, rid := 0, addr := handle + 2 ^ 32 * (inst % 2 ^ 20), broken := false,
    sealed := none, genuine := true, payload := h.bytes ++ data }

/-- The handle and the instance that a packet carries. -/
def pktHandle (p : Packet) : Nat := p.addr % 2 ^ 32
def pktInst (p : Packet) : Nat := p.addr / 2 ^ 32 % 2 ^ 20

/-- Bytes of a piece: 208, or 176 where the traffic of a VDN is sealed (27 R454). -/
def State.pieceLen (s : State) (vdn : Nat) : Nat := if s.doms.any (fun (e : Nat × Dom) => e.2.members.contains vdn) then 176 else 208

/-- A run cut into pieces of at most `n` with their offsets. -/
def pieces {α : Type} (n : Nat) (bs : List α) : List (Nat × List α) :=
  (List.range ((bs.length + n - 1) / n)).map (fun i => (n * i, (bs.drop (n * i)).take n))

/-- The packets of a run of bytes, each with its mark, to one destination, in pieces of `n`. -/
def collPackets (n type src dst handle inst : Nat) (h : CHead) (data : List (Byte × Bool)) : List Packet :=
  (pieces n data).map (fun (o, b) => collPacket type src dst handle inst { h with off := o, marked := b.any (fun x => x.2) } (b.map (fun x => x.1)))

/-- The packets of a run that is cut into the tiles of `h.alg`. -/
def tilePackets (n type src dst handle inst : Nat) (h : CHead) (data : List (Byte × Bool)) : List Packet :=
  (pieces h.alg.tileb data).flatMap (fun (o, b) => collPackets n type src dst handle inst { h with tile := o / h.alg.tileb } b)

/-! ### Cards of collectives -/

/-- First tile or step, tile count or tiles pushed in the step, and instance of a collective card. -/
def Card.tile0 (c : Card) : Nat := ((c.orig[0]?).getD 0).toNat
def Card.tiles (c : Card) : Nat := ((c.orig[1]?).getD 0).toNat
def Card.range (c : Card) : List Nat := (List.range c.tiles).map (· + c.tile0)
def Card.inst (c : Card) : Nat := ((c.orig[2]?).getD 0).toNat
def Card.withInst (c : Card) (n : Nat) : Card := { c with orig := [(c.orig[0]?).getD 0, (c.orig[1]?).getD 0, (n : Int)] }

/-- The reduction record of a card. -/
def State.redOf (s : State) (c : Card) : Option (RedRec × Mesh × List Nat) :=
  match s.meshOf c.func with
  | none => none
  | some (m, x) => (Machine.redOf c.srec m (decide (c.maj = 0xE2))).map (fun r => (r, m, x))

/-- The layouts of an XRESH card. -/
def State.reshOf (s : State) (c : Card) : Option (Layout × Layout × Mesh × List Nat × List Exch) :=
  match s.meshOf c.func with
  | none => none
  | some (m, x) =>
    match layoutOf c.srec m false, layoutOf c.drec m true with
    | some a, some b => (reshSteps m a b).map (fun st => (a, b, m, x, st))
    | _, _ => none

/-- Footprints of a collective card (R446, R447). -/
def State.collFeet (s : State) (c : Card) : List Foot × List Foot :=
  let f (lo n : Nat) : List Foot := if n = 0 then [] else [⟨0, 0, lo, lo + n - 1⟩]
  if c.maj = 0xE0 then
    match s.reshOf c with
    | some (a, b, m, _, _) => (f a.base (a.bytes m), f b.base b.wlen)
    | none => ([], [])
  else
    match s.redOf c with
    | some (r, m, x) =>
      let t := r.alg.tileb
      let n := if c.maj = 0xE2 then (m.group r.alg.axes x).length else 1
      (f (r.src + c.tile0 * t) (c.tiles * t),
       f (r.dst + c.tile0 * n * t) (c.tiles * n * t) ++
         f (r.cnts + c.tile0 * r.alg.countBytes) (c.tiles * r.alg.countBytes))
    | none => ([], [])

/-- Read and write footprints of any card. -/
def State.feet (s : State) (c : Card) : List Foot × List Foot := if 0xE0 ≤ c.maj then s.collFeet c else s.cardFeet c

end Sys2Proof.Machine
end

