-- ==== Sys2Proof/Decode.lean ====
section
/-!
DEFINITION. The 96-bit instruction word (02 Table 2-1): its fields, the decoder, total on any word and rejecting by name,
and the encoder, both written from Tables 2-1, 2-2, 2-6, 3-1, 5-1, 6-1, 9-1, 11-1, 11-2, 15-1, 15-2, 18-1, 18-2, 19-6,
25-5, 26-6a and 26-7. A field the instruction does not use is ignored by the decoder (R28), and the encoder writes it as
opas does, 0xFF in a register field and 0 in IMM.
-/
namespace Sys2Proof

/-- The fields of a word (Table 2-1). -/
structure Raw where
  imm : Word
  c : RegCode
  b : RegCode
  a : RegCode
  d : RegCode
  form : BitVec 2
  pg : BitVec 3
  negp : Bool
  rsbm : BitVec 6
  wsb : BitVec 3
  yld : Bool
  stall : BitVec 4
  fn : BitVec 4
  maj : BitVec 8
  deriving DecidableEq, Repr

/-- Why a word is no instruction (Table 2-5); every one raises ILLEGAL when it is executed. -/
inductive DecodeErr where
  /-- MAJ 0x00, or not in Table 2-6 -/ | maj
  /-- FN not listed -/ | fn
  /-- FORM not listed -/ | form
  /-- a nonzero reserved field or a value the sub-field map does not allow -/ | reserved
  /-- a format code not listed (R110) -/ | operand
  /-- a scope code above 11 (R235) -/ | scope
  /-- a check of `Instr.wfErr` -/ | ill (e : WfErr)
  deriving DecidableEq, Repr

/-- Bits [95:0] of a word from its fields. -/
def Raw.pack (r : Raw) : InstrWord :=
  r.imm ++ r.c ++ r.b ++ r.a ++ r.d ++ r.form ++ r.pg ++ BitVec.ofBool r.negp ++ r.rsbm ++ r.wsb ++
    BitVec.ofBool r.yld ++ r.stall ++ r.fn ++ r.maj

/-- The fields of a word. -/
def Raw.unpack (w : InstrWord) : Raw where
  imm := w.extractLsb' 64 32
  c := w.extractLsb' 56 8
  b := w.extractLsb' 48 8
  a := w.extractLsb' 40 8
  d := w.extractLsb' 32 8
  form := w.extractLsb' 30 2
  pg := w.extractLsb' 27 3
  negp := w.getLsbD 26
  rsbm := w.extractLsb' 20 6
  wsb := w.extractLsb' 17 3
  yld := w.getLsbD 16
  stall := w.extractLsb' 12 4
  fn := w.extractLsb' 8 4
  maj := w.extractLsb' 0 8

def Raw.hdr (r : Raw) : Hdr := ⟨r.pg, r.negp, r.rsbm, r.wsb, r.yld, r.stall⟩

/-! ### Codes of the suffixes -/

def SatMode.code : SatMode → BitVec 4 | .wrap => 0 | .sat => 1 | .usat => 2
def SatMode.ofCode (x : BitVec 4) : Option SatMode := [SatMode.wrap, .sat, .usat][x.toNat]?
def CarryMode.code : CarryMode → BitVec 4 | .add => 0 | .addc _ => 1 | .sub => 2 | .subc _ => 3
def CarryMode.ofCode (x : BitVec 4) (c : RegCode) : Option CarryMode :=
  [CarryMode.add, .addc c, .sub, .subc c][x.toNat]?
/-- The C field of IADDX, 0xFF where it is unused. -/
def CarryMode.fld : CarryMode → RegCode | .addc c | .subc c => c | .add | .sub => 0xFF
def HiMode.code : HiMode → BitVec 4 | .s => 0 | .u => 1 | .su => 2
def HiMode.ofCode (x : BitVec 4) : Option HiMode := [HiMode.s, .u, .su][x.toNat]?

/-- FN of a comparison (Table 3-3). -/
def Cmp.code : Cmp → BitVec 4
  | .ltS => 0 | .eq => 1 | .leS => 2 | .gtS => 3 | .ne => 4 | .geS => 5
  | .ltU => 8 | .eqU => 9 | .leU => 10 | .gtU => 11 | .neU => 12 | .geU => 13
def Cmp.ofCode (x : BitVec 4) : Option Cmp :=
  match x.toNat with
  | 0 => some .ltS | 1 => some .eq | 2 => some .leS | 3 => some .gtS | 4 => some .ne | 5 => some .geS
  | 8 => some .ltU | 9 => some .eqU | 10 => some .leU | 11 => some .gtU | 12 => some .neU | 13 => some .geU
  | _ => none

/-- FN of FSETP (Table 5-2). -/
def FCmp.code : FCmp → BitVec 4
  | .lt => 0 | .eq => 1 | .le => 2 | .gt => 3 | .ne => 4 | .ge => 5 | .num => 6 | .nan => 7
  | .ltu => 8 | .equ => 9 | .leu => 10 | .gtu => 11 | .neu => 12 | .geu => 13
def FCmp.ofCode (x : BitVec 4) : Option FCmp :=
  [FCmp.lt, .eq, .le, .gt, .ne, .ge, .num, .nan, .ltu, .equ, .leu, .gtu, .neu, .geu][x.toNat]?

def Rm.code : Rm → BitVec 2 | .rn => 0 | .rz => 1 | .ru => 2 | .rd => 3
def Rm.of (x : BitVec 2) : Rm := match x.toNat with | 0 => .rn | 1 => .rz | 2 => .ru | _ => .rd
def Cv.code : Cv → BitVec 2 | .rn => 0 | .rz => 1 | .ro => 2
def Cv.of (x : BitVec 2) : Option Cv := [Cv.rn, .rz, .ro][x.toNat]?
def CvD.code : CvD → BitVec 2 | .rn => 0 | .rz => 1 | .ro => 2 | .slot => 3
def CvD.of (x : BitVec 2) : CvD := match x.toNat with | 0 => .rn | 1 => .rz | 2 => .ro | _ => .slot
def FKind.fn : FKind → BitVec 4 | .f32 => 0 | .f16 => 1 | .bf16 => 2
def FKind.ofFn (x : BitVec 4) : Option FKind := [FKind.f32, .f16, .bf16][x.toNat]?
/-- The format codes of CVTFF (R110). -/
def FKind.fmt : FKind → BitVec 4 | .f32 => 1 | .f16 => 2 | .bf16 => 3
def FKind.ofFmt (x : BitVec 4) : Option FKind :=
  match x.toNat with | 1 => some .f32 | 2 => some .f16 | 3 => some .bf16 | _ => none
def IKind.code : IKind → BitVec 2 | .s32 => 0 | .u32 => 1 | .s64 => 2 | .u64 => 3
def IKind.of (x : BitVec 2) : IKind := match x.toNat with | 0 => .s32 | 1 => .u32 | 2 => .s64 | _ => .u64

/-- FN of a load (Table 6-2). -/
def LdSize.code : LdSize → BitVec 4
  | .u8 => 0 | .s8 => 8 | .u16 => 1 | .s16 => 9 | .w32 => 2 | .d64 => 3 | .q128 => 4 | .u32d => 5 | .s32d => 0xD
def LdSize.ofCode (x : BitVec 4) : Option LdSize :=
  match x.toNat with
  | 0 => some .u8 | 8 => some .s8 | 1 => some .u16 | 9 => some .s16 | 2 => some .w32 | 3 => some .d64
  | 4 => some .q128 | 5 => some .u32d | 0xD => some .s32d | _ => none
def StSize.code : StSize → BitVec 4 | .b8 => 0 | .b16 => 1 | .b32 => 2 | .b64 => 3 | .b128 => 4
def StSize.ofCode (x : BitVec 4) : Option StSize := [StSize.b8, .b16, .b32, .b64, .b128][x.toNat]?
def AtSize.code : AtSize → BitVec 2 | .w32 => 0 | .d64 => 1 | .q128 => 2
def AtSize.ofCode (x : BitVec 2) : Option AtSize := [AtSize.w32, .d64, .q128][x.toNat]?
def WSize.code : WSize → BitVec 2 | .w32 => 0 | .d64 => 1
def WSize.ofCode (x : BitVec 2) : Option WSize := [WSize.w32, .d64][x.toNat]?
def Ord4.code : Ord4 → BitVec 2 | .relaxed => 0 | .acquire => 1 | .release => 2 | .acqRel => 3
def Ord4.of (x : BitVec 2) : Ord4 :=
  match x.toNat with | 0 => .relaxed | 1 => .acquire | 2 => .release | _ => .acqRel
/-- Table 14-1; a code above 11 names no scope (R235). -/
def Scope.ofCode (x : BitVec 4) : Option Scope :=
  [Scope.lane, .group, .team, .cluster, .die, .part, .device, .system, .peer, .mesh, .domain, .fabric][x.toNat]?

/-- FN of an atomic (Table 15-4). -/
def AtomOp.code : AtomOp → BitVec 4
  | .add => 0 | .minS => 1 | .maxS => 2 | .minU => 3 | .maxU => 4 | .and => 5 | .or => 6 | .xor => 7 | .exch => 8
  | .cas _ => 9 | .inc => 10 | .dec => 11 | .fadd => 12 | .fmin => 13 | .fmax => 14
def AtomOp.ofCode (x : BitVec 4) (c : RegCode) : Option AtomOp :=
  [AtomOp.add, .minS, .maxS, .minU, .maxU, .and, .or, .xor, .exch, .cas c, .inc, .dec, .fadd, .fmin, .fmax][x.toNat]?
def AtomOp.fld : AtomOp → RegCode
  | .cas c => c
  | .add | .minS | .maxS | .minU | .maxU | .and | .or | .xor | .exch | .inc | .dec | .fadd | .fmin | .fmax => 0xFF

def VoteMode.code : VoteMode → BitVec 2 | .all => 0 | .any => 1 | .uni => 2 | .ballot => 3
def VoteMode.of (x : BitVec 2) : VoteMode :=
  match x.toNat with | 0 => .all | 1 => .any | 2 => .uni | _ => .ballot
def ShflMode.code : ShflMode → BitVec 4 | .pick => 0 | .shift => 1 | .rot => 2 | .xor => 3
def ShflMode.ofCode (x : BitVec 4) : Option ShflMode := [ShflMode.pick, .shift, .rot, .xor][x.toNat]?
def ReduxOp.code : ReduxOp → BitVec 4
  | .add => 0 | .minS => 1 | .maxS => 2 | .minU => 3 | .maxU => 4 | .and => 5 | .or => 6 | .xor => 7
  | .fadd => 8 | .fmin => 9 | .fmax => 10
def ReduxOp.ofCode (x : BitVec 4) : Option ReduxOp :=
  [ReduxOp.add, .minS, .maxS, .minU, .maxU, .and, .or, .xor, .fadd, .fmin, .fmax][x.toNat]?
def MatchMode.isAll : MatchMode → Bool | .any => false | .all _ => true
def MatchMode.fld : MatchMode → RegCode | .any => 0xFF | .all c => c

/-- FN of an instruction with one flag in FN 0 and 1. -/
def fnBit (b : Bool) : BitVec 4 := if b then 1 else 0
def fn4 (x y z w : Bool) : BitVec 4 := BitVec.ofBool w ++ BitVec.ofBool z ++ BitVec.ofBool y ++ BitVec.ofBool x
def fnCv (c : BitVec 2) (s z : Bool) : BitVec 4 := BitVec.ofBool z ++ BitVec.ofBool s ++ c
def fnRm (m : Rm) (s t : Bool) : BitVec 4 := fnCv m.code s t
def fnHf (bf : Bool) (m : Rm) (s : Bool) : BitVec 4 := BitVec.ofBool s ++ m.code ++ BitVec.ofBool bf

/-- 0xFF, as opas writes a register field that the instruction does not use. -/
def nf : RegCode := 0xFF

/-- The IMM of Table 15-2. -/
def syncImm (cl : Bool) (size ord : BitVec 2) (scope : BitVec 4) : Word :=
  0#23 ++ BitVec.ofBool cl ++ size ++ ord ++ scope

/-- The IMM of Table 11-2. -/
def matImm (w : Rows) (raw intw : Bool) (slot : BitVec 3) : Word :=
  0#8 ++ w.cnt ++ w.q0 ++ BitVec.ofBool raw ++ BitVec.ofBool intw ++ w.bank ++ 0#1 ++ slot

/-- TV and TAG (Table 18-2). -/
def tagImm : Option (BitVec 6) → BitVec 7
  | some t => 1#1 ++ t
  | none => 0

/-- The IMM of Table 18-2. -/
def Cmd.im (k : Cmd) (slot : BitVec 3) : Word :=
  0#17 ++ slot ++ k.scope.code ++ BitVec.ofBool k.bar ++ tagImm k.tag

/-- The IMM of Table 26-7. -/
def ReshCmd.im (k : ReshCmd) : Word := 0#19 ++ BitVec.ofBool k.pers ++ k.scope.code ++ 0#1 ++ tagImm k.tag

def Drain.fn (z : Bool) : Drain → BitVec 4
  | .raw => fnCv 3 false z
  | .cvt cv sat _ _ => fnCv cv.code sat z
def Drain.im (w : Rows) : Drain → Word
  | .raw => matImm w true false 0
  | .cvt _ _ slot intw => matImm w false intw slot

def Sel.form {n : Nat} : Sel n → BitVec 2 | .reg _ => 0 | .imm _ => 3
def Sel.fld {n : Nat} : Sel n → RegCode | .reg c => c | .imm _ => 0xFF
def Sel.im {n : Nat} : Sel n → Word | .reg _ => 0 | .imm v => v.setWidth 32
def ShflB.form : ShflB → BitVec 2 | .reg _ => 0 | .imm .. => 3
def ShflB.fld : ShflB → RegCode | .reg c => c | .imm .. => 0xFF
def ShflB.im : ShflB → Word | .reg _ => 0 | .imm b lw => 0#21 ++ lw ++ 0#2 ++ b

/-! ### Decoding -/

def need {α β : Type} (o : Option α) (e : DecodeErr) (k : α → Except DecodeErr β) : Except DecodeErr β :=
  match o with
  | some x => k x
  | none => .error e

def guardE {β : Type} (b : Bool) (e : DecodeErr) (k : Except DecodeErr β) : Except DecodeErr β :=
  if b then k else .error e

/-- FN 0 alone is listed. -/
def fn0 (r : Raw) (k : Except DecodeErr Instr) : Except DecodeErr Instr := guardE (decide (r.fn = 0)) .fn k

/-- FN 0 and 1 are listed. -/
def bit01 (x : BitVec 4) : Option Bool := match x.toNat with | 0 => some false | 1 => some true | _ => none

/-- The instruction that FN numbers. -/
def fnCase (r : Raw) (l : List Instr) : Except DecodeErr Instr := need l[r.fn.toNat]? .fn .ok

/-- FORM 00 with IMM reserved (R29). -/
def Raw.form0 (r : Raw) (k : Except DecodeErr Instr) : Except DecodeErr Instr :=
  guardE (decide (r.form = 0)) .form (guardE (decide (r.imm = 0)) .reserved k)

/-- FORM 00 where the description assigns IMM[n−1:0]. -/
def Raw.form0i (r : Raw) (n : Nat) (k : Except DecodeErr Instr) : Except DecodeErr Instr :=
  guardE (decide (r.form = 0)) .form (guardE (decide (r.imm.toNat < 2 ^ n)) .reserved k)

def Raw.form1 (r : Raw) (k : Except DecodeErr Instr) : Except DecodeErr Instr := guardE (decide (r.form = 1)) .form k

def Raw.form2 (r : Raw) (k : Except DecodeErr Instr) : Except DecodeErr Instr := guardE (decide (r.form = 2)) .form k

/-- FORM 11 with IMM[31:n] reserved. -/
def Raw.form3 (r : Raw) (n : Nat) (k : Except DecodeErr Instr) : Except DecodeErr Instr :=
  guardE (decide (r.form = 3)) .form (guardE (decide (r.imm.toNat < 2 ^ n)) .reserved k)

/-- Operand B: a register in FORM 00, IMM in FORM 01 (R29). -/
def Raw.src (r : Raw) (k : Src → Except DecodeErr Instr) : Except DecodeErr Instr :=
  match r.form.toNat with
  | 0 => guardE (decide (r.imm = 0)) .reserved (k (.reg r.b))
  | 1 => k (.imm r.imm)
  | _ => .error .form

/-- The source of MOV: the A field in FORM 00 (Table 3-1). -/
def Raw.srcA (r : Raw) (k : Src → Except DecodeErr Instr) : Except DecodeErr Instr :=
  match r.form.toNat with
  | 0 => guardE (decide (r.imm = 0)) .reserved (k (.reg r.a))
  | 1 => k (.imm r.imm)
  | _ => .error .form

/-- A selector: register field `f` in FORM 00, IMM[n−1:0] in FORM 11. -/
def Raw.sel (r : Raw) (n : Nat) (f : RegCode) (k : Sel n → Except DecodeErr Instr) : Except DecodeErr Instr :=
  match r.form.toNat with
  | 0 => guardE (decide (r.imm = 0)) .reserved (k (.reg f))
  | 3 => guardE (decide (r.imm.toNat < 2 ^ n)) .reserved (k (.imm (r.imm.extractLsb' 0 n)))
  | _ => .error .form

/-- The B operand of SHFL (R164): IMM[5:0] and IMM[10:8] in FORM 11. -/
def Raw.shflB (r : Raw) (k : ShflB → Except DecodeErr Instr) : Except DecodeErr Instr :=
  match r.form.toNat with
  | 0 => guardE (decide (r.imm = 0)) .reserved (k (.reg r.b))
  | 3 => guardE (decide (r.imm.toNat < 2 ^ 11) && decide (r.imm.extractLsb' 6 2 = 0)) .reserved
      (k (.imm (r.imm.extractLsb' 0 6) (r.imm.extractLsb' 8 3)))
  | _ => .error .form

/-- RAW, INTW, SLOT and the FN of MDRN and MDRNR; `none` where a reserved bit is set: under RAW the slot is reserved, and INTW
and the conversion of FN change nothing (Table 11-2, R194). -/
def Raw.drain (r : Raw) : Option Drain :=
  if r.imm.getLsbD 3 then none
  else if r.imm.getLsbD 7 then if r.imm.extractLsb' 0 3 = 0 then some .raw else none
  else some (.cvt (CvD.of (r.fn.extractLsb' 0 2)) (r.fn.getLsbD 2) (r.imm.extractLsb' 0 3) (r.imm.getLsbD 6))

/-- TV and TAG: TV = 0 with a nonzero TAG is illegal (R313). -/
def Raw.tag (r : Raw) : Option (Option (BitVec 6)) :=
  if r.imm.getLsbD 6 then some (some (r.imm.extractLsb' 0 6))
  else if r.imm.extractLsb' 0 6 = 0 then some none else none

def Raw.cmd (r : Raw) (k : Cmd → Except DecodeErr Instr) : Except DecodeErr Instr :=
  need (Scope.ofCode (r.imm.extractLsb' 8 4)) .scope fun sc =>
    need r.tag .reserved fun t => k ⟨sc, r.imm.getLsbD 7, t⟩

def Raw.reshCmd (r : Raw) (k : ReshCmd → Except DecodeErr Instr) : Except DecodeErr Instr :=
  need (Scope.ofCode (r.imm.extractLsb' 8 4)) .scope fun sc =>
    need r.tag .reserved fun t => guardE (!r.imm.getLsbD 7) .reserved (k ⟨r.imm.getLsbD 12, sc, t⟩)

/-- MAJ 0x00 to 0x0F (Table 2-6). -/
def decode0 (r : Raw) : Except DecodeErr Instr :=
  match r.maj.toNat with
  | 0x01 => need (bit01 r.fn) .fn fun w => r.srcA fun a => .ok (.mov r.hdr w r.d a)
  | 0x02 => fn0 r (r.form3 12 (.ok (.movs r.hdr r.d (r.imm.extractLsb' 0 12))))
  | 0x03 => fn0 r (r.form3 12 (.ok (.movsw r.hdr r.d (r.imm.extractLsb' 0 12))))
  | 0x04 => need (SatMode.ofCode r.fn) .fn fun m => r.src fun b => .ok (.iadd r.hdr m r.d r.a b)
  | 0x05 => need (SatMode.ofCode r.fn) .fn fun m => r.src fun b => .ok (.isub r.hdr m r.d r.a b)
  | 0x06 => need (CarryMode.ofCode r.fn r.c) .fn fun m => r.form0i 3 (.ok (.iaddx r.hdr m r.d r.a r.b (r.imm.extractLsb' 0 3)))
  | 0x07 => fn0 r (r.src fun b => .ok (.imul r.hdr r.d r.a b))
  | 0x08 => need (HiMode.ofCode r.fn) .fn fun m => r.src fun b => .ok (.imulh r.hdr m r.d r.a b)
  | 0x09 => fn0 r (r.src fun b => .ok (.imad r.hdr r.d r.a b r.c))
  | 0x0A => need (bit01 r.fn) .fn fun m => r.src fun b => .ok (.imadw r.hdr (!m) r.d r.a b r.c)
  | 0x0B => need (bit01 r.fn) .fn fun m => r.src fun b => .ok (.idiv r.hdr (!m) r.d r.a b)
  | 0x0C => need (bit01 r.fn) .fn fun m => r.src fun b => .ok (.irem r.hdr (!m) r.d r.a b)
  | 0x0D => need (bit01 r.fn) .fn fun m => r.src fun b => .ok (.imin r.hdr (!m) r.d r.a b)
  | 0x0E => need (bit01 r.fn) .fn fun m => r.src fun b => .ok (.imax r.hdr (!m) r.d r.a b)
  | 0x0F => need (bit01 r.fn) .fn fun m => r.form0 (.ok (.iabs r.hdr m r.d r.a))
  | _ => .error .maj

/-- MAJ 0x10 to 0x1F (Table 2-6). -/
def decode1 (r : Raw) : Except DecodeErr Instr :=
  match r.maj.toNat with
  | 0x10 => fn0 r (r.src fun b => .ok (.and r.hdr r.d r.a b))
  | 0x11 => fn0 r (r.src fun b => .ok (.or r.hdr r.d r.a b))
  | 0x12 => fn0 r (r.src fun b => .ok (.xor r.hdr r.d r.a b))
  | 0x13 => fn0 r (r.src fun b => .ok (.andn r.hdr r.d r.a b))
  | 0x14 => fn0 r (r.form3 8 (.ok (.lop3 r.hdr r.d r.a r.b r.c (r.imm.extractLsb' 0 8))))
  | 0x15 => fn0 r (r.src fun b => .ok (.shl r.hdr r.d r.a b))
  | 0x16 => fn0 r (r.src fun b => .ok (.shr r.hdr r.d r.a b))
  | 0x17 => fn0 r (r.src fun b => .ok (.sar r.hdr r.d r.a b))
  | 0x18 => fn0 r (r.src fun b => .ok (.rol r.hdr r.d r.a b))
  | 0x19 => need (bit01 r.fn) .fn fun m => r.sel 5 r.c fun n => .ok (.fshf r.hdr m r.d r.a r.b n)
  | 0x1A => fn0 r (r.form0 (.ok (.popc r.hdr r.d r.a)))
  | 0x1B => fn0 r (r.form0 (.ok (.clz r.hdr r.d r.a)))
  | 0x1C => fn0 r (r.form0 (.ok (.brev r.hdr r.d r.a)))
  | 0x1D => need (bit01 r.fn) .fn fun m => r.sel 16 r.b fun n => .ok (.bfx r.hdr m r.d r.a n)
  | 0x1E => fn0 r (r.sel 16 r.c fun n => .ok (.bfi r.hdr r.d r.a r.b n))
  | 0x1F => fn0 r (r.sel 20 r.c fun n => .ok (.prmt r.hdr r.d r.a r.b n))
  | _ => .error .maj

/-- MAJ 0x20 to 0x2F (Table 2-6). -/
def decode2 (r : Raw) : Except DecodeErr Instr :=
  match r.maj.toNat with
  | 0x20 => need (bit01 r.fn) .fn fun m => r.src fun b => .ok (.sel r.hdr m r.d r.a b r.c)
  | 0x21 => need (Cmp.ofCode r.fn) .fn fun m => r.src fun b => .ok (.isetp r.hdr m r.d r.a b)
  | 0x22 => need (Cmp.ofCode r.fn) .fn fun m => r.src fun b => .ok (.icmps r.hdr m r.d r.a b)
  | 0x23 => fn0 r (r.form3 8 (.ok (.plop r.hdr r.d r.a r.b r.c (r.imm.extractLsb' 0 8))))
  | 0x24 => fn0 r (r.form0 (.ok (.p2g r.hdr r.d)))
  | 0x25 => fn0 r (r.form3 7 (.ok (.g2p r.hdr r.a (r.imm.extractLsb' 0 7))))
  | 0x26 => fn0 r (r.src fun b => .ok (.iadd64 r.hdr r.d r.a b))
  | 0x27 => fn0 r (r.src fun b => .ok (.isub64 r.hdr r.d r.a b))
  | 0x28 => need (bit01 r.fn) .fn fun m => r.form0i 3 (.ok (.lea r.hdr m r.d r.a r.b (r.imm.extractLsb' 0 3)))
  | 0x29 => need (Cmp.ofCode r.fn) .fn fun m => r.src fun b => .ok (.isetp64 r.hdr m r.d r.a b)
  | 0x2A => fn0 r (r.src fun b => .ok (.shl64 r.hdr r.d r.a b))
  | 0x2B => need (bit01 r.fn) .fn fun m => r.src fun b => .ok (.shr64 r.hdr m r.d r.a b)
  | 0x2C => guardE (!r.fn.getLsbD 3) .fn (r.src fun b => .ok (.idp4 r.hdr (r.fn.getLsbD 0) (r.fn.getLsbD 1) (r.fn.getLsbD 2) r.d r.a b r.c))
  | 0x2D => guardE (!r.fn.getLsbD 3) .fn (r.src fun b => .ok (.idp2 r.hdr (r.fn.getLsbD 0) (r.fn.getLsbD 1) (r.fn.getLsbD 2) r.d r.a b r.c))
  | _ => .error .maj

/-- MAJ 0x40 to 0x4F (Table 2-6). -/
def decode4 (r : Raw) : Except DecodeErr Instr :=
  match r.maj.toNat with
  | 0x40 => guardE (!r.fn.getLsbD 3) .fn (r.src fun b => .ok (.fadd r.hdr (Rm.of (r.fn.extractLsb' 0 2)) (r.fn.getLsbD 2) r.d r.a b))
  | 0x41 => guardE (!r.fn.getLsbD 3 && !r.fn.getLsbD 2) .fn (r.src fun b => .ok (.fmul r.hdr (Rm.of (r.fn.extractLsb' 0 2)) r.d r.a b))
  | 0x42 => r.src fun b => .ok (.ffma r.hdr (Rm.of (r.fn.extractLsb' 0 2)) (r.fn.getLsbD 2) (r.fn.getLsbD 3) r.d r.a b r.c)
  | 0x43 => fn0 r (r.src fun b => .ok (.fmin r.hdr r.d r.a b))
  | 0x44 => fn0 r (r.src fun b => .ok (.fmax r.hdr r.d r.a b))
  | 0x45 => need (FCmp.ofCode r.fn) .fn fun m => r.src fun b => .ok (.fsetp r.hdr m r.d r.a b)
  | 0x46 => need (FKind.ofFn r.fn) .fn fun m => r.form0 (.ok (.fclass r.hdr m r.d r.a))
  | 0x47 => fn0 r (r.src fun b => .ok (.fdiv r.hdr r.d r.a b))
  | 0x48 => fn0 r (r.form0 (.ok (.fsqrt r.hdr r.d r.a)))
  | 0x49 => fn0 r (r.form0 (.ok (.frcp r.hdr r.d r.a)))
  | 0x4A => fn0 r (r.form0 (.ok (.frsq r.hdr r.d r.a)))
  | 0x4B => fn0 r (r.form0 (.ok (.fex2 r.hdr r.d r.a)))
  | 0x4C => fn0 r (r.form0 (.ok (.flg2 r.hdr r.d r.a)))
  | 0x4D => fn0 r (r.form0 (.ok (.fsinpi r.hdr r.d r.a)))
  | 0x4E => fn0 r (r.form0 (.ok (.fcospi r.hdr r.d r.a)))
  | 0x4F => fn0 r (r.form0 (.ok (.ftanh r.hdr r.d r.a)))
  | _ => .error .maj

/-- MAJ 0x50 to 0x5F (Table 2-6). -/
def decode5 (r : Raw) : Except DecodeErr Instr :=
  match r.maj.toNat with
  | 0x50 => r.src fun b => .ok (.hadd2 r.hdr (r.fn.getLsbD 0) (Rm.of (r.fn.extractLsb' 1 2)) (r.fn.getLsbD 3) r.d r.a b)
  | 0x51 => guardE (!r.fn.getLsbD 3) .fn (r.src fun b => .ok (.hmul2 r.hdr (r.fn.getLsbD 0) (Rm.of (r.fn.extractLsb' 1 2)) r.d r.a b))
  | 0x52 => guardE (!r.fn.getLsbD 3) .fn (r.src fun b => .ok (.hfma2 r.hdr (r.fn.getLsbD 0) (Rm.of (r.fn.extractLsb' 1 2)) r.d r.a b r.c))
  | 0x53 => guardE (!r.fn.getLsbD 3 && !r.fn.getLsbD 2) .fn (r.src fun b => .ok (.hmnmx2 r.hdr (r.fn.getLsbD 0) (r.fn.getLsbD 1) r.d r.a b))
  | 0x54 => guardE (!r.fn.getLsbD 3) .fn (need (Cv.of (r.fn.extractLsb' 0 2)) .fn fun cv => need (FKind.ofFmt (r.imm.extractLsb' 0 4)) .operand fun dst => need (FKind.ofFmt (r.imm.extractLsb' 4 4)) .operand fun src => r.form3 8 (.ok (.cvtff r.hdr cv (r.fn.getLsbD 2) dst src r.d r.a)))
  | 0x55 => need (Cv.of (r.fn.extractLsb' 0 2)) .fn fun cv => r.form3 1 (.ok (.cvtfi r.hdr cv (IKind.of (r.fn.extractLsb' 2 2)) (r.imm.getLsbD 0) r.d r.a))
  | 0x56 => need (Cv.of (r.fn.extractLsb' 0 2)) .fn fun cv => r.form0 (.ok (.cvtif r.hdr cv (IKind.of (r.fn.extractLsb' 2 2)) r.d r.a))
  | 0x57 => guardE (!r.fn.getLsbD 3) .fn (r.form3 3 (.ok (.cvtpk r.hdr (CvD.of (r.fn.extractLsb' 0 2)) (r.fn.getLsbD 2) r.d r.a r.b (r.imm.extractLsb' 0 3))))
  | 0x58 => guardE (!r.fn.getLsbD 3) .fn (need (Cv.of (r.fn.extractLsb' 0 2)) .fn fun cv => r.form3 3 (.ok (.cvtunpk r.hdr cv (r.fn.getLsbD 2) r.d r.a r.b (r.imm.extractLsb' 0 3))))
  | 0x59 => guardE (!r.fn.getLsbD 3 && !r.fn.getLsbD 2) .fn (r.form0 (.ok (.frnd r.hdr (Rm.of (r.fn.extractLsb' 0 2)) r.d r.a)))
  | 0x5A => guardE (!r.fn.getLsbD 3 && !r.fn.getLsbD 2) .fn (r.src fun b => .ok (.fscale r.hdr (Rm.of (r.fn.extractLsb' 0 2)) r.d r.a b))
  | 0x5B => fn0 r (r.form0 (.ok (.fgetexp r.hdr r.d r.a)))
  | _ => .error .maj

/-- MAJ 0x60 to 0x6F (Table 2-6). -/
def decode6 (r : Raw) : Except DecodeErr Instr :=
  match r.maj.toNat with
  | 0x60 => fn0 r (r.form1 (.ok (.bra r.hdr (r.imm.extractLsb' 3 29) (r.imm.extractLsb' 0 3))))
  | 0x61 => fn0 r (r.form0 (.ok (.brx r.hdr r.a)))
  | 0x62 => fn0 r (r.form1 (.ok (.call r.hdr r.d (r.imm.extractLsb' 3 29) (r.imm.extractLsb' 0 3))))
  | 0x63 => fn0 r (r.form0 (.ok (.callx r.hdr r.d r.a)))
  | 0x64 => fn0 r (r.form0 (.ok (.ret r.hdr r.a)))
  | 0x65 => fn0 r (r.form0 (.ok (.exit r.hdr)))
  | 0x66 => fn0 r (r.form3 16 (.ok (.trap r.hdr (r.imm.extractLsb' 0 16))))
  | 0x67 => fn0 r (r.form0 (.ok (.nop r.hdr)))
  | 0x68 => fn0 r (r.form0 (.ok (.yield r.hdr)))
  | 0x69 => fn0 r (r.form3 16 (.ok (.bpt r.hdr (r.imm.extractLsb' 0 16))))
  | 0x6A => fn0 r (r.src fun b => .ok (.sleep r.hdr b))
  | _ => .error .maj

/-- MAJ 0x70 to 0x7F (Table 2-6). -/
def decode7 (r : Raw) : Except DecodeErr Instr :=
  match r.maj.toNat with
  | 0x70 => need (LdSize.ofCode r.fn) .fn fun sz => r.form2 (.ok (.ld r.hdr sz r.d r.a r.imm))
  | 0x71 => need (StSize.ofCode r.fn) .fn fun sz => r.form2 (.ok (.st r.hdr sz r.a r.imm r.b))
  | 0x72 => need (LdSize.ofCode r.fn) .fn fun sz => r.form2 (.ok (.ldl r.hdr sz r.d r.a r.imm))
  | 0x73 => need (StSize.ofCode r.fn) .fn fun sz => r.form2 (.ok (.stl r.hdr sz r.a r.imm r.b))
  | 0x74 => need (bit01 r.fn) .fn fun m => r.form2 (.ok (.pref r.hdr m r.a r.imm))
  | 0x75 => need (LdSize.ofCode r.fn) .fn fun sz => r.form2 (.ok (.ldc r.hdr sz r.d r.a r.imm))
  | _ => .error .maj

/-- MAJ 0x80 to 0x8F (Table 2-6). -/
def decode8 (r : Raw) : Except DecodeErr Instr :=
  match r.maj.toNat with
  | 0x80 => fn0 r (r.form3 4 (.ok (.kjoin r.hdr (r.imm.extractLsb' 0 4))))
  | 0x81 => fn0 r (r.form3 4 (.ok (.kleave r.hdr (r.imm.extractLsb' 0 4))))
  | 0x82 => fn0 r (r.form3 4 (.ok (.kwait r.hdr (r.imm.extractLsb' 0 4))))
  | 0x83 => r.form3 4 (fnCase r [.ksetG r.hdr (r.imm.extractLsb' 0 4) r.a, .ksetCohort r.hdr (r.imm.extractLsb' 0 4), .ksetClr r.hdr (r.imm.extractLsb' 0 4), .ksetLive r.hdr (r.imm.extractLsb' 0 4)])
  | 0x84 => match r.fn.toNat with
    | 0 => r.form3 4 (.ok (.kmov r.hdr r.d (r.imm.extractLsb' 0 4)))
    | 1 => guardE (decide (r.imm.extractLsb' 4 4 = 0)) .reserved (r.form3 12 (.ok (.kmovK r.hdr (r.imm.extractLsb' 0 4) (r.imm.extractLsb' 8 4))))
    | _ => .error .fn
  | 0x85 => fn0 r (r.form0 (.ok (.elect r.hdr r.d)))
  | 0x86 => guardE (!r.fn.getLsbD 3) .fn (r.form0 (.ok (.vote r.hdr (VoteMode.of (r.fn.extractLsb' 0 2)) (r.fn.getLsbD 2) r.d r.a)))
  | 0x87 => need (ShflMode.ofCode r.fn) .fn fun m => r.shflB fun b => .ok (.shfl r.hdr m r.d r.a b r.c)
  | 0x88 => need (ReduxOp.ofCode r.fn) .fn fun m => r.form0 (.ok (.redux r.hdr m r.d r.a))
  | 0x89 => r.form0 (fnCase r [.matchLanes r.hdr false .any r.d r.a, .matchLanes r.hdr false (.all r.c) r.d r.a, .matchLanes r.hdr true .any r.d r.a, .matchLanes r.hdr true (.all r.c) r.d r.a])
  | 0x8A => need (bit01 r.fn) .fn fun m => r.src fun b => .ok (.rdlane r.hdr m r.d r.a b)
  | _ => .error .maj

/-- MAJ 0x90 to 0x9F (Table 2-6). -/
def decode9 (r : Raw) : Except DecodeErr Instr :=
  match r.maj.toNat with
  | 0x90 => need (bit01 r.fn) .fn fun m => r.form3 3 (.ok (.mlds r.hdr m r.a r.b r.c (r.imm.extractLsb' 0 3)))
  | 0x91 => fn0 r (r.form0 (.ok (.mswap r.hdr)))
  | 0x92 => guardE (!r.fn.getLsbD 3 && !r.fn.getLsbD 2) .fn (guardE (!r.imm.getLsbD 3 && !r.imm.getLsbD 6 && !r.imm.getLsbD 7) .reserved (r.form3 16 (.ok (.mstr r.hdr (r.fn.getLsbD 0) (r.fn.getLsbD 1) r.a r.b r.c (r.imm.extractLsb' 0 3) (r.imm.extractLsb' 4 2) (r.imm.extractLsb' 8 8)))))
  | 0x93 => guardE (!r.fn.getLsbD 3 && !r.fn.getLsbD 2) .fn (guardE (!r.imm.getLsbD 3 && !r.imm.getLsbD 6 && !r.imm.getLsbD 7) .reserved (r.form3 24 (.ok (.mstrr r.hdr (r.fn.getLsbD 0) (r.fn.getLsbD 1) r.a r.c (r.imm.extractLsb' 0 3) ⟨(r.imm.extractLsb' 4 2), (r.imm.extractLsb' 8 8), r.imm.extractLsb' 16 8⟩))))
  | 0x94 => fn0 r (guardE (decide (r.imm.extractLsb' 0 4 = 0) && !r.imm.getLsbD 6 && !r.imm.getLsbD 7) .reserved (r.form3 24 (.ok (.mzero r.hdr ⟨(r.imm.extractLsb' 4 2), (r.imm.extractLsb' 8 8), r.imm.extractLsb' 16 8⟩))))
  | 0x95 => need (r.drain) .reserved fun x => r.form3 24 (.ok (.mdrn r.hdr x (r.fn.getLsbD 3) r.a r.b ⟨(r.imm.extractLsb' 4 2), (r.imm.extractLsb' 8 8), r.imm.extractLsb' 16 8⟩))
  | 0x96 => need (r.drain) .reserved fun x => r.form3 24 (.ok (.mdrnr r.hdr x (r.fn.getLsbD 3) r.d r.b ⟨(r.imm.extractLsb' 4 2), (r.imm.extractLsb' 8 8), r.imm.extractLsb' 16 8⟩))
  | 0x97 => match r.fn.toNat with
    | 0 => r.form3 0 (.ok (.mgangLead r.hdr r.a))
    | 1 => guardE (decide (r.imm.extractLsb' 0 4 = 0)) .reserved (r.form3 6 (.ok (.mgangJoin r.hdr r.a (r.imm.extractLsb' 4 2))))
    | 2 => r.form3 0 (.ok (.mgangLeave r.hdr))
    | _ => .error .fn
  | 0x98 => need (bit01 r.fn) .fn fun m => guardE (decide (r.imm.extractLsb' 0 4 = 0) && !r.imm.getLsbD 6 && !r.imm.getLsbD 7) .reserved (r.form3 24 (.ok (.mbias r.hdr m r.a ⟨(r.imm.extractLsb' 4 2), (r.imm.extractLsb' 8 8), r.imm.extractLsb' 16 8⟩)))
  | _ => .error .maj

/-- MAJ 0xA0 to 0xAF (Table 2-6). -/
def decodeA (r : Raw) : Except DecodeErr Instr :=
  match r.maj.toNat with
  | 0xA0 => need (LdSize.ofCode r.fn) .fn fun sz => r.form3 32 (.ok (.lds r.hdr sz r.d r.a r.imm))
  | 0xA1 => need (StSize.ofCode r.fn) .fn fun sz => r.form3 32 (.ok (.sts r.hdr sz r.a r.imm r.b))
  | 0xA2 => need (LdSize.ofCode r.fn) .fn fun sz => r.form3 32 (.ok (.ldcl r.hdr sz r.d r.a r.imm))
  | 0xA3 => need (StSize.ofCode r.fn) .fn fun sz => r.form3 32 (.ok (.stcl r.hdr sz r.a r.imm r.b))
  | 0xA4 => need (LdSize.ofCode r.fn) .fn fun sz => r.form2 (.ok (.ldx r.hdr sz r.d r.a r.imm))
  | 0xA5 => need (StSize.ofCode r.fn) .fn fun sz => r.form2 (.ok (.stx r.hdr sz r.a r.imm r.b))
  | 0xA6 => need (AtomOp.ofCode r.fn r.c) .fn fun op => need (Scope.ofCode (r.imm.extractLsb' 0 4)) .scope fun sc => need (AtSize.ofCode (r.imm.extractLsb' 6 2)) .reserved fun sz => r.form3 8 (.ok (.atom r.hdr op sz (Ord4.of (r.imm.extractLsb' 4 2)) sc r.d r.a r.b))
  | 0xA7 => need (AtomOp.ofCode r.fn r.c) .fn fun op => need (AtSize.ofCode (r.imm.extractLsb' 6 2)) .reserved fun sz => guardE (decide (r.imm.extractLsb' 0 6 = 0)) .reserved (r.form3 9 (.ok (.atoms r.hdr op sz (r.imm.getLsbD 8) r.d r.a r.b)))
  | 0xA8 => need (AtomOp.ofCode r.fn r.c) .fn fun op => need (Scope.ofCode (r.imm.extractLsb' 0 4)) .scope fun sc => need (AtSize.ofCode (r.imm.extractLsb' 6 2)) .reserved fun sz => guardE (!r.imm.getLsbD 4) .reserved (r.form3 8 (.ok (.red r.hdr op sz (r.imm.getLsbD 5) sc r.a r.b)))
  | 0xA9 => fn0 r (need (Scope.ofCode (r.imm.extractLsb' 0 4)) .scope fun sc => r.form3 6 (.ok (.fence r.hdr (Ord4.of (r.imm.extractLsb' 4 2)) sc)))
  | 0xAA => fn0 r (need (Scope.ofCode (r.imm.extractLsb' 0 4)) .scope fun sc => need (WSize.ofCode (r.imm.extractLsb' 6 2)) .reserved fun sz => guardE (decide (r.imm.extractLsb' 4 2 = 0)) .reserved (r.form3 8 (.ok (.relst r.hdr sz sc r.a r.b))))
  | 0xAB => need (AtomOp.ofCode r.fn r.c) .fn fun op => need (Scope.ofCode (r.imm.extractLsb' 0 4)) .scope fun sc => need (AtSize.ofCode (r.imm.extractLsb' 6 2)) .reserved fun sz => guardE (decide (r.imm.extractLsb' 4 2 = 0)) .reserved (r.form3 8 (.ok (.relop r.hdr op sz sc r.d r.a r.b)))
  | 0xAC => fn0 r (need (Scope.ofCode (r.imm.extractLsb' 0 4)) .scope fun sc => need (WSize.ofCode (r.imm.extractLsb' 6 2)) .reserved fun sz => guardE (decide (r.imm.extractLsb' 4 2 = 0)) .reserved (r.form3 8 (.ok (.acqld r.hdr sz sc r.d r.a))))
  | 0xAD => need (Cmp.ofCode r.fn) .fn fun m => need (Scope.ofCode (r.imm.extractLsb' 0 4)) .scope fun sc => need (WSize.ofCode (r.imm.extractLsb' 6 2)) .reserved fun sz => guardE (decide (r.imm.extractLsb' 4 2 = 0)) .reserved (r.form3 8 (.ok (.acqwt r.hdr m sz sc r.d r.a r.b r.c)))
  | 0xAE => fn0 r (r.form0 (.ok (.remacq r.hdr r.a)))
  | 0xAF => fn0 r (r.form3 0 (.ok (.barinit r.hdr r.a r.b)))
  | _ => .error .maj

/-- MAJ 0xB0 to 0xBF (Table 2-6). -/
def decodeB (r : Raw) : Except DecodeErr Instr :=
  match r.maj.toNat with
  | 0xB0 => need (bit01 r.fn) .fn fun g => need (Scope.ofCode (r.imm.extractLsb' 0 4)) .scope fun sc => r.form3 4 (.ok (.bararv r.hdr g sc r.d r.c r.a))
  | 0xB1 => fn0 r (need (Scope.ofCode (r.imm.extractLsb' 0 4)) .scope fun sc => r.form3 4 (.ok (.barwt r.hdr sc r.d r.c r.a r.b)))
  | 0xB2 => fn0 r (need (Scope.ofCode (r.imm.extractLsb' 0 4)) .scope fun sc => r.form3 4 (.ok (.bartst r.hdr sc r.d r.c r.a r.b)))
  | 0xB3 => fn0 r (r.form3 0 (.ok (.barexp r.hdr r.a r.b)))
  | 0xB4 => need (bit01 r.fn) .fn fun g => r.form3 0 (.ok (.bardrop r.hdr g r.a))
  | 0xB5 => need (LdSize.ofCode r.fn) .fn fun sz => r.form2 (.ok (.ldnc r.hdr sz r.d r.a r.imm))
  | 0xB6 => match r.fn.toNat with
    | 0 => r.form2 (.ok (.cctlIvl r.hdr r.a r.imm))
    | 1 => r.form0 (.ok (.cctlIvall r.hdr))
    | 2 => r.form2 (.ok (.cctlIvi r.hdr r.a r.imm))
    | 3 => r.form0 (.ok (.cctlIviall r.hdr))
    | 4 => r.form0 (.ok (.cctlDrain r.hdr))
    | _ => .error .fn
  | 0xB7 => match r.fn.toNat with
    | 0 => r.form3 0 (.ok (.sigrdTest r.hdr r.d r.a))
    | 1 => r.form3 0 (.ok (.sigrdHash r.hdr r.d r.a))
    | 2 => r.form3 7 (.ok (.sigrdWord r.hdr r.d (r.imm.extractLsb' 5 2) (r.imm.extractLsb' 0 5)))
    | _ => .error .fn
  | _ => .error .maj

/-- MAJ 0xC0 to 0xCF (Table 2-6). -/
def decodeC (r : Raw) : Except DecodeErr Instr :=
  match r.maj.toNat with
  | 0xC0 => fn0 r (r.cmd fun k => r.form3 12 (.ok (.xcopy r.hdr k r.d r.a r.b r.c)))
  | 0xC1 => fn0 r (r.cmd fun k => r.form3 12 (.ok (.xgath r.hdr k r.d r.a r.b r.c)))
  | 0xC2 => fn0 r (r.cmd fun k => r.form3 12 (.ok (.xscat r.hdr k r.d r.a r.b r.c)))
  | 0xC3 => r.cmd fun k => r.form3 15 (.ok (.xpack r.hdr (CvD.of (r.fn.extractLsb' 0 2)) (r.fn.getLsbD 2) (r.fn.getLsbD 3) k (r.imm.extractLsb' 12 3) r.d r.a r.b r.c))
  | 0xC4 => guardE (!r.fn.getLsbD 3) .fn (need (Cv.of (r.fn.extractLsb' 0 2)) .fn fun cv => r.cmd fun k => r.form3 15 (.ok (.xunpk r.hdr cv (r.fn.getLsbD 2) k (r.imm.extractLsb' 12 3) r.d r.a r.b r.c)))
  | 0xC5 => fn0 r (r.cmd fun k => r.form3 12 (.ok (.xfill r.hdr k r.d r.a r.b r.c)))
  | 0xC6 => fn0 r (r.form0 (.ok (.wtany r.hdr r.d r.a)))
  | 0xC7 => fn0 r (r.form0 (.ok (.wtall r.hdr r.d r.a)))
  | 0xC8 => fn0 r (r.form0 (.ok (.ffrdy r.hdr r.d r.a)))
  | 0xC9 => fn0 r (r.form0 (.ok (.tagclr r.hdr r.a)))
  | 0xCA => fn0 r (need (Scope.ofCode (r.imm.extractLsb' 0 4)) .scope fun sc => r.form3 4 (.ok (.cntwt r.hdr sc r.d r.c r.a r.b)))
  | 0xCB => fn0 r (r.form0 (.ok (.rnginit r.hdr r.d r.a r.b r.c)))
  | 0xCC => fn0 r (r.form0 (.ok (.rngnxt r.hdr r.d r.a)))
  | 0xCD => need (bit01 r.fn) .fn fun w => r.form0 (.ok (.launch r.hdr w r.d r.a))
  | 0xCE => fn0 r (r.form0 (.ok (.cjoin r.hdr)))
  | _ => .error .maj

/-- MAJ 0xD0 to 0xDF (Table 2-6). -/
def decodeD (r : Raw) : Except DecodeErr Instr :=
  match r.maj.toNat with
  | 0xD0 => fn0 r (r.form0 (.ok (.rte r.hdr)))
  | 0xD1 => r.form3 12 (fnCase r [.movx r.hdr r.d (r.imm.extractLsb' 0 12), .movxW r.hdr r.a (r.imm.extractLsb' 0 12)])
  | 0xD2 => r.form3 12 (fnCase r [.movxw r.hdr r.d (r.imm.extractLsb' 0 12), .movxwW r.hdr r.a (r.imm.extractLsb' 0 12)])
  | 0xD3 => fn0 r (r.form2 (.ok (.tlbiv r.hdr r.a r.imm)))
  | 0xD4 => fn0 r (r.form0 (.ok (.tlbia r.hdr)))
  | 0xD5 => r.form0 (fnCase r [.halttOthers r.hdr, .halttRelease r.hdr])
  | 0xD6 => r.form0 (fnCase r [.xdrainWait r.hdr, .xdrainCancel r.hdr])
  | 0xD7 => r.form0 (fnCase r [.fltqAck r.hdr r.a, .fltqResume r.hdr, .fltqFail r.hdr])
  | 0xD8 => fn0 r (r.form0 (.ok (.dumpr r.hdr r.d r.a)))
  | _ => .error .maj

/-- MAJ 0xE0 to 0xEF (Table 2-6). -/
def decodeE (r : Raw) : Except DecodeErr Instr :=
  match r.maj.toNat with
  | 0xE0 => fn0 r (r.reshCmd fun k => r.form3 13 (.ok (.xresh r.hdr k r.d r.a r.b)))
  | 0xE1 => match r.fn.toNat with
    | 0 => r.cmd fun k => guardE (!k.bar) .reserved (r.form3 12 (.ok (.xredPush r.hdr k.scope k.tag r.a r.b r.c)))
    | 1 => r.form3 0 (.ok (.xredCancel r.hdr r.a))
    | _ => .error .fn
  | 0xE2 => fn0 r (r.cmd fun k => guardE (!k.bar) .reserved (r.form3 12 (.ok (.xmcast r.hdr k.scope k.tag r.a r.b r.c))))
  | 0xE3 => fn0 r (need (Scope.ofCode (r.imm.extractLsb' 0 4)) .scope fun sc => r.form3 4 (.ok (.cwait r.hdr sc r.d r.c r.a r.b)))
  | 0xE4 => r.form0 (fnCase r [.pfence r.hdr none, .pfence r.hdr (some r.a)])
  | _ => .error .maj

/-- The instruction a word's fields give, by MAJ[7:4]. -/
def decodeRaw (r : Raw) : Except DecodeErr Instr :=
  match r.maj.toNat / 16 with
  | 0x0 => decode0 r
  | 0x1 => decode1 r
  | 0x2 => decode2 r
  | 0x4 => decode4 r
  | 0x5 => decode5 r
  | 0x6 => decode6 r
  | 0x7 => decode7 r
  | 0x8 => decode8 r
  | 0x9 => decode9 r
  | 0xA => decodeA r
  | 0xB => decodeB r
  | 0xC => decodeC r
  | 0xD => decodeD r
  | 0xE => decodeE r
  | _ => .error .maj

/-- The instruction of a word, or the reason it is none: its fields are read, then `Instr.wfErr` is asked. -/
def decode (w : InstrWord) : Except DecodeErr Instr :=
  match decodeRaw (Raw.unpack w) with
  | .error e => .error e
  | .ok i =>
    match i.wfErr with
    | some e => .error (.ill e)
    | none => .ok i

/-! ### Encoding -/

/-- A word from its fields, in the order of the assembly tables: FN, FORM, D, A, B, C, IMM. -/
def Raw.mk' (h : Hdr) (maj : BitVec 8) (fn : BitVec 4) (form : BitVec 2) (d a b c : RegCode) (imm : Word) : Raw :=
  ⟨imm, c, b, a, d, form, h.pg, h.negp, h.rsbm, h.wsb, h.yld, h.stall, fn, maj⟩

/-- FORM 00 or 01 by operand B. -/
def Raw.s3 (h : Hdr) (maj : BitVec 8) (fn : BitVec 4) (d a : RegCode) (b : Src) (c : RegCode) : Raw :=
  match b with
  | .reg b => Raw.mk' h maj fn 0 d a b c 0
  | .imm v => Raw.mk' h maj fn 1 d a nf c v

/-- FORM 00 or 01 of MOV, whose register source is A. -/
def Raw.sA (h : Hdr) (maj : BitVec 8) (fn : BitVec 4) (d : RegCode) (a : Src) : Raw :=
  match a with
  | .reg a => Raw.mk' h maj fn 0 d a nf nf 0
  | .imm v => Raw.mk' h maj fn 1 d nf nf nf v

/-- The fields of an instruction's word; a step of another agent has none. -/
def Instr.raw : Instr → Option Raw
  | .mov h w d a => some (Raw.sA h 0x01 (fnBit w) d a)
  | .movs h d k => some (Raw.mk' h 0x02 0 3 d nf nf nf (k.setWidth 32))
  | .movsw h d k => some (Raw.mk' h 0x03 0 3 d nf nf nf (k.setWidth 32))
  | .iadd h m d a b => some (Raw.s3 h 0x04 m.code d a b nf)
  | .isub h m d a b => some (Raw.s3 h 0x05 m.code d a b nf)
  | .iaddx h m d a b p => some (Raw.mk' h 0x06 m.code 0 d a b m.fld (p.setWidth 32))
  | .imul h d a b => some (Raw.s3 h 0x07 0 d a b nf)
  | .imulh h m d a b => some (Raw.s3 h 0x08 m.code d a b nf)
  | .imad h d a b c => some (Raw.s3 h 0x09 0 d a b c)
  | .imadw h m d a b c => some (Raw.s3 h 0x0A (fnBit (!m)) d a b c)
  | .idiv h m d a b => some (Raw.s3 h 0x0B (fnBit (!m)) d a b nf)
  | .irem h m d a b => some (Raw.s3 h 0x0C (fnBit (!m)) d a b nf)
  | .imin h m d a b => some (Raw.s3 h 0x0D (fnBit (!m)) d a b nf)
  | .imax h m d a b => some (Raw.s3 h 0x0E (fnBit (!m)) d a b nf)
  | .iabs h m d a => some (Raw.mk' h 0x0F (fnBit m) 0 d a nf nf 0)
  | .and h d a b => some (Raw.s3 h 0x10 0 d a b nf)
  | .or h d a b => some (Raw.s3 h 0x11 0 d a b nf)
  | .xor h d a b => some (Raw.s3 h 0x12 0 d a b nf)
  | .andn h d a b => some (Raw.s3 h 0x13 0 d a b nf)
  | .lop3 h d a b c k => some (Raw.mk' h 0x14 0 3 d a b c (k.setWidth 32))
  | .shl h d a b => some (Raw.s3 h 0x15 0 d a b nf)
  | .shr h d a b => some (Raw.s3 h 0x16 0 d a b nf)
  | .sar h d a b => some (Raw.s3 h 0x17 0 d a b nf)
  | .rol h d a b => some (Raw.s3 h 0x18 0 d a b nf)
  | .fshf h m d a b n => some (Raw.mk' h 0x19 (fnBit m) n.form d a b n.fld n.im)
  | .popc h d a => some (Raw.mk' h 0x1A 0 0 d a nf nf 0)
  | .clz h d a => some (Raw.mk' h 0x1B 0 0 d a nf nf 0)
  | .brev h d a => some (Raw.mk' h 0x1C 0 0 d a nf nf 0)
  | .bfx h m d a n => some (Raw.mk' h 0x1D (fnBit m) n.form d a n.fld nf n.im)
  | .bfi h d a b n => some (Raw.mk' h 0x1E 0 n.form d a b n.fld n.im)
  | .prmt h d a b n => some (Raw.mk' h 0x1F 0 n.form d a b n.fld n.im)
  | .sel h m d a b c => some (Raw.s3 h 0x20 (fnBit m) d a b c)
  | .isetp h m d a b => some (Raw.s3 h 0x21 m.code d a b nf)
  | .icmps h m d a b => some (Raw.s3 h 0x22 m.code d a b nf)
  | .plop h d a b c k => some (Raw.mk' h 0x23 0 3 d a b c (k.setWidth 32))
  | .p2g h d => some (Raw.mk' h 0x24 0 0 d nf nf nf 0)
  | .g2p h a k => some (Raw.mk' h 0x25 0 3 nf a nf nf (k.setWidth 32))
  | .iadd64 h d a b => some (Raw.s3 h 0x26 0 d a b nf)
  | .isub64 h d a b => some (Raw.s3 h 0x27 0 d a b nf)
  | .lea h m d a b k => some (Raw.mk' h 0x28 (fnBit m) 0 d a b nf (k.setWidth 32))
  | .isetp64 h m d a b => some (Raw.s3 h 0x29 m.code d a b nf)
  | .shl64 h d a b => some (Raw.s3 h 0x2A 0 d a b nf)
  | .shr64 h m d a b => some (Raw.s3 h 0x2B (fnBit m) d a b nf)
  | .idp4 h x y z d a b c => some (Raw.s3 h 0x2C (fn4 x y z false) d a b c)
  | .idp2 h x y z d a b c => some (Raw.s3 h 0x2D (fn4 x y z false) d a b c)
  | .fadd h rm s d a b => some (Raw.s3 h 0x40 (fnRm rm s false) d a b nf)
  | .fmul h rm d a b => some (Raw.s3 h 0x41 (fnRm rm false false) d a b nf)
  | .ffma h rm x y d a b c => some (Raw.s3 h 0x42 (fnRm rm x y) d a b c)
  | .fmin h d a b => some (Raw.s3 h 0x43 0 d a b nf)
  | .fmax h d a b => some (Raw.s3 h 0x44 0 d a b nf)
  | .fsetp h m d a b => some (Raw.s3 h 0x45 m.code d a b nf)
  | .fclass h m d a => some (Raw.mk' h 0x46 m.fn 0 d a nf nf 0)
  | .fdiv h d a b => some (Raw.s3 h 0x47 0 d a b nf)
  | .fsqrt h d a => some (Raw.mk' h 0x48 0 0 d a nf nf 0)
  | .frcp h d a => some (Raw.mk' h 0x49 0 0 d a nf nf 0)
  | .frsq h d a => some (Raw.mk' h 0x4A 0 0 d a nf nf 0)
  | .fex2 h d a => some (Raw.mk' h 0x4B 0 0 d a nf nf 0)
  | .flg2 h d a => some (Raw.mk' h 0x4C 0 0 d a nf nf 0)
  | .fsinpi h d a => some (Raw.mk' h 0x4D 0 0 d a nf nf 0)
  | .fcospi h d a => some (Raw.mk' h 0x4E 0 0 d a nf nf 0)
  | .ftanh h d a => some (Raw.mk' h 0x4F 0 0 d a nf nf 0)
  | .hadd2 h bf rm s d a b => some (Raw.s3 h 0x50 (fnHf bf rm s) d a b nf)
  | .hmul2 h bf rm d a b => some (Raw.s3 h 0x51 (fnHf bf rm false) d a b nf)
  | .hfma2 h bf rm d a b c => some (Raw.s3 h 0x52 (fnHf bf rm false) d a b c)
  | .hmnmx2 h bf mx d a b => some (Raw.s3 h 0x53 (fn4 bf mx false false) d a b nf)
  | .cvtff h cv s dst src d a => some (Raw.mk' h 0x54 (fnCv cv.code s false) 3 d a nf nf (0#24 ++ src.fmt ++ dst.fmt))
  | .cvtfi h cv k s d a => some (Raw.mk' h 0x55 (k.code ++ cv.code) 3 d a nf nf (0#31 ++ BitVec.ofBool s))
  | .cvtif h cv k d a => some (Raw.mk' h 0x56 (k.code ++ cv.code) 0 d a nf nf 0)
  | .cvtpk h cv s d a b k => some (Raw.mk' h 0x57 (fnCv cv.code s false) 3 d a b nf (k.setWidth 32))
  | .cvtunpk h cv s d a b k => some (Raw.mk' h 0x58 (fnCv cv.code s false) 3 d a b nf (k.setWidth 32))
  | .frnd h rm d a => some (Raw.mk' h 0x59 (fnRm rm false false) 0 d a nf nf 0)
  | .fscale h rm d a b => some (Raw.s3 h 0x5A (fnRm rm false false) d a b nf)
  | .fgetexp h d a => some (Raw.mk' h 0x5B 0 0 d a nf nf 0)
  | .bra h o s => some (Raw.mk' h 0x60 0 1 nf nf nf nf (o ++ s))
  | .brx h a => some (Raw.mk' h 0x61 0 0 nf a nf nf 0)
  | .call h d o s => some (Raw.mk' h 0x62 0 1 d nf nf nf (o ++ s))
  | .callx h d a => some (Raw.mk' h 0x63 0 0 d a nf nf 0)
  | .ret h a => some (Raw.mk' h 0x64 0 0 nf a nf nf 0)
  | .exit h => some (Raw.mk' h 0x65 0 0 nf nf nf nf 0)
  | .trap h k => some (Raw.mk' h 0x66 0 3 nf nf nf nf (k.setWidth 32))
  | .nop h => some (Raw.mk' h 0x67 0 0 nf nf nf nf 0)
  | .yield h => some (Raw.mk' h 0x68 0 0 nf nf nf nf 0)
  | .bpt h k => some (Raw.mk' h 0x69 0 3 nf nf nf nf (k.setWidth 32))
  | .sleep h b => some (Raw.s3 h 0x6A 0 nf nf b nf)
  | .ld h sz d a o => some (Raw.mk' h 0x70 sz.code 2 d a nf nf o)
  | .st h sz a o b => some (Raw.mk' h 0x71 sz.code 2 nf a b nf o)
  | .ldl h sz d a o => some (Raw.mk' h 0x72 sz.code 2 d a nf nf o)
  | .stl h sz a o b => some (Raw.mk' h 0x73 sz.code 2 nf a b nf o)
  | .pref h m a o => some (Raw.mk' h 0x74 (fnBit m) 2 nf a nf nf o)
  | .ldc h sz d a o => some (Raw.mk' h 0x75 sz.code 2 d a nf nf o)
  | .kjoin h k => some (Raw.mk' h 0x80 0 3 nf nf nf nf (k.setWidth 32))
  | .kleave h k => some (Raw.mk' h 0x81 0 3 nf nf nf nf (k.setWidth 32))
  | .kwait h k => some (Raw.mk' h 0x82 0 3 nf nf nf nf (k.setWidth 32))
  | .ksetG h k a => some (Raw.mk' h 0x83 0 3 nf a nf nf (k.setWidth 32))
  | .ksetCohort h k => some (Raw.mk' h 0x83 1 3 nf nf nf nf (k.setWidth 32))
  | .ksetClr h k => some (Raw.mk' h 0x83 2 3 nf nf nf nf (k.setWidth 32))
  | .ksetLive h k => some (Raw.mk' h 0x83 3 3 nf nf nf nf (k.setWidth 32))
  | .kmov h d k => some (Raw.mk' h 0x84 0 3 d nf nf nf (k.setWidth 32))
  | .kmovK h k j => some (Raw.mk' h 0x84 1 3 nf nf nf nf (0#20 ++ j ++ 0#4 ++ k))
  | .elect h d => some (Raw.mk' h 0x85 0 0 d nf nf nf 0)
  | .vote h m n d a => some (Raw.mk' h 0x86 (fnCv m.code n false) 0 d a nf nf 0)
  | .shfl h m d a b c => some (Raw.mk' h 0x87 m.code b.form d a b.fld c b.im)
  | .redux h m d a => some (Raw.mk' h 0x88 m.code 0 d a nf nf 0)
  | .matchLanes h w m d a => some (Raw.mk' h 0x89 (fn4 m.isAll w false false) 0 d a nf m.fld 0)
  | .rdlane h m d a b => some (Raw.s3 h 0x8A (fnBit m) d a b nf)
  | .mlds h m a b c k => some (Raw.mk' h 0x90 (fnBit m) 3 nf a b c (k.setWidth 32))
  | .mswap h => some (Raw.mk' h 0x91 0 0 nf nf nf nf 0)
  | .mstr h s g a b c k bk q => some (Raw.mk' h 0x92 (fn4 s g false false) 3 nf a b c (0#16 ++ q ++ 0#2 ++ bk ++ 0#1 ++ k))
  | .mstrr h s g a c k w => some (Raw.mk' h 0x93 (fn4 s g false false) 3 nf a nf c (matImm w false false k))
  | .mzero h w => some (Raw.mk' h 0x94 0 3 nf nf nf nf (matImm w false false 0))
  | .mbias h m a w => some (Raw.mk' h 0x98 (fnBit m) 3 nf a nf nf (matImm w false false 0))
  | .mdrn h x z a b w => some (Raw.mk' h 0x95 (x.fn z) 3 nf a b nf (x.im w))
  | .mdrnr h x z d b w => some (Raw.mk' h 0x96 (x.fn z) 3 d nf b nf (x.im w))
  | .mgangLead h a => some (Raw.mk' h 0x97 0 3 nf a nf nf 0)
  | .mgangJoin h a bk => some (Raw.mk' h 0x97 1 3 nf a nf nf (0#26 ++ bk ++ 0#4))
  | .mgangLeave h => some (Raw.mk' h 0x97 2 3 nf nf nf nf 0)
  | .lds h sz d a o => some (Raw.mk' h 0xA0 sz.code 3 d a nf nf o)
  | .sts h sz a o b => some (Raw.mk' h 0xA1 sz.code 3 nf a b nf o)
  | .ldcl h sz d a o => some (Raw.mk' h 0xA2 sz.code 3 d a nf nf o)
  | .stcl h sz a o b => some (Raw.mk' h 0xA3 sz.code 3 nf a b nf o)
  | .ldx h sz d a o => some (Raw.mk' h 0xA4 sz.code 2 d a nf nf o)
  | .stx h sz a o b => some (Raw.mk' h 0xA5 sz.code 2 nf a b nf o)
  | .atom h op sz o sc d a b => some (Raw.mk' h 0xA6 op.code 3 d a b op.fld (syncImm false sz.code o.code sc.code))
  | .atoms h op sz cl d a b => some (Raw.mk' h 0xA7 op.code 3 d a b op.fld (syncImm cl sz.code 0 0))
  | .red h op sz rel sc a b => some (Raw.mk' h 0xA8 op.code 3 nf a b nf (syncImm false sz.code (BitVec.ofBool rel ++ 0#1) sc.code))
  | .fence h o sc => some (Raw.mk' h 0xA9 0 3 nf nf nf nf (syncImm false 0 o.code sc.code))
  | .relst h sz sc a b => some (Raw.mk' h 0xAA 0 3 nf a b nf (syncImm false sz.code 0 sc.code))
  | .relop h op sz sc d a b => some (Raw.mk' h 0xAB op.code 3 d a b op.fld (syncImm false sz.code 0 sc.code))
  | .acqld h sz sc d a => some (Raw.mk' h 0xAC 0 3 d a nf nf (syncImm false sz.code 0 sc.code))
  | .acqwt h m sz sc d a b c => some (Raw.mk' h 0xAD m.code 3 d a b c (syncImm false sz.code 0 sc.code))
  | .remacq h a => some (Raw.mk' h 0xAE 0 0 nf a nf nf 0)
  | .barinit h a b => some (Raw.mk' h 0xAF 0 3 nf a b nf 0)
  | .bararv h g sc d c a => some (Raw.mk' h 0xB0 (fnBit g) 3 d a nf c (syncImm false 0 0 sc.code))
  | .barwt h sc d c a b => some (Raw.mk' h 0xB1 0 3 d a b c (syncImm false 0 0 sc.code))
  | .bartst h sc d c a b => some (Raw.mk' h 0xB2 0 3 d a b c (syncImm false 0 0 sc.code))
  | .barexp h a b => some (Raw.mk' h 0xB3 0 3 nf a b nf 0)
  | .bardrop h g a => some (Raw.mk' h 0xB4 (fnBit g) 3 nf a nf nf 0)
  | .ldnc h sz d a o => some (Raw.mk' h 0xB5 sz.code 2 d a nf nf o)
  | .cctlIvl h a o => some (Raw.mk' h 0xB6 0 2 nf a nf nf o)
  | .cctlIvall h => some (Raw.mk' h 0xB6 1 0 nf nf nf nf 0)
  | .cctlIvi h a o => some (Raw.mk' h 0xB6 2 2 nf a nf nf o)
  | .cctlIviall h => some (Raw.mk' h 0xB6 3 0 nf nf nf nf 0)
  | .cctlDrain h => some (Raw.mk' h 0xB6 4 0 nf nf nf nf 0)
  | .sigrdTest h d a => some (Raw.mk' h 0xB7 0 3 d a nf nf 0)
  | .sigrdHash h d a => some (Raw.mk' h 0xB7 1 3 d a nf nf 0)
  | .sigrdWord h d s w => some (Raw.mk' h 0xB7 2 3 d nf nf nf (0#25 ++ s ++ w))
  | .xcopy h k d a b c => some (Raw.mk' h 0xC0 0 3 d a b c (k.im 0))
  | .xgath h k d a b c => some (Raw.mk' h 0xC1 0 3 d a b c (k.im 0))
  | .xscat h k d a b c => some (Raw.mk' h 0xC2 0 3 d a b c (k.im 0))
  | .xpack h cv s au k sl d a b c => some (Raw.mk' h 0xC3 (fnCv cv.code s au) 3 d a b c (k.im sl))
  | .xunpk h cv s k sl d a b c => some (Raw.mk' h 0xC4 (fnCv cv.code s false) 3 d a b c (k.im sl))
  | .xfill h k d a b c => some (Raw.mk' h 0xC5 0 3 d a b c (k.im 0))
  | .wtany h d a => some (Raw.mk' h 0xC6 0 0 d a nf nf 0)
  | .wtall h d a => some (Raw.mk' h 0xC7 0 0 d a nf nf 0)
  | .ffrdy h d a => some (Raw.mk' h 0xC8 0 0 d a nf nf 0)
  | .tagclr h a => some (Raw.mk' h 0xC9 0 0 nf a nf nf 0)
  | .cntwt h sc d c a b => some (Raw.mk' h 0xCA 0 3 d a b c (syncImm false 0 0 sc.code))
  | .rnginit h d a b c => some (Raw.mk' h 0xCB 0 0 d a b c 0)
  | .rngnxt h d a => some (Raw.mk' h 0xCC 0 0 d a nf nf 0)
  | .launch h w d a => some (Raw.mk' h 0xCD (fnBit w) 0 d a nf nf 0)
  | .cjoin h => some (Raw.mk' h 0xCE 0 0 nf nf nf nf 0)
  | .rte h => some (Raw.mk' h 0xD0 0 0 nf nf nf nf 0)
  | .movx h d k => some (Raw.mk' h 0xD1 0 3 d nf nf nf (k.setWidth 32))
  | .movxW h a k => some (Raw.mk' h 0xD1 1 3 nf a nf nf (k.setWidth 32))
  | .movxw h d k => some (Raw.mk' h 0xD2 0 3 d nf nf nf (k.setWidth 32))
  | .movxwW h a k => some (Raw.mk' h 0xD2 1 3 nf a nf nf (k.setWidth 32))
  | .tlbiv h a o => some (Raw.mk' h 0xD3 0 2 nf a nf nf o)
  | .tlbia h => some (Raw.mk' h 0xD4 0 0 nf nf nf nf 0)
  | .halttOthers h => some (Raw.mk' h 0xD5 0 0 nf nf nf nf 0)
  | .halttRelease h => some (Raw.mk' h 0xD5 1 0 nf nf nf nf 0)
  | .xdrainWait h => some (Raw.mk' h 0xD6 0 0 nf nf nf nf 0)
  | .xdrainCancel h => some (Raw.mk' h 0xD6 1 0 nf nf nf nf 0)
  | .fltqAck h a => some (Raw.mk' h 0xD7 0 0 nf a nf nf 0)
  | .fltqResume h => some (Raw.mk' h 0xD7 1 0 nf nf nf nf 0)
  | .fltqFail h => some (Raw.mk' h 0xD7 2 0 nf nf nf nf 0)
  | .dumpr h d a => some (Raw.mk' h 0xD8 0 0 d a nf nf 0)
  | .xresh h k d a b => some (Raw.mk' h 0xE0 0 3 d a b nf k.im)
  | .xredPush h sc t a b c => some (Raw.mk' h 0xE1 0 3 nf a b c (Cmd.im ⟨sc, false, t⟩ 0))
  | .xredCancel h a => some (Raw.mk' h 0xE1 1 3 nf a nf nf 0)
  | .xmcast h sc t a b c => some (Raw.mk' h 0xE2 0 3 nf a b c (Cmd.im ⟨sc, false, t⟩ 0))
  | .cwait h sc d c a b => some (Raw.mk' h 0xE3 0 3 d a b c (syncImm false 0 0 sc.code))
  | .pfence h v => some (Raw.mk' h 0xE4 (fnBit v.isSome) 0 nf (v.getD nf) nf nf 0)
  | .fetchLineArrival .. | .pipeGroupChoice .. | .kdeadDetect .. | .sleepExpiry .. | .epochAdvance |
  .l1LineExpiry .. | .wtbDrain .. | .homeAccess .. | .storeAck .. | .loadFill .. | .pageWalk .. |
  .runAheadStop .. | .priResponse .. | .cardAccept .. | .cardStart .. | .cardSegmentDone .. | .cardComplete .. |
  .mldsComplete .. | .mswapWavefront .. | .mstrRowWrite .. | .dispatchDecision .. | .headUnitHold .. |
  .planeSwitch .. | .launchAccept .. | .teamEnd .. | .gridComplete .. | .spillReturn .. | .blockedUnitSwap .. |
  .timeSliceEnd .. | .contextSave .. | .contextDump .. | .contextResume .. | .queueSubmit .. | .notifyEnqueue ..
  | .notify | .s2inv .. | .resetQueue .. | .resetEngine .. | .resetPartition .. | .resetDie .. | .resetFlr .. |
  .resetDevice | .moduleResetPin | .part .. | .lend .. | .recallCore .. | .gang .. | .gangAttempt | .qthaw .. |
  .ringset .. | .metrd .. | .s2set .. | .vfFlr .. | .vfEnableClear | .metreqWrite .. | .meterReport .. |
  .fqSetupWrite .. | .lpSaveRegWrite .. | .errWordClear .. | .ringheadWrite .. | .overflowClear |
  .domfailClear .. | .pwrlimWrite .. | .registerWrite .. | .keystoneRestart .. | .powerSample .. |
  .ageingReplan .. | .powerOn | .migStart .. | .migAccept .. | .migAbort .. | .migForce .. | .migClear .. |
  .trowelRound .. | .migCopyReceive .. | .migResume .. | .forwardingEnd .. | .remoteRequestReceive .. |
  .remoteResponseReceive .. | .movedTimeout .. | .responseSlotTimeout .. | .fmVdnBind .. | .fmVdnTableWrite .. |
  .fmRedirectWrite .. | .fmMeshSet .. | .slotreq .. | .slotgrant .. | .push .. | .result .. | .mcast .. |
  .a2a .. | .cancel .. | .ack .. | .earlyRetry | .collectiveGroupBroken .. | .domainJoin .. | .rekeyStart .. |
  .keyInstall .. | .rekeyBarrierArrival .. | .rekeyDone .. | .seqExhausted .. | .hostMemAccess .. | .birsp .. |
  .hostSnoop .. | .atsInvalidation .. | .divisionComplete .. | .drainComplete .. | .softError .. |
  .vfEnableSet .. | .deviceReady | .planeCleared .. | .bindRecordWrite .. | .chipScratchpadGrant .. |
  .domainLeave .. | .airanPortChange .. | .configImageWrite .. => none

/-- The word of an instruction. -/
def encode (i : Instr) : Option InstrWord := i.raw.map Raw.pack

/-- The instruction that the decoder reads from a word whose bits are `w` (the table gives its rows no bits, so `nbits`
says nothing that `w` does not: the bits above are 0); every instruction is one 96-bit word (R27). -/
def decodeTableWord (_nbits w : Nat) : Option Instr :=
  match decode (BitVec.ofNat 96 w) with
  | .ok i => some i
  | .error _ => none

/-- The 12 bytes of a word, lowest address first (R27). -/
def wordBytes (w : InstrWord) : List Byte :=
  [w.extractLsb' 0 8, w.extractLsb' 8 8, w.extractLsb' 16 8, w.extractLsb' 24 8, w.extractLsb' 32 8,
   w.extractLsb' 40 8, w.extractLsb' 48 8, w.extractLsb' 56 8, w.extractLsb' 64 8, w.extractLsb' 72 8,
   w.extractLsb' 80 8, w.extractLsb' 88 8]

end Sys2Proof
end

