-- ==== Sys2Proof/Machine/Fetch.lean ====
section
/-!
DEFINITION. Fetch lines (02 R31 to R34): the instruction cache, CHECK, the entry checks of 01 R24, pairs, and the
choice of what the step runs when a cohort has been chosen.
-/
namespace Sys2Proof.Machine

/-- The XOR of the little-endian halfwords of a byte list. -/
def xorHalves : List Byte → Nat
  | a :: b :: r => xorN (a.toNat + 256 * b.toNat) (xorHalves r)
  | [a] => a.toNat
  | [] => 0

/-- CHECK of a line: the XOR of the 31 halfwords at offsets 0 to 60 (R32). -/
def lineCheck (bytes : List Byte) : Nat := xorHalves (bytes.take 62)

/-- The line word (Table 2-3). -/
def lineWord (bytes : List Byte) : Nat := ofLE ((bytes.drop 60).take 4)
def lineGood (bytes : List Byte) : Bool := decide (lineCheck bytes = bits (lineWord bytes) 31 16)
def lineTgt (bytes : List Byte) (slot : Nat) : Bool := bitOf (lineWord bytes) slot
def linePair (bytes : List Byte) (i : Nat) : Bool := decide (i < 4) && bitOf (lineWord bytes) (5 + i)
def lineReserved (bytes : List Byte) : Bool := decide (bits (lineWord bytes) 15 9 ≠ 0)

/-- The word of slot s (R31). -/
def slotWord (bytes : List Byte) (slot : Nat) : InstrWord := BitVec.ofNat 96 (ofLE ((bytes.drop (12 * slot)).take 12))

/-- The cached line of a function. -/
def Core.iline (c : Core) (func line : Nat) : Option ILine :=
  c.icache.find? (fun l => decide (l.func = func) && decide (l.line = line))

/-- What one instruction word reads and writes, for the pair test (R34), with every register of its runs in `ops`. -/
def pairConflict (a b : List Opnd) : Bool :=
  (writeCodes a).any (fun c => (b.flatMap opCodes).contains c) || (writeCodes b).any (fun c => (a.flatMap opCodes).contains c)

/-- The operands of a slot for the pair test: its guard, its fields and its runs. -/
def pairOps (x : Info) (runs : List Opnd) : List Opnd := rp (x.h.pg.setWidth 8) :: (x.opnds ++ runs)

/-- The pipe class of a major opcode (Table 2-6). -/
def majCls (maj : Nat) : Option Cls :=
  if 0x01 ≤ maj ∧ maj ≤ 0x2D then some .int
  else if 0x40 ≤ maj ∧ maj ≤ 0x5B then some .fp
  else if 0x60 ≤ maj ∧ maj ≤ 0x6A then some .ctl
  else if (0x70 ≤ maj ∧ maj ≤ 0x75) ∨ (0xA0 ≤ maj ∧ maj ≤ 0xB7) then some .mem
  else if 0x80 ≤ maj ∧ maj ≤ 0x8A then some .grp
  else if 0x90 ≤ maj ∧ maj ≤ 0x98 then some .mat
  else if 0xC0 ≤ maj ∧ maj ≤ 0xCE then some .eng
  else if 0xD0 ≤ maj ∧ maj ≤ 0xD8 then some .sys
  else if 0xE0 ≤ maj ∧ maj ≤ 0xE4 then some .net
  else none

/-- The pair conditions of R34 on the line, the lower slot's header and the two classes. An upper slot whose word is undefined
raises its own ILLEGAL after the lower slot has taken effect (01 R24): it reads and writes no register, and its class is that of
its major opcode. -/
def pairOk (bytes : List Byte) (i : Nat) (lo : Info) (up : Option Cls) : Bool :=
  !(linePair bytes i && linePair bytes (i + 1)) &&
  decide (lo.h.stall = 0) && !lo.h.yld && decide (up ≠ some lo.cls) &&
  decide (lo.cls ≠ .sys) && decide (lo.cls ≠ .net) && decide (up ≠ some .sys) && decide (up ≠ some .net) &&
  decide (lo.cls ≠ .ctl)

/-- What a chosen cohort comes to at the fetch of its instruction. -/
inductive FetchRes where
  /-- the instruction of the slot, the line entered -/
  | run (s : State) (i : Instr)
  /-- no instruction issues now; the state after the fetch's own effects -/
  | next (s : State)
  | fault (f : Fault)

/-- A cause met at the fetch: a stop of run-ahead, or the trap of the cohort. -/
def fetchRaise (s : State) (cu : Cur) (cause : Nat) (addr : DWord) : State :=
  let g := s.group cu.gk
  if g.ra.isSome then s.raStop cu.gk 3
  else if g.unsettled cu.cohort then { s with cur := none }
  else
    let s := s.deliver cu.gk cu.cohort cause addr
    { s.setGroup cu.gk ((s.group cu.gk).chosen s.clock cu.cohort) with cur := none }

/-- The lanes of the cohort have entered the line. -/
def State.enterLine (s : State) (cu : Cur) (fl : Nat) : State :=
  s.setGroup cu.gk ((s.group cu.gk).modLanes cu.cohort (fun _ x => { x with fline := some fl }))

/-- A line of a function is asked for; a request to a peer that finds no response slot is sent later (25 R424). -/
def State.askLine (s : State) (core func fl : Nat) (tgt : Tgt) : State :=
  let k := s.core core
  if k.fetches.any (fun f => decide (f.func = func) && decide (f.line = fl)) then s else
  let add (s : State) (sent : Bool) : State :=
    let k := s.core core
    s.setCore core { k with fetches := k.fetches ++ [{ func := func, line := fl, tgt := tgt, sent := sent }] }
  match tgt with
  | .fab v ma => (match s.request core func v 1 (ma / 128 * 128) [] (.fetch func fl) with
    | some s => add s true
    | none => add s false)
  | .loc _ | .host _ | .notify .. => add s true

/-- The cohort's lanes wait for their line (08 R150), their skip counters 0; the path switch is the next choice. -/
def State.awaitLine (s : State) (cu : Cur) (core func fl : Nat) (tgt : Tgt) : State :=
  let s := s.askLine core func fl tgt
  { s.setGroup cu.gk ((s.group cu.gk).waitAt cu.cohort (.fetch fl)) with cur := none }

/-- The cohort's lanes wait for the walk of their line's page, once it is in the queue. -/
def State.awaitWalk (s : State) (cu : Cur) (core func va : Nat) : State :=
  let page := bits va 54 16
  let s := s.queueWalk (core / 160) func page (some core)
  { (if (s.die (core / 160)).walksFor func page then s.setGroup cu.gk ((s.group cu.gk).waitAt cu.cohort (.walk page)) else s) with
    cur := none }

/-- The translation of the line's address for the entering lanes (01 R24: X and U are checked at each entry). -/
def fetchXl (s : State) (t : Team) (sup : Bool) (lineVa : Nat) : XRes :=
  let k := s.core t.core
  s.refine t.func (translate k.tlb k.wfail t.func (s.func t.func).s1root.toNat sup .fetch lineVa)

/-- A fetch that does not translate. -/
def fetchStop (s : State) (cu : Cur) (t : Team) (lineVa : Nat) (r : XRes) : FetchRes :=
  let g := s.group cu.gk
  let pc := match lanesOf cu.cohort with | l :: _ => (g.lane l).at | [] => 0
  let sd := s.dropWfail t.core t.func [lineVa]
  let c : Ctx := ⟨sd, cu.gk, g, t, cu.cohort, cu.cohort, cu.pos⟩
  let inRa := g.ra.isSome
  let batch : FetchRes :=
    let bad := (lanesOf cu.cohort).map (fun l => (l, lineVa, r))
    if inRa then
      match sd.raFault cu.gk .fetch bad with
      | none => .next (s.raStop cu.gk 1)
      | some s' => .next (s'.raStop cu.gk 6)
    else .next (c.startRunAhead .fetch bad).1
  match r with
  | .unbacked ma => .fault (.unbacked ma)
  | .miss => .next (s.awaitWalk cu t.core t.func lineVa)
  | .page1 => batch
  | .page2 _ => batch
  | .access1 => .next (fetchRaise sd cu 7 (BitVec.ofNat 64 lineVa))
  | .access2 =>
    if inRa then .next (sd.raStop cu.gk 3)
    else if g.unsettled cu.cohort then .next { s with cur := none }
    else .next { sd.freeze t.func 8 lineVa pc.toNat (whereOf t.core (cu.gk % 32)) with cur := none }
  | .moving f =>
    .next { sd.setGroup cu.gk (g.waitAt cu.cohort (.moving f)) with cur := none }
  | .ok _ => .next { s with cur := none }

/-- The registers of an instruction whose runs depend on the launch or the plane, for the pair test; see `Machine/Runs.lean`
for the runs themselves. -/
abbrev RunsOf := Instr → List Opnd

/-- Where an entered slot stands: the upper slot of a pair that is entered issues alone (02 R34). -/
def posOf (bytes : List Byte) (slot : Nat) : PairPos :=
  if linePair bytes slot && !(decide (0 < slot) && linePair bytes (slot - 1)) then .lower else .single

/-- The cohort's place in a line whose bytes are at hand. -/
def State.placeCur (s : State) (cu : Cur) (bytes : List Byte) (slot : Nat) : State :=
  if cu.pos = .upper ∨ cu.pos = posOf bytes slot then s else { s with cur := some { cu with pos := posOf bytes slot } }

/-- The cohort's instruction in a line that it has entered. -/
def fetchSlot (runs : RunsOf) (s : State) (cu : Cur) (bytes : List Byte) (slot : Nat) : FetchRes :=
  if lineReserved bytes then .next (fetchRaise s cu 1 0) else
  match decode (slotWord bytes slot) with
  | .error _ => .next (fetchRaise s cu 1 0)
  | .ok i =>
    if cu.pos ≠ .upper ∧ posOf bytes slot = .lower then
      match i.info with
      | none => .next (fetchRaise s cu 1 0)
      | some lo =>
        let g := s.group cu.gk
        let upWord := slotWord bytes (slot + 1)
        let up := match decode upWord with | .ok j => j.info | .error _ => none
        let ok := match decode upWord, up with
          | .ok j, some up => pairOk bytes slot lo (some up.cls) && !pairConflict (pairOps lo (runs i)) (pairOps up (runs j))
          | .ok _, none => false
          | .error _, _ => pairOk bytes slot lo (majCls (Raw.unpack upWord).maj.toNat)
        let go := match up with
          | some up => g.pairReady (s.cycleOf cu.gk) lo.h up.h
          | none => g.ready (s.cycleOf cu.gk) lo.h .lower
        let waits := lo.h.rsbm ||| (match up with | some up => up.h.rsbm | none => 0)
        if !ok then .next (fetchRaise s cu 1 0)
        else if !go then .next { s with cur := none }
        else .run ((s.setGroup cu.gk (g.waited cu.cohort waits)).placeCur cu bytes slot) i
    else .run (s.placeCur cu bytes slot) i

/-- FETCH at the instruction at which a line that failed CHECK twice is entered (R33); once it is raised, the line is fetched afresh. -/
def badLine (s : State) (cu : Cur) (t : Team) (il : ILine) (lineVa : Nat) : State :=
  let k := s.core t.core
  let drop (s : State) : State := s.setCore t.core { k with icache := k.icache.filter (fun z => z ≠ il) }
  let g := s.group cu.gk
  fetchRaise (if g.ra.isNone && g.unsettled cu.cohort then s else drop s) cu 0x0D (BitVec.ofNat 64 lineVa)

/-- The fetch of the chosen cohort's instruction. -/
def fetchCur (runs : RunsOf) (s : State) (cu : Cur) : FetchRes :=
  match s.team? (cu.gk / 32), lanesOf cu.cohort with
  | some t, l :: _ =>
    let g := s.group cu.gk
    let x := g.lane l
    let pc := x.at.toNat
    let k := s.core t.core
    let inLine := (lanesOf cu.cohort).all (fun l => decide ((g.lane l).fline = x.fline))
    match (if inLine then x.fline else none) with
    | some fl =>
      (match k.iline t.func fl with
       | some il => if il.bad then .next (badLine s cu t il (pc / 64 * 64)) else fetchSlot runs s cu il.bytes (pc % 8)
       | none =>
         match fetchXl s t x.sup (pc / 64 * 64) with
         | .ok tr => .next (s.awaitLine cu t.core t.func (tr.fpa / 64) tr.tgt)
         | r => fetchStop s cu t (pc / 64 * 64) r)
    | none =>
      match fetchXl s t x.sup (pc / 64 * 64) with
      | .ok tr =>
        (match k.iline t.func (tr.fpa / 64) with
         | some il =>
           if il.bad then .next (badLine s cu t il (pc / 64 * 64))
           else fetchSlot runs (s.enterLine cu (tr.fpa / 64)) cu il.bytes (pc % 8)
         | none => .next (s.awaitLine cu t.core t.func (tr.fpa / 64) tr.tgt))
      | r => fetchStop s cu t (pc / 64 * 64) r
  | _, _ => .next { s with cur := none }

end Sys2Proof.Machine
end

