-- ==== Sys2Proof/Machine/Ctl.lean ====
section
/-!
DEFINITION. Control flow (06 R117 to R123, MAJ 0x60 to 0x6A).
-/
namespace Sys2Proof.Machine

/-- What the fetch of a transfer's target line shows (R117, 02 R41): the TGT bit may be tested, the line is not here yet, the
walk is not made yet, or the fetch fails, which is the target's own trap after the transfer. -/
inductive TgtRes where
  | bit (b : Bool)
  | absent (line : Nat) (tgt : Tgt)
  | walk
  /-- the page is moving, which raises no trap: the transfer waits (20 R361) -/
  | moving (fpa : Nat)
  | later

def Ctx.tgtOf (c : Ctx) (pc : DWord) : TgtRes :=
  match fetchXl c.s c.t c.sup (pc.toNat / 64 * 64) with
  | .ok tr => (match (c.s.core c.core).iline c.t.func (tr.fpa / 64) with
    | some il => if il.bad then .later else .bit (lineTgt il.bytes (pc.toNat % 8))
    | none => .absent (tr.fpa / 64) tr.tgt)
  | .miss => .walk
  | .moving f => .moving f
  | .page1 | .access1 | .page2 _ | .access2 | .unbacked _ => .later

/-- A control transfer of the active lanes to their targets: all checks come before any effect (R117). -/
def Ctx.transfer (c : Ctx) (target : Nat → DWord) (link : Option RegCode) : Res :=
  let rs := c.lanes.map (fun l => (l, c.tgtOf (target l)))
  match rs.find? (fun r => match r.2 with | .walk => true | .bit _ | .absent .. | .moving _ | .later => false) with
  | some r => .hold (c.s.awaitWalk ⟨c.gk, c.cohort, c.pos⟩ c.core c.t.func (target r.1).toNat)
  | none =>
    match rs.findSome? (fun r => match r.2 with | .moving f => some (r.1, f) | .bit _ | .absent .. | .walk | .later => none) with
    | some (l, f) =>
      .hold ((c.s.dropWfail c.core c.t.func [(target l).toNat]).setGroup c.gk (c.g.waitAt c.cohort (.moving f)))
    | none =>
    match rs.findSome? (fun r => match r.2 with | .absent f t => some (f, t) | .bit _ | .walk | .moving _ | .later => none) with
    | some (f, t) => .hold (c.s.awaitLine ⟨c.gk, c.cohort, c.pos⟩ c.core c.t.func f t)
    | none =>
      match rs.find? (fun r => match r.2 with | .bit b => !b | .absent .. | .walk | .moving _ | .later => false) with
      | some r => .trap 2 (target r.1)
      | none =>
        .ok { s := c.s, jumps := c.lanes.map (fun l => (l, target l)), mode := .fixed 2,
              wr := match link with
                | some d => c.lanes.flatMap (fun l => wr64 l d (nextPc c.pc))
                | none => [] }

def ctlRa : Opts := { ra := .ctl }
def stopRa : Opts := { ra := .stop }

/-- The options of a transfer to register A: a target that R14 does not allow is ILLEGAL. -/
def regTarget (a : RegCode) : Opts := { ra := .ctl, ill := fun c => c.lanes.any (fun l => !pcOk (c.r2 l a)) }

def execBra (h : Hdr) (off : BitVec 29) (slot : BitVec 3) (s : State) : Host.Outcome State Fault Refusal :=
  issueI (.bra h off slot) ctlRa (fun _ c => c.transfer (fun _ => branchTarget c.pc off slot) none) s

def execBrx (h : Hdr) (a : RegCode) (s : State) : Host.Outcome State Fault Refusal :=
  issueI (.brx h a) (regTarget a) (fun _ c => c.transfer (fun l => c.r2 l a) none) s

def execCall (h : Hdr) (d : RegCode) (off : BitVec 29) (slot : BitVec 3) (s : State) : Host.Outcome State Fault Refusal :=
  issueI (.call h d off slot) ctlRa (fun _ c => c.transfer (fun _ => branchTarget c.pc off slot) (some d)) s

def execCallx (h : Hdr) (d a : RegCode) (s : State) : Host.Outcome State Fault Refusal :=
  issueI (.callx h d a) (regTarget a) (fun _ c => c.transfer (fun l => c.r2 l a) (some d)) s

/-- RET has the effect of BRX (R118). -/
def execRet (h : Hdr) (a : RegCode) (s : State) : Host.Outcome State Fault Refusal :=
  issueI (.ret h a) (regTarget a) (fun _ c => c.transfer (fun l => c.r2 l a) none) s

/-- EXIT (R120). -/
def execExit (h : Hdr) (s : State) : Host.Outcome State Fault Refusal :=
  issueI (.exit h) stopRa (fun _ c => .ok { s := c.s, exits := c.act }) s

/-- TRAP (R121): its code is not used by the machine. -/
def execTrap (h : Hdr) (code : BitVec 16) (s : State) : Host.Outcome State Fault Refusal :=
  issueI (.trap h code) stopRa (fun _ c => if c.act = 0 then .ok { s := c.s } else .trapAct 0x0B) s

def execBpt (h : Hdr) (code : BitVec 16) (s : State) : Host.Outcome State Fault Refusal :=
  issueI (.bpt h code) stopRa (fun _ c => if c.act = 0 then .ok { s := c.s } else .trapAct 0x0C) s

def execNop (h : Hdr) (s : State) : Host.Outcome State Fault Refusal :=
  issueI (.nop h) {} (fun _ c => .ok { s := c.s }) s

/-- YIELD asks the grouping stage what a YLD bit asks (R122, 08 R151). -/
def execYield (h : Hdr) (s : State) : Host.Outcome State Fault Refusal :=
  issueI (.yield { h with yld := true }) {} (fun _ c => .ok { s := c.s }) s

/-- SLEEP (R123): a length of 0 acts as NOP. -/
def execSleep (h : Hdr) (b : Src) (s : State) : Host.Outcome State Fault Refusal :=
  issueI (.sleep h b) stopRa (fun _ c =>
    .ok { s := c.s, parks := c.lanes.filterMap (fun l =>
          let n := min (c.src l b).toNat (2 ^ 24)
          if n = 0 then none else some (l, .sleep (c.s.cycle c.core + n))) }) s

end Sys2Proof.Machine
end

