-- ==== Sys2Proof/Machine/Grp.lean ====
section
/-!
DEFINITION. Reconvergence registers, votes, shuffles, reductions and matches (09, MAJ 0x80 to 0x8A).
-/
namespace Sys2Proof.Machine

/-! ### K registers (R156 to R158) -/

def Group.kOf (g : Group) (k : BitVec 4) : Word := tget 0 g.k k.toNat
def Group.setK (g : Group) (k : BitVec 4) (v : Word) : Group := { g with k := tput 0 g.k k.toNat (v &&& g.live) }

/-- A write of K k when some lane participates (R157); the waits are evaluated as the cycle ends. -/
def Ctx.kWrite (c : Ctx) (k : BitVec 4) (v : Word) : Res :=
  if c.act = 0 then .ok { s := c.s } else .ok { s := c.s.setGroup c.gk (c.g.setK k v) }

def execKjoin (h : Hdr) (k : BitVec 4) (s : State) : Host.Outcome State Fault Refusal :=
  issueI (.kjoin h k) {} (fun _ c => c.kWrite k (c.g.kOf k ||| c.act)) s

def execKleave (h : Hdr) (k : BitVec 4) (s : State) : Host.Outcome State Fault Refusal :=
  issueI (.kleave h k) {} (fun _ c => c.kWrite k (c.g.kOf k &&& ~~~c.act)) s

/-- KWAIT (R158): the lanes park; those whose condition holds leave as the cycle ends (R159). -/
def execKwait (h : Hdr) (k : BitVec 4) (s : State) : Host.Outcome State Fault Refusal :=
  issueI (.kwait h k) { ra := .stop } (fun _ c =>
    .ok { s := c.s, parks := c.lanes.map (fun l => (l, .k k.toNat)) }) s

def execKsetG (h : Hdr) (k : BitVec 4) (a : RegCode) (s : State) : Host.Outcome State Fault Refusal :=
  issueI (.ksetG h k a) {} (fun _ c => if !c.uniform1 a then .trap 8 0 else c.kWrite k (c.u1 a)) s

def execKsetCohort (h : Hdr) (k : BitVec 4) (s : State) : Host.Outcome State Fault Refusal :=
  issueI (.ksetCohort h k) {} (fun _ c => c.kWrite k c.act) s

def execKsetClr (h : Hdr) (k : BitVec 4) (s : State) : Host.Outcome State Fault Refusal :=
  issueI (.ksetClr h k) {} (fun _ c => c.kWrite k 0) s

def execKsetLive (h : Hdr) (k : BitVec 4) (s : State) : Host.Outcome State Fault Refusal :=
  issueI (.ksetLive h k) {} (fun _ c => c.kWrite k c.g.live) s

def execKmov (h : Hdr) (d : RegCode) (k : BitVec 4) (s : State) : Host.Outcome State Fault Refusal :=
  alu (.kmov h d k) (fun c l => wr1 l d (c.g.kOf k)) s

/-- KMOV.k Kj, Kk: IMM[11:8] names j, the destination. -/
def execKmovK (h : Hdr) (k j : BitVec 4) (s : State) : Host.Outcome State Fault Refusal :=
  issueI (.kmovK h k j) {} (fun _ c => c.kWrite j (c.g.kOf k)) s

/-! ### Election and votes (R163) -/

def execElect (h : Hdr) (d : RegCode) (s : State) : Host.Outcome State Fault Refusal :=
  alu (.elect h d) (fun c l => wrP l d (decide (c.lanes.head? = some l))) s

/-- Lanes poisoned together: every participating lane when one of them reads a poisoned register (19 R340). -/
def Ctx.shared (c : Ctx) (codes : List Nat) : List Nat :=
  if c.g.ra.isSome && c.lanes.any (fun l => codes.any (fun r => (c.g.lane l).poison.contains r)) then c.lanes else []

/-- The mask of participating lanes whose vote is 1. -/
def Ctx.ballot (c : Ctx) (neg : Bool) (a : RegCode) : Word := maskOf (c.lanes.filter (fun l => xor (c.rp l a) neg))

def voteWr (m : VoteMode) (part ballot : Word) (l : Nat) (d : RegCode) : List Wr :=
  match m with
  | .all => wrP l d (decide (ballot = part))
  | .any => wrP l d (decide (ballot ≠ 0))
  | .uni => wrP l d (decide (ballot = part) || decide (ballot = 0))
  | .ballot => wr1 l d ballot

def execVote (h : Hdr) (m : VoteMode) (neg : Bool) (d a : RegCode) (s : State) : Host.Outcome State Fault Refusal :=
  issueI (.vote h m neg d a) {} (fun inf c =>
    .ok { s := c.s, wr := c.lanes.flatMap (fun l => voteWr m c.act (c.ballot neg a) l d), mode := .fixed inf.lat,
          poison := c.shared (opCodes (rp a)) }) s

/-! ### Exchanged sources (R154) -/

/-- Some source lane has a write outstanding, so that the instruction waits to issue. -/
def Ctx.unlanded (c : Ctx) (lanes : List Nat) : Bool := c.g.writing (maskOf lanes)

/-- The mark of the last write of one of the registers in one of the lanes. -/
def Ctx.lastMark (c : Ctx) (lanes : List Nat) (codes : List Nat) : Option DWord :=
  lanes.findSome? (fun l => codes.findSome? (fun r => c.g.markLast (c.s.cycle c.core) l r))

def Ctx.last1 (c : Ctx) (l : Nat) (a : RegCode) : Word := c.g.rdLast (c.s.cycle c.core) l a
def Ctx.last2 (c : Ctx) (l : Nat) (a : RegCode) : DWord := c.last1 l (codeAdd a 1) ++ c.last1 l a

/-- An instruction that exchanges A among the lanes of `src`: it waits until every write of theirs has landed, and the mark of a last
write raises ECC. -/
def exchange (i : Instr) (a : Opnd) (src : Ctx → List Nat) (body : Info → Ctx → Res) (s : State) :
    Host.Outcome State Fault Refusal :=
  issueI i { noStall := [a] } (fun inf c =>
    if c.unlanded (src c) then .hold c.s
    else match c.lastMark (src c) (opCodes a) with
      | some x => .trap 0x0E x
      | none => body inf c) s

/-- The source lane of SHFL and whether it exists (R164): place `q` of lane l in its segment of width w, b signed. -/
def shflSource (m : ShflMode) (w l : Nat) (b : Int) : Nat × Bool :=
  let s0 := l - l % w
  let q := l % w
  let r := (b % (w : Int)).toNat
  match m with
  | .pick => (s0 + r, true)
  | .shift => (((l : Int) + b).toNat, decide (0 ≤ (q : Int) + b) && decide ((q : Int) + b < w))
  | .rot => (s0 + (q + r) % w, true)
  | .xor => (s0 + (q ^^^ r), true)

/-- The width and the operand b of SHFL. -/
def Ctx.shflArgs (c : Ctx) (l : Nat) (b : ShflB) : Nat × Int :=
  match b with
  | .reg r => (32, (c.r1 l r).toInt)
  | .imm v lw => (2 ^ lw.toNat, v.toInt)

def execShfl (h : Hdr) (m : ShflMode) (d a : RegCode) (b : ShflB) (cc : RegCode) (s : State) :
    Host.Outcome State Fault Refusal :=
  exchange (.shfl h m d a b cc) (rd a) (fun c => c.lanes) (fun inf c =>
    let src (l : Nat) : Nat × Bool :=
      let (w, x) := c.shflArgs l b
      let (j, ok) := shflSource m w l x
      if ok && c.act.getLsbD j then (j, true) else (l, false)
    .ok { s := c.s, mode := .fixed inf.lat,
          wr := c.lanes.flatMap (fun l => wr1 l d (c.last1 (src l).1 a) ++ wrP l cc (src l).2),
          poison := if c.g.ra.isNone then [] else
            c.lanes.filter (fun l => (c.g.lane (src l).1).poison.contains a.toNat) }) s

/-! ### Reductions and matches (R165 to R167) -/

def reduxVal (op : ReduxOp) (vs : List Word) : Word :=
  let fold (f : Word → Word → Word) : Word := match vs with | [] => 0 | v :: r => r.foldl f v
  match op with
  | .add => fold (· + ·)
  | .minS => fold (fun a b => if a.sle b then a else b)
  | .maxS => fold (fun a b => if b.sle a then a else b)
  | .minU => fold (fun a b => if a.ule b then a else b)
  | .maxU => fold (fun a b => if b.ule a then a else b)
  | .and => fold (· &&& ·)
  | .or => fold (· ||| ·)
  | .xor => fold (· ^^^ ·)
  | .fadd => match vs with
    | [] => 0
    | v :: r => BitVec.ofNat 32 (roundTo fp32 false .rn
        (r.foldl (fun x w => x.add false (fp32.value w.toNat)) (fp32.value v.toNat)))
  | .fmin => fold (fun a b => BitVec.ofNat 32 (minmaxCode fp32 false a.toNat b.toNat))
  | .fmax => fold (fun a b => BitVec.ofNat 32 (minmaxCode fp32 true a.toNat b.toNat))

/-- A lone NaN becomes the canonical one (R101); a single lane's own sum rounds as it stands. -/
def reduxCanon (op : ReduxOp) (v : Word) : Word :=
  match op with
  | .fmin | .fmax => if (fp32.value v.toNat).isNan then 0x7FC00000 else v
  | .add | .minS | .maxS | .minU | .maxU | .and | .or | .xor | .fadd => v

def execRedux (h : Hdr) (op : ReduxOp) (d a : RegCode) (s : State) : Host.Outcome State Fault Refusal :=
  exchange (.redux h op d a) (rd a) (fun c => c.lanes) (fun inf c =>
    let v := reduxCanon op (reduxVal op (c.lanes.map (fun l => c.last1 l a)))
    .ok { s := c.s, mode := .fixed inf.lat, wr := c.lanes.flatMap (fun l => wr1 l d v), poison := c.shared [a.toNat] }) s

/-- What MATCH writes in lane `l`, `same` comparing two lanes. -/
def matchWr (m : MatchMode) (lanes : List Nat) (same : Nat → Nat → Bool) (l : Nat) (d : RegCode) : List Wr :=
  match m with
  | .any => wr1 l d (maskOf (lanes.filter (fun j => same l j)))
  | .all cc =>
    if lanes.all (fun j => same l j) then wr1 l d (maskOf lanes) ++ wrP l cc true else wr1 l d 0 ++ wrP l cc false

def execMatchLanes (h : Hdr) (wide : Bool) (m : MatchMode) (d a : RegCode) (s : State) : Host.Outcome State Fault Refusal :=
  exchange (.matchLanes h wide m d a) (if wide then rd2 a else rd a) (fun c => c.lanes) (fun inf c =>
    let same (i j : Nat) : Bool :=
      if wide then decide (c.last2 i a = c.last2 j a) else decide (c.last1 i a = c.last1 j a)
    .ok { s := c.s, mode := .fixed inf.lat, wr := c.lanes.flatMap (fun l => matchWr m c.lanes same l d),
          poison := c.shared (opCodes (if wide then rd2 a else rd a)) }) s

/-- The source lane of RDLANE, B[4:0]. -/
def Ctx.pickLane (c : Ctx) (b : Src) : Nat :=
  match b with
  | .reg r => (c.u1 r).toNat % 32
  | .imm v => v.toNat % 32

/-- B is one value in every participating lane. -/
def Ctx.laneUniform (c : Ctx) (b : Src) : Bool := match b with | .reg r => c.uniform1 r | .imm _ => true

def execRdlane (h : Hdr) (wide : Bool) (d a : RegCode) (b : Src) (s : State) : Host.Outcome State Fault Refusal :=
  exchange (.rdlane h wide d a b) (if wide then rd2 a else rd a)
    (fun c => if decide (c.act ≠ 0) && c.laneUniform b && c.g.live.getLsbD (c.pickLane b) then [c.pickLane b] else []) (fun inf c =>
    if !c.laneUniform b then .trap 8 0 else
    let i := c.pickLane b
    let live := c.g.live.getLsbD i
    let codes := opCodes (if wide then rd2 a else rd a)
    .ok { s := c.s, mode := .fixed inf.lat,
          wr := c.lanes.flatMap (fun l => if wide then wr64 l d (if live then c.last2 i a else 0)
            else wr1 l d (if live then c.last1 i a else 0)),
          poison := if c.g.ra.isSome && codes.any (fun r => (c.g.lane i).poison.contains r) then c.lanes else [] }) s

end Sys2Proof.Machine
end

