-- ==== Sys2Proof/Machine/Mat.lean ====
section
/-!
DEFINITION. The stationary matrix array (10) and its instructions (11, MAJ 0x90 to 0x98). An instruction that issues is
appended to the queue of its context plane and takes effect there in issue order (R170): loads, swaps, rows and drains by
the steps MLDS_COMPLETE, MSWAP_WAVEFRONT, MSTR_ROW_WRITE and DRAIN_COMPLETE; MZERO and MBIAS as soon as they head the queue.
-/
namespace Sys2Proof.Machine

/-! ### Tile classes (R171, R172) -/

/-- The class of an element format; `none` for FP32 and an unbound slot. -/
def clsOf (e : EFmt) : Option Nat :=
  match e with
  | .unbound => none
  | .float _ w | .int w _ => if w = 16 then some 16 else if w = 8 ∨ w = 6 then some 8 else if w = 4 then some 4 else none

/-- The depth D. -/
def clsDepth (cls : Nat) : Nat := 1024 / cls

/-- The logical depth of a tile. -/
def logDepth (cls : Nat) (sp : Bool) : Nat := if sp then 2 * clsDepth cls else clsDepth cls

/-- Stored elements of a chunk. -/
def chunkLen (cls : Nat) : Nat := 128 / cls

/-- The format of a slot that a load or a stream accepts, with its class. -/
def matFmt (slot : DWord) : Option (EFmt × Nat) :=
  match slotFmt slot with
  | none => none
  | some e => (clsOf e).map (fun c => (e, c))

/-- Blocks of scales along a logical depth. -/
def scaleBlocks (slot : DWord) (ld : Nat) : Nat := max 1 (ld / blockLen slot)

/-- Bytes of one scale entry. -/
def scaleBytes (slot : DWord) : Nat := if slotSck slot = 1 then 1 else 2

/-- Bytes of a stream row, and the pitch from one row to the next (R191). -/
def rowBytes (e : EFmt) (cls : Nat) (sp : Bool) : Nat := (logDepth cls sp * e.width + 7) / 8
def pitch (n : Nat) : Nat := (n + 127) / 128 * 128

/-- An integer value of an exact number. -/
def xToInt (x : Xv) : Int :=
  match x with
  | .nan | .inf _ => 0
  | .fin neg n d => if neg then -((n / d : Nat) : Int) else (n / d : Nat)

/-! ### Regions of the scratchpad (R186) -/

/-- The first byte of the regions (offset, length) that lies outside a scratchpad. -/
def regionsOut (size : Nat) (rs : List (Nat × Nat)) : Option Nat :=
  rs.findSome? (fun (r : Nat × Nat) => if r.2 = 0 then none else firstBad r.1 r.2 size)

/-- The first base that is not a multiple of 128. -/
def regionsMis (rs : List (Nat × Nat)) : Option Nat :=
  rs.findSome? (fun (r : Nat × Nat) => if r.2 ≠ 0 ∧ r.1 % 128 ≠ 0 then some r.1 else none)

/-- `n` bytes of a team's scratchpad. -/
def State.padSpan (s : State) (team a n : Nat) : List Byte := tspan 0 (s.padBytes (.team team)) a n

/-- Whether byte `a` of a team's scratchpad is marked (13 R216). -/
def State.padMarked (s : State) (team a : Nat) : Bool := (s.padMarks (.team team)).contains (a / 8)

/-- Scales as raw values: entries `i0` to `i0 + n − 1` of the array at `a`. -/
def State.scaleSpan (s : State) (team : Nat) (slot : DWord) (a i0 n : Nat) : List Nat :=
  if slotSck slot = 0 then List.replicate n 0
  else
    let w := scaleBytes slot
    let v := ofLE (s.padSpan team (a + i0 * w) (n * w))
    (List.range n).map (fun i => element v (8 * w) i)

/-! ### Loading (R173, R175, R189) -/

/-- The logical input of stored row `k` of a column with nibble `nib` (R173). -/
def logicalOf (sp : Bool) (k nib : Nat) : Nat :=
  if sp then 4 * (k / 2) + (if k % 2 = 0 then nib % 4 else nib / 4 % 4) else k

/-- The metadata nibble of stored row `k` in column `n`. -/
def nibAt (md : Array Nat) (k n : Nat) : Nat := (md[k / 2 * 64 + n]?).getD 0

/-- The plane that a load builds. -/
def State.loadTile (s : State) (team cls : Nat) (sp int : Bool) (slot : DWord) (a b c : Nat) : WPlane :=
  match matFmt slot with
  | none => {}
  | some (e, _) =>
    let d := clsDepth cls
    let nEl := d * 64
    let v := ofLE (s.padSpan team a (nEl * e.width / 8))
    let nib := d / 2 * 64
    let mdv := if sp then ofLE (s.padSpan team c (nib / 2)) else 0
    let md : Array Nat := if sp then ((List.range nib).map (fun i => element mdv 4 i)).toArray else #[]
    let nb := scaleBlocks slot (logDepth cls sp)
    let sc : Array Nat := (s.scaleSpan team slot b 0 (nb * 64)).toArray
    let l := blockLen slot
    let at2 (k n : Nat) : Nat := min (logicalOf sp k (nibAt md k n) / l) (nb - 1) * 64 + n
    let ws := (List.range nEl).map (fun i =>
      toX (expand e (element v e.width i) (scaleVal (slotSck slot) ((sc[at2 (i / 64) (i % 64)]?).getD 0))))
    let marks := if s.padMarks (.team team) = [] then [] else
      (List.range nEl).filter (fun i =>
        s.padMarked team (a + i * e.width / 8) || s.padMarked team (a + (i * e.width + e.width - 1) / 8) ||
        (sp && s.padMarked team (c + (i / 128 * 64 + i % 64) / 2)) ||
        (decide (slotSck slot ≠ 0) && s.padMarked team (b + at2 (i / 64) (i % 64) * scaleBytes slot)))
    { w := tsplice 0 [] 0 ws, md := if sp then tsplice 0 [] 0 ((List.range nib).map (fun i => element mdv 4 i)) else [],
      cls := cls, sparse := sp, int := int, marks := marks }

/-! ### Streaming (R176, R177, R191) -/

/-- Row `m` of a stream as the array of its own plane reads it, once: its bytes, its scales and whether a marked byte is among them. -/
def State.readRow (s : State) (e : EFmt) (cls : Nat) (sp : Bool) (slot : DWord) (src : MatSrc) (team c m : Nat) : MatSrc :=
  let n := rowBytes e cls sp
  let nb := scaleBlocks slot (logDepth cls sp)
  let padMark (t a len : Nat) : Bool :=
    (s.padMarks (.team t)).any (fun w => decide (a / 8 ≤ w) && decide (w ≤ (a + len - 1) / 8))
  let scMark := decide (slotSck slot ≠ 0) && padMark team (c + m * nb * scaleBytes slot) (nb * scaleBytes slot)
  let sc := s.scaleSpan team slot c (m * nb) nb
  match src with
  | .pad t a => .row (s.padSpan t (a + m * pitch n) n) sc (padMark t (a + m * pitch n) n || scMark)
  | .regs rows => .row (((rows[m]?).getD []).take n) sc scMark
  | .row bytes sc marked => .row bytes sc marked

/-- The expanded activations of a row that has been read. -/
def expandRow (e : EFmt) (cls : Nat) (sp : Bool) (slot : DWord) (bytes : List Byte) (scales : List Nat) : List Xv :=
  let ld := logDepth cls sp
  let v := ofLE bytes
  let nb := scaleBlocks slot ld
  let sc : Array Nat := scales.toArray
  (List.range ld).map (fun k =>
    expand e (element v e.width k) (scaleVal (slotSck slot) ((sc[min (k / blockLen slot) (nb - 1)]?).getD 0)))

/-- One row of the expanded activations: their values and which are marked. -/
def State.actRow (s : State) (e : EFmt) (cls : Nat) (sp : Bool) (slot : DWord) (src : MatSrc) (team c m : Nat) :
    List Xv × Bool :=
  match s.readRow e cls sp slot src team c m with
  | .row bytes scales marked => (expandRow e cls sp slot bytes scales, marked)
  | .pad .. | .regs _ => ([], false)

/-- The products of stored row `k` of a tile with a row of activations, by column. -/
def rowProducts (sp : Bool) (md : Array Nat) (xs : Array Xv) (k : Nat) (ws : List Nat) : List Xv :=
  ws.zipIdx.map (fun (w, n) => Xv.mul ((xs[logicalOf sp k (nibAt md k n)]?).getD .nan) (fmtX.value w))

/-- Exact sums of the products of stored rows `k0` to `k0 + n − 1`, by column (R176). -/
def chunkSums (sp : Bool) (md : Array Nat) (xs : Array Xv) (w : Table Nat) (k0 n : Nat) : List Xv :=
  match (List.range n).map (fun i => rowProducts sp md xs (k0 + i) (tspan 0 w ((k0 + i) * 64) 64)) with
  | [] => []
  | r :: rs => rs.foldl (fun acc r => List.zipWith (Xv.add false) acc r) r

/-- One bank word after a chunk: both roundings RN (R176). -/
def accWord (q : Word) (sum : Xv) : Word :=
  BitVec.ofNat 32 (roundTo fp32 false .rn
    ((fp32.value q.toNat).add false (fp32.value (roundTo fp32 false .rn sum))))

/-- One bank row after one activation row through a plane (R176, R177). -/
def accRow (w : WPlane) (xs : List Xv) (q : List Word) : List Word :=
  let xa := xs.toArray
  let md : Array Nat := if w.sparse then (tspan 0 w.md 0 (clsDepth w.cls / 2 * 64)).toArray else #[]
  let c := chunkLen w.cls
  (List.range 8).foldl (fun q i =>
    let sums := chunkSums w.sparse md xa w.w (i * c) c
    List.zipWith (fun v x => if w.int then v + BitVec.ofInt 32 (xToInt x) else accWord v x) q sums) q

/-! ### Banks -/

/-- The index of the first word of a row of a bank. -/
def bankAt (bank q : Nat) : Nat := bank * 16384 + q * 64

def Plane.row (p : Plane) (bank q : Nat) : List Word := tspan 0 p.banks (bankAt bank q) 64
def Plane.setRow (p : Plane) (bank q : Nat) (ws : List Word) : Plane := { p with banks := tsplice 0 p.banks (bankAt bank q) ws }

/-- Words marked (R184). -/
def Plane.markWords (p : Plane) (ws : List Nat) : Plane :=
  { p with bankMarks := p.bankMarks ++ ws.filter (fun w => !p.bankMarks.contains w) }

/-- Rows cleared, with their marks (R193). -/
def Plane.zeroRows (p : Plane) (bank q0 n : Nat) : Plane :=
  { p with banks := tsplice 0 p.banks (bankAt bank q0) (List.replicate (n * 64) 0),
           bankMarks := p.bankMarks.filter (fun w => decide (w < bankAt bank q0) || decide (bankAt bank (q0 + n) ≤ w)) }

/-- MBIAS on one word. -/
def biasWord (int : Bool) (q b : Word) : Word :=
  if int then q + b
  else BitVec.ofNat 32 (roundTo fp32 false .rn ((fp32.value q.toNat).add false (fp32.value b.toNat)))

/-- MBIAS on rows, with the marks of the bias bytes read (13 R216). -/
def State.biasRows (s : State) (p : Plane) (team : Nat) (int : Bool) (bank q0 n a : Nat) : Plane :=
  let v := ofLE (s.padSpan team a 256)
  let bs := (List.range 64).map (fun i => BitVec.ofNat 32 (element v 32 i))
  let p := (List.range n).foldl (fun p r => p.setRow bank (q0 + r) (List.zipWith (biasWord int) (p.row bank (q0 + r)) bs)) p
  if s.padMarks (.team team) = [] then p else
    p.markWords ((List.range n).flatMap (fun r =>
      ((List.range 64).filter (fun i => s.padMarked team (a + 4 * i))).map (fun i => bankAt bank (q0 + r) + i)))

/-! ### The queue of a plane -/

/-- The scratchpad of a team as a matrix instruction of token `k` reads it: a byte that a later store of a lane has replaced has either
value (R187). -/
def State.padSeen (s : State) (team k : Nat) : State :=
  match s.team? team with
  | none => s
  | some t =>
    let old := t.spadOld.filter (fun e => decide (k < e.2.2) && Config.mixByte s.freeCtr e.1)
    if t.spadOld = [] then s else
    { s.setTeam team { t with spad := old.reverse.foldl (fun m e => tput 0 m e.1 e.2.1) t.spad } with freeCtr := s.freeCtr + 1 }

/-- Kept bytes are dropped once no matrix instruction of the plane is outstanding. -/
def State.dropOld (s : State) (pl : Nat) : State :=
  let p := s.plane pl
  if p.matq ≠ [] then s else
  p.teams.foldl (fun s t => match s.team? t with
    | some x => if x.spadOld = [] then s else s.setTeam t { x with spadOld := [] }
    | none => s) s

def Plane.popMat (p : Plane) : Plane := { p with matq := p.matq.drop 1 }

def State.setFree (s : State) (n : Nat) : State := { s with freeCtr := n }

/-- MZERO and MBIAS at the head of the queue take effect. -/
def State.settleMat (pl : Nat) : Nat → State → State
  | 0, s => s
  | n + 1, s =>
    let p := s.plane pl
    match p.matq.head? with
    | some (.zero tok bank q0 k) =>
      State.settleMat pl n ((s.setPlane pl (p.popMat.zeroRows bank q0 k)).finishToks [tok])
    | some (.bias tok team int bank q0 k a) =>
      State.settleMat pl n (((s.setPlane pl ((s.padSeen team tok.tok).biasRows p.popMat team int bank q0 k a)).setFree (s.padSeen team tok.tok).freeCtr).finishToks [tok])
    | some (.load ..) | some (.swap ..) | some (.stream ..) | some (.drain ..) | none => s

def State.settle (s : State) (pl : Nat) : State := State.settleMat pl (s.plane pl).matq.length s

/-- The head of the queue completes: it leaves, its scoreboard falls, and what it held back follows. -/
def State.popMat (s : State) (pl : Nat) (tok : Token) : State :=
  (((s.setPlane pl (s.plane pl).popMat).finishToks [tok]).settle pl).dropOld pl

/-- MLDS_COMPLETE (R179, R189). -/
def execMldsComplete (pl : Nat) (s : State) : Host.Outcome State Fault Refusal :=
  match (s.plane pl).matq.head? with
  | some (.load tok team cls sp int slot a b c) =>
    let p := s.plane pl
    let x := s.padSeen team tok.tok
    .next (((s.setPlane pl { p with shadowW := x.loadTile team cls sp int slot a b c }).setFree x.freeCtr).popMat pl tok)
  | some (.swap ..) | some (.stream ..) | some (.drain ..) | some (.zero ..) | some (.bias ..) | none => .next s

/-- MSWAP_WAVEFRONT (R179, R190). -/
def execMswapWavefront (pl : Nat) (s : State) : Host.Outcome State Fault Refusal :=
  match (s.plane pl).matq.head? with
  | some (.swap tok) =>
    let p := s.plane pl
    .next ((s.setPlane pl { p with liveW := p.shadowW, shadowW := p.liveW }).popMat pl tok)
  | some (.load ..) | some (.stream ..) | some (.drain ..) | some (.zero ..) | some (.bias ..) | none => .next s

/-- The meter MAC0 to MAC5 of a format (22 Table 22-4). -/
def macIndex (e : EFmt) : Nat :=
  if e.isInt then (if e.width = 4 then 5 else 4)
  else match e.width with | 16 => 0 | 8 => 1 | 6 => 2 | _ => 3

/-- The logical products of one row, counted for the plane's function. -/
def State.countMacs (s : State) (pl : Nat) (e : EFmt) (n : Nat) : State :=
  match (s.plane pl).func with
  | none => s
  | some fn =>
    let f := s.func fn
    let i := macIndex e
    s.setFunc fn { f with meter := { f.meter with mac := tput 0 f.meter.mac i (tget 0 f.meter.mac i + n) } }

/-- The columns through which a row meets an error: all of them for a marked activation, else those of marked elements of the tile,
whose stored rows lie below its depth (R184). -/
def WPlane.badCols (w : WPlane) (marked : Bool) : List Nat :=
  if marked then List.range 64
  else (List.range 64).filter (fun n => w.marks.any (fun i => decide (i % 64 = n) && decide (i / 64 < clsDepth w.cls)))

/-- One row of a stream is accumulated into its bank row (R176 to R178, R184, R191). A row that meets a plane of another sparsity, class or kind
gives a free value: where a member's MSWAP that was issued after the leader's check has changed its plane, R181 and R196 state no result
(DESIGN CHOICE, log entry 58). -/
def State.streamRow (s : State) (pl : Nat) (bank q m : Nat) (set sp : Bool) (slot : DWord) (src : MatSrc) (team c : Nat) :
    State :=
  let p := s.plane pl
  let w := p.liveW
  let q0 := if set then List.replicate 64 0 else p.row bank q
  match matFmt slot with
  | none => s
  | some (e, cls) =>
    let s := s.countMacs pl e (64 * logDepth cls sp)
    let (xs, marked) := s.actRow e cls sp slot src team c m
    let bad := (w.badCols marked).map (fun n => bankAt bank q + n)
    if w.sparse ≠ sp ∨ w.cls ≠ cls ∨ w.int ≠ e.isInt then
      { s.setPlane pl ((p.setRow bank q ((List.range 64).map (fun i => Config.freeWord s.freeCtr i))).markWords bad) with
        freeCtr := s.freeCtr + 1 }
    else s.setPlane pl ((p.setRow bank q (accRow w xs q0)).markWords bad)

/-- A row that the leader's array takes reaches the queue of each member that is still joined; the last one completes the member's part
of the stream (R181). -/
def State.sendRow (s : State) (tok : Token) (q : Nat) (last set sp : Bool) (slot : DWord) (row : MatSrc)
    (members : List (Nat × Nat × Nat)) : State :=
  members.foldl (fun s (pos, t, b) =>
    let part : Token := ⟨tok.gk, tok.tok, if last then maskOf [pos] else 0⟩
    match s.team? t with
    | none => s.finishToks [part]
    | some m =>
      match m.gang with
      | .none | .lead .. => s.finishToks [part]
      | .member .. =>
        let pl := 3 * m.core + m.plane
        let p := s.plane pl
        s.setPlane pl { p with matq := p.matq ++ [.stream part b q 0 1 set sp slot row 0 0 []] }) s

/-- MSTR_ROW_WRITE. -/
def execMstrRowWrite (pl : Nat) (s : State) : Host.Outcome State Fault Refusal :=
  match (s.plane pl).matq.head? with
  | some (.stream tok bank q0 nxt rows set sp slot src team c members) =>
    let x := s.padSeen team tok.tok
    let row := match matFmt slot with
      | none => src
      | some (e, cls) => x.readRow e cls sp slot src team c nxt
    let s := (s.setFree x.freeCtr).streamRow pl bank (q0 + nxt) nxt set sp slot row team c
    let s := s.sendRow tok (q0 + nxt) (decide (rows ≤ nxt + 1)) set sp slot row members
    if nxt + 1 < rows then
      let p := s.plane pl
      .next (s.setPlane pl { p with
        matq := .stream tok bank q0 (nxt + 1) rows set sp slot src team c members :: p.matq.drop 1 })
    else .next (s.popMat pl tok)
  | some (.load ..) | some (.swap ..) | some (.drain ..) | some (.zero ..) | some (.bias ..) | none => .next s

/-! ### Draining (R194) -/

/-- The element format of a drain: 32 bits unchanged under RAW. -/
def drainFmt (x : Drain) (slot : DWord) : EFmt :=
  match x with
  | .raw => .int 32 false
  | .cvt .. => (slotFmt slot).getD .unbound

/-- The element of a bank word. -/
def drainElem (x : Drain) (slot : DWord) (scale : Word) (v : Word) : Nat :=
  match x with
  | .raw => v.toNat
  | .cvt cv sat _ intw =>
    let val := if intw then xInt v.toInt else fp32.value v.toNat
    (drainFmt x slot).put (sat || slotSat slot) (cvdMode cv slot) (val.div (scaleVal (slotSck slot) scale.toNat))

/-- Registers that one lane receives for a row (R194). -/
def drainWidth (x : Drain) (slot : DWord) : Nat := if (drainFmt x slot).width = 32 then 2 else 1

/-- The words of one lane for one row: columns 2l and 2l + 1. -/
def drainWords (k : Nat) (lo hi : Nat) : List Word :=
  if k = 32 then [BitVec.ofNat 32 lo, BitVec.ofNat 32 hi] else [BitVec.ofNat 32 (lo % 2 ^ k + 2 ^ k * (hi % 2 ^ k))]

/-- The bytes of a drain to scratchpad. -/
def Plane.drainBytes (p : Plane) (bank q0 n : Nat) (x : Drain) (slot : DWord) (scale : Word) : List Byte :=
  let k := (drainFmt x slot).width
  leBytes (packBits k ((tspan 0 p.banks (bankAt bank q0) (n * 64)).map (drainElem x slot scale))) (n * 64 * k / 8)

/-- A drain's effect. -/
def State.drainMat (s : State) (pl : Nat) (tok : Token) (team bank q0 n : Nat) (x : Drain) (z : Bool) (slot : DWord)
    (scale : Word) (a : Nat) (dest : Option Nat) : State :=
  let p := s.plane pl
  let k := (drainFmt x slot).width
  let es := ((tspan 0 p.banks (bankAt bank q0) (n * 64)).map (drainElem x slot scale)).toArray
  let marked (i : Nat) : Bool := p.bankMarks.contains (bankAt bank q0 + i)
  let s := s.setPlane pl (if z then p.zeroRows bank q0 n else p)
  match dest with
  | none =>
    let s := s.padWrite (.team team) a (p.drainBytes bank q0 n x slot scale)
    (match s.team? team with
     | none => s
     | some t =>
       let ms := if p.bankMarks = [] then [] else ((List.range (n * 64)).filter marked).flatMap (fun i =>
         [(a + i * k / 8) / 8, (a + (i * k + k - 1) / 8) / 8])
       s.setTeam team { t with spadMarks := ms.foldl (fun l w => if l.contains w then l else l ++ [w]) t.spadMarks })
  | some d =>
    let w := drainWidth x slot
    let g := (s.group tok.gk).withCkpt (fun g => (List.range n).foldl (fun g j => (lanesOf tok.lanes).foldl (fun g l =>
      let i := j * 64 + 2 * l
      let ws := drainWords k ((es[i]?).getD 0) ((es[i + 1]?).getD 0)
      ws.zipIdx.foldl (fun (g : Group) (v, r) =>
        let bad := if w = 2 then (if marked (i + r) then some (i + r) else none)
          else if marked i then some i else if marked (i + 1) then some (i + 1) else none
        g.supply tok.tok l (d + j * w + r) v (bad.map (fun b => Config.bankAddr pl (bankAt bank q0 + b)))) g) g) g)
    s.setGroup tok.gk g

/-- Some bytes of a drain are written before the others: an access of the group meets either value of each (R187). -/
def State.drainHalf (s : State) (pl team bank q0 n : Nat) (x : Drain) (slot : DWord) (scale : Word) (a : Nat) : State :=
  let bs := (s.plane pl).drainBytes bank q0 n x slot scale
  match s.team? team with
  | none => s
  | some t =>
    { s.setTeam team { t with spad := bs.zipIdx.foldl (fun m (b, i) => if Config.mixByte s.freeCtr (a + i) then tput 0 m (a + i) b else m) t.spad }
      with freeCtr := s.freeCtr + 1 }

/-- DRAIN_COMPLETE: a drain to scratchpad has a first step in which some of its bytes are written. -/
def execDrainComplete (pl : Nat) (s : State) : Host.Outcome State Fault Refusal :=
  match (s.plane pl).matq.head? with
  | some (.drain tok team bank q0 n x z slot scale a none false) =>
    let s := s.drainHalf pl team bank q0 n x slot scale a
    let p := s.plane pl
    .next (s.setPlane pl { p with matq := .drain tok team bank q0 n x z slot scale a none true :: p.matq.drop 1 })
  | some (.drain tok team bank q0 n x z slot scale a dest _) =>
    .next ((s.drainMat pl tok team bank q0 n x z slot scale a dest).popMat pl tok)
  | some (.load ..) | some (.swap ..) | some (.stream ..) | some (.zero ..) | some (.bias ..) | none => .next s

/-! ### Issue -/

/-- The class, sparsity and kind of the plane that the first row of a stream issued now meets (R191): those of the live
plane once every queued load and swap has taken effect. -/
def Plane.firstMeets (p : Plane) : Nat × Bool × Bool :=
  let at1 (w : WPlane) : Nat × Bool × Bool := (w.cls, w.sparse, w.int)
  (p.matq.foldl (fun (a : (Nat × Bool × Bool) × (Nat × Bool × Bool)) op => match op with
    | .load _ _ cls sp int _ _ _ _ => (a.1, (cls, sp, int))
    | .swap _ => (a.2, a.1)
    | .stream .. | .zero .. | .bias .. | .drain .. => a) (at1 p.liveW, at1 p.shadowW)).1

/-- The token of a row that a gang's leader has sent to a member. -/
def MatOp.rowTok : MatOp → Option Token
  | .stream tok _ _ _ _ _ _ _ (.row ..) _ _ _ => some tok
  | .stream _ _ _ _ _ _ _ _ (.pad ..) _ _ _ | .stream _ _ _ _ _ _ _ _ (.regs _) _ _ _ => none
  | .load .. | .swap .. | .zero .. | .bias .. | .drain .. => none

/-- The token of an instruction of the plane's own team. -/
def MatOp.ownTok : MatOp → Option Token
  | .stream _ _ _ _ _ _ _ _ (.row ..) _ _ _ => none
  | .stream tok _ _ _ _ _ _ _ (.pad ..) _ _ _ | .stream tok _ _ _ _ _ _ _ (.regs _) _ _ _ => some tok
  | .load tok .. | .swap tok | .zero tok .. | .bias tok .. | .drain tok .. => some tok

/-- Tokens of gang rows that stand in the members of leaders for which `p` holds of their team. -/
def State.rowsOut (s : State) (p : Nat → Bool) : List Nat :=
  (s.planes.flatMap (fun (e : Nat × Plane) => e.2.matq.filterMap (fun op => op.rowTok.bind (fun (t : Token) =>
    if p (t.gk / 32) then some t.tok else none)))).eraseDups

/-- Outstanding matrix instructions of the core (R170): a gang stream until its last row is written in every member. -/
def State.matLoad (s : State) (core : Nat) : Nat :=
  let own := (List.range 3).flatMap (fun k => (s.plane (3 * core + k)).matq.filterMap MatOp.ownTok)
  own.length + ((s.rowsOut (fun t => (s.team? t).any (fun x => decide (x.core = core)))).filter (fun t =>
    own.all (fun o => decide (o.tok ≠ t)))).length

/-- The team owns the bank; without one, the team owns some bank (R169, R185). -/
def Ctx.ownsBank (c : Ctx) (bank : Option (BitVec 2)) : Bool :=
  match bank with
  | none => decide (c.t.qmask ≠ 0)
  | some b => c.t.qmask.getLsbD b.toNat

/-- The checks of R185 and R186 in the order of 01 R24, and the effect for a group some lane of which has guard 1: regions
as (offset, length); `bad` an ILLEGAL of the uniform values. -/
def Ctx.mat (c : Ctx) (us : List RegCode) (bank : Option (BitVec 2)) (bad : Bool) (rs : List (Nat × Nat)) (go : Res) : Res :=
  let part := decide (c.cohort ≠ c.g.live)
  if c.act = 0 then
    (if part then .trap 9 0 else if !c.ownsBank bank then .trap 0x0F 0 else .ok { s := c.s })
  else if us.any (fun u => !c.uniform1 u) then .trap 8 0
  else if bad then .trap 1 0
  else if part then .trap 9 0
  else if !c.ownsBank bank then .trap 0x0F 0
  else match regionsMis rs with
    | some o => .trap 4 (BitVec.ofNat 64 o)
    | none => match regionsOut (c.t.lrec.spad * 1024) rs with
      | some o => .trap 7 (BitVec.ofNat 64 o)
      | none => go

/-- A matrix operation enters the queue of its plane; it waits while 8 are outstanding (R170). -/
def Ctx.pushMat (c : Ctx) (lanes : BitVec 32) (op : Token → MatOp) (wr : List Wr := []) : Res :=
  if 8 ≤ c.s.matLoad c.core then .hold c.s else
  let s := c.s
  let tok : Token := ⟨c.gk, s.nextTok, lanes⟩
  let p := s.plane c.plane
  let s := (s.setPlane c.plane { p with matq := p.matq ++ [op tok] }).newTok
  .ok { s := s, wr := wr, mode := .pend tok.tok false, out := some (tok.tok, lanes) }

/-- MZERO and MBIAS take effect at once where nothing is queued before them on their plane. -/
def Ctx.matNow (c : Ctx) (op : Token → MatOp) (now : Plane → Plane) : Res :=
  if (c.s.plane c.plane).matq = [] ∧ c.s.matLoad c.core < 8 then
    .ok { s := c.s.setPlane c.plane (now (c.s.plane c.plane)) }
  else c.pushMat 1 op

/-- The register of scales, which an instruction names only where its slot has a scale kind (R28, R186, R194). -/
def scaleReg (sl : DWord) (r : RegCode) : List RegCode := if slotSck sl = 0 then [] else [r]

/-- The slot of a load or a stream is one that it refuses (R188, R189). -/
def Ctx.noFmt (c : Ctx) (slot : BitVec 3) : Bool := (matFmt (c.t.lrec.slot slot.toNat)).isNone

def execMlds (h : Hdr) (sp : Bool) (a b cc : RegCode) (slot : BitVec 3) (s : State) : Host.Outcome State Fault Refusal :=
  issueI (.mlds h sp a b cc slot) { ra := .stop, ill := fun c => c.noFmt slot, runs := fun c => some ((scaleReg (c.t.lrec.slot slot.toNat) b).map rd) } (fun _ c =>
    let sl := c.t.lrec.slot slot.toNat
    match matFmt sl with
    | none => .trap 1 0
    | some (e, cls) =>
      let d := clsDepth cls
      let ns := if slotSck sl = 0 then 0 else scaleBlocks sl (logDepth cls sp) * 64 * scaleBytes sl
      let (oa, ob, oc) := ((c.u1 a).toNat, (c.u1 b).toNat, (c.u1 cc).toNat)
      c.mat ((if sp then [a, cc] else [a]) ++ scaleReg sl b) none false [(oa, d * 64 * e.width / 8), (ob, ns), (oc, if sp then d * 16 else 0)]
        (c.pushMat 1 (fun tok => .load tok c.tid cls sp e.isInt sl oa ob oc))) s

def execMswap (h : Hdr) (s : State) : Host.Outcome State Fault Refusal :=
  issueI (.mswap h) stopRa (fun _ c => c.mat [] none false [] (c.pushMat 1 (fun tok => .swap tok))) s

/-! ### Streams and gangs (R181, R191, R192, R195, R196) -/

/-- The team leads a gang, or its gang is formed. -/
def Gang.leads : Gang → Bool | .lead .. => true | .none | .member .. => false
def Gang.formed : Gang → Bool | .lead _ f => f | .none | .member .. => false
def Gang.isMember : Gang → Bool | .member .. => true | .none | .lead .. => false

/-- Members of a formed gang: position, team and bank. -/
def Ctx.members (c : Ctx) : List (Nat × Nat × Nat) :=
  match c.t.gang with
  | .lead ranks _ => ranks.zipIdx.filterMap (fun (r, i) => match r with
      | none => none
      | some r => match c.mate r with
        | none => none
        | some t => match c.s.team? t with
          | some m => (match m.gang with | .member _ b true => some (i + 1, t, b) | .member _ _ false | .none | .lead .. => none)
          | none => none)
  | .none | .member .. => []

def State.planeOf (s : State) (tid : Nat) : Nat := match s.team? tid with | some t => 3 * t.core + t.plane | none => 0

/-- A member has an MSWAP outstanding. -/
def Plane.swapping (p : Plane) : Bool := p.matq.any (fun op => match op with
  | .swap _ => true
  | .load .. | .stream .. | .zero .. | .bias .. | .drain .. => false)

/-- A stream whose slot the plane that it meets, or a member's, refuses (R171, R181). A team without banks has no tile. With guard 0 in
every lane the team's own plane and gang are checked and the members are not (log entry 31). -/
def Ctx.streamIll (c : Ctx) (gang : Bool) (slot : BitVec 3) : Bool :=
  match matFmt (c.t.lrec.slot slot.toNat) with
  | none => true
  | some (e, cls) =>
    let (pc, _, pi) := (c.s.plane c.plane).firstMeets
    let own := decide (c.t.qmask ≠ 0) && (decide (pc ≠ cls) || decide (pi ≠ e.isInt))
    let ms := if gang && c.t.gang.formed && decide (c.act ≠ 0) then c.members.map (fun m => c.s.plane (c.s.planeOf m.2.1)) else []
    own || c.t.gang.isMember || (gang && !c.t.gang.leads) ||
      (ms.all (fun p => !p.swapping) &&
        ms.any (fun p => decide (p.firstMeets.1 ≠ cls) || decide (p.firstMeets.2.2 ≠ e.isInt)))

/-- A stream enters the queue of its plane, with the members of its gang that are to receive each of its rows as the leader's array takes
it (log entry 30). -/
def Ctx.pushStream (c : Ctx) (set gang sp : Bool) (sl : DWord) (src : MatSrc) (oc bank q0 m : Nat) : Res :=
  let ms := if gang then c.members else []
  if gang && (!c.t.gang.formed || ms.any (fun x => (c.s.plane (c.s.planeOf x.2.1)).swapping)) then .hold c.s
  else if m = 0 then .ok { s := c.s }
  else
    c.pushMat (maskOf (0 :: ms.map (·.1))) (fun tok => .stream ⟨tok.gk, tok.tok, 1⟩ bank q0 0 m set sp sl src c.tid oc ms)

/-- The scales of a stream of `m` rows as a region at `oc`. -/
def streamScales (sl : DWord) (ld m oc : Nat) : Nat × Nat :=
  (oc, if slotSck sl = 0 then 0 else m * scaleBlocks sl ld * scaleBytes sl)

def execMstr (h : Hdr) (set gang : Bool) (a b cc : RegCode) (slot : BitVec 3) (bank : BitVec 2) (q0 : BitVec 8) (s : State) :
    Host.Outcome State Fault Refusal :=
  issueI (.mstr h set gang a b cc slot bank q0)
    { ra := .stop, ill := fun c => c.streamIll gang slot, runs := fun c => some ((scaleReg (c.t.lrec.slot slot.toNat) cc).map rd) } (fun _ c =>
    let sl := c.t.lrec.slot slot.toNat
    match matFmt sl with
    | none => .trap 1 0
    | some (e, cls) =>
      let sp := (c.s.plane c.plane).firstMeets.2.1
      let m := min (c.u1 b).toNat (256 - q0.toNat)
      let n := rowBytes e cls sp
      let (oa, oc) := ((c.u1 a).toNat, (c.u1 cc).toNat)
      let ra := (oa, if m = 0 then 0 else (m - 1) * pitch n + n)
      c.mat (a :: b :: scaleReg sl cc) (some bank) false [ra, streamScales sl (logDepth cls sp) m oc]
        (c.pushStream set gang sp sl (.pad c.tid oa) oc bank.toNat q0.toNat m)) s

/-- The registers of a register stream: a run of `n` for a dense tile, of `n` pairs from an even code for a sparse one. -/
def mstrrRuns (regs : Nat) (sp : Bool) (a : RegCode) (n : Nat) : Option (List Opnd) :=
  if sp && decide (a.toNat % 2 = 1) then none else runOf false regs a (if sp then 2 * n else n)

/-- The bytes of one row of a register stream (R192). -/
def Ctx.regRow (c : Ctx) (sp : Bool) (a : RegCode) (m : Nat) : List Byte :=
  (List.range 32).flatMap (fun l =>
    let rd (i : Nat) : List Byte := leBytes (if c.g.live.getLsbD l then (c.last1 l (a + BitVec.ofNat 8 i)).toNat else 0) 4
    if sp then rd (2 * m) ++ rd (2 * m + 1) else rd m)

/-- MSTRR (R192). CHK raises no STALL on its register run, which waits as R154 has a read of other lanes wait: R154 says so of its own
instructions, and that it holds of MSTRR's run too is the model's reading (DEDUCED, log entry 53). -/
def execMstrr (h : Hdr) (set gang : Bool) (a cc : RegCode) (slot : BitVec 3) (rows : Rows) (s : State) :
    Host.Outcome State Fault Refusal :=
  let n := rows.cnt.toNat + 1
  let sparse (c : Ctx) : Bool := (c.s.plane c.plane).firstMeets.2.1
  let run (c : Ctx) : List Opnd := (mstrrRuns c.t.lrec.regs (sparse c) a n).getD []
  issueI (.mstrr h set gang a cc slot rows)
    { ra := .stop, ill := fun c => c.streamIll gang slot || (mstrrRuns c.t.lrec.regs (sparse c) a n).isNone,
      runs := fun c => some ((scaleReg (c.t.lrec.slot slot.toNat) cc).map rd) } (fun _ c =>
    let sl := c.t.lrec.slot slot.toNat
    match matFmt sl with
    | none => .trap 1 0
    | some (_, cls) =>
      let sp := sparse c
      let live := if c.act = 0 then [] else lanesOf c.g.live
      let oc := (c.u1 cc).toNat
      let n := rows.cnt.toNat + 1
      if decide (c.cohort = c.g.live) && decide (run c ≠ []) && c.unlanded live then .hold c.s
      else match c.lastMark live ((run c).flatMap opCodes) with
        | some x => .trap 0x0E x
        | none =>
          c.mat (scaleReg sl cc) (some rows.bank) false [streamScales sl (logDepth cls sp) n oc]
            (c.pushStream set gang sp sl (.regs ((List.range n).map (c.regRow sp a))) oc rows.bank.toNat rows.q0.toNat n)) s

def execMzero (h : Hdr) (rows : Rows) (s : State) : Host.Outcome State Fault Refusal :=
  issueI (.mzero h rows) stopRa (fun _ c =>
    let (b, q0, n) := (rows.bank.toNat, rows.q0.toNat, rows.cnt.toNat + 1)
    c.mat [] (some rows.bank) false [] (c.matNow (fun tok => .zero tok b q0 n) (fun p => p.zeroRows b q0 n))) s

def execMbias (h : Hdr) (int : Bool) (a : RegCode) (rows : Rows) (s : State) : Host.Outcome State Fault Refusal :=
  issueI (.mbias h int a rows) stopRa (fun _ c =>
    let oa := (c.u1 a).toNat
    let (b, q0, n) := (rows.bank.toNat, rows.q0.toNat, rows.cnt.toNat + 1)
    c.mat [a] (some rows.bank) false [(oa, 256)]
      (c.matNow (fun tok => .bias tok c.tid int b q0 n oa) (fun p => c.s.biasRows p c.tid int b q0 n oa))) s

/-- The slot of a drain; RAW uses none, and neither a format nor a scale of it. -/
def Rec.drainSlot (r : Rec) (x : Drain) : DWord :=
  match x with
  | .raw => 0
  | .cvt _ _ slot _ => r.slot slot.toNat
def Ctx.drainSlot (c : Ctx) (x : Drain) : DWord := c.t.lrec.drainSlot x

/-- A drain through a slot that is unbound (R188). -/
def Ctx.drainIll (c : Ctx) (x : Drain) : Bool := decide ((drainFmt x (c.drainSlot x)).width = 0)

def execMdrn (h : Hdr) (x : Drain) (z : Bool) (a b : RegCode) (rows : Rows) (s : State) : Host.Outcome State Fault Refusal :=
  issueI (.mdrn h x z a b rows)
    { ra := .stop, ill := fun c => c.drainIll x, runs := fun c => some ((scaleReg (c.drainSlot x) b).map rd) } (fun _ c =>
    let sl := c.drainSlot x
    let n := rows.cnt.toNat + 1
    let oa := (c.u1 a).toNat
    c.mat (a :: scaleReg sl b) (some rows.bank) false [(oa, n * 64 * (drainFmt x sl).width / 8)]
      (c.pushMat 1 (fun tok => .drain tok c.tid rows.bank.toNat rows.q0.toNat n x z sl (c.u1 b) oa none false))) s

/-- The destination registers of MDRNR and its scale. -/
def mdrnrRuns (r : Rec) (x : Drain) (d b : RegCode) (n : Nat) : Option (List Opnd) :=
  let sl := r.drainSlot x
  (runOf true r.regs d (n * drainWidth x sl)).map (· ++ (scaleReg sl b).map rd)

def execMdrnr (h : Hdr) (x : Drain) (z : Bool) (d b : RegCode) (rows : Rows) (s : State) : Host.Outcome State Fault Refusal :=
  let n := rows.cnt.toNat + 1
  issueI (.mdrnr h x z d b rows)
    { ra := .stop, ill := fun c => c.drainIll x, runs := fun c => mdrnrRuns c.t.lrec x d b n } (fun _ c =>
    let sl := c.drainSlot x
    let k := n * drainWidth x sl
    c.mat (scaleReg sl b) (some rows.bank) false []
      (c.pushMat c.act (fun tok => .drain tok c.tid rows.bank.toNat rows.q0.toNat n x z sl (c.u1 b) 0 (some d.toNat) false)
        (c.lanes.flatMap (fun l => (List.range k).flatMap (fun i => wr1 l (d + BitVec.ofNat 8 i) 0))))) s

/-- Ranks that a leader has listed and that have joined it meet; the gang is formed once every listed one has (R195). -/
def State.gangMeet (s : State) (lead : Nat) : State :=
  match s.team? lead with
  | none => s
  | some t =>
    match t.gang with
    | .none | .member .. => s
    | .lead ranks formed =>
      let base := t.idx - t.rank
      let listed := ranks.filterMap id
      let mate (r : Nat) : Option (Nat × Team) :=
        s.teams.find? (fun (e : Nat × Team) => decide (e.2.grid = t.grid) && decide (e.2.idx = base + r))
      let joined (r : Nat) : Bool := match mate r with
        | some (_, m) => (match m.gang with | .member l _ _ => decide (l = t.rank) | .none | .lead .. => false)
        | none => false
      let s := listed.foldl (fun s r => match mate r with
        | some (i, m) => (match m.gang with
          | .member l b _ => if l = t.rank then s.setTeam i { m with gang := .member l b true } else s
          | .none | .lead .. => s)
        | none => s) s
      s.setTeam lead { t with gang := .lead ranks (formed || listed.all joined) }

/-- The ranks of positions 1 to 3. -/
def gangRanks (a : Word) : List (Option Nat) :=
  [1, 2, 3].map (fun p => if bits a.toNat (8 * p + 7) (8 * p) = 0xFF then none else some (bits a.toNat (8 * p + 7) (8 * p)))

/-- A member list that R195 refuses. -/
def gangBad (a : Word) (rank size : Nat) : Bool :=
  let l := (gangRanks a).filterMap id
  decide (a.toNat % 256 ≠ 0xFF) || l.any (fun r => decide (r = rank) || decide (size ≤ r)) || decide (l.eraseDups.length ≠ l.length)

def execMgangLead (h : Hdr) (a : RegCode) (s : State) : Host.Outcome State Fault Refusal :=
  issueI (.mgangLead h a) { ra := .stop, ill := fun c => decide (c.t.gang ≠ .none) } (fun _ c =>
    c.mat [a] none (gangBad (c.u1 a) c.t.rank (c.t.lrec.w * c.t.lrec.h)) []
      (.ok { s := (c.s.setTeam c.tid { c.t with gang := .lead (gangRanks (c.u1 a)) false }).gangMeet c.tid })) s

def execMgangJoin (h : Hdr) (a : RegCode) (bank : BitVec 2) (s : State) : Host.Outcome State Fault Refusal :=
  issueI (.mgangJoin h a bank) { ra := .stop, ill := fun c => decide (c.t.gang ≠ .none) } (fun _ c =>
    let r := (c.u1 a).toNat % 256
    c.mat [a] (some bank) false []
      (let s := c.s.setTeam c.tid { c.t with gang := .member r bank.toNat false }
       .ok { s := match c.mate r with | some l => s.gangMeet l | none => s })) s

/-- The plane holds rows from a gang's leader. -/
def Plane.gangRows (p : Plane) : Bool := p.matq.any (fun op => op.rowTok.isSome)

/-- A stream of the plane still sends rows to a team for which `p` holds. -/
def Plane.sends (x : Plane) (p : Nat → Bool) : Bool := x.matq.any (fun op => match op with
  | .stream _ _ _ _ _ _ _ _ _ _ _ ms => ms.any (fun m => p m.2.1)
  | .load .. | .swap .. | .zero .. | .bias .. | .drain .. => false)

/-- The team may leave its gang: its gang streams are complete in every member for a leader, those that it receives for a member
(R196). -/
def State.gangIdle (s : State) (tid : Nat) : Bool :=
  match s.team? tid with
  | none => true
  | some t =>
    match t.gang with
    | .none => true
    | .member .. => !(s.plane (s.planeOf tid)).gangRows && s.planes.all (fun (e : Nat × Plane) => !e.2.sends (fun x => decide (x = tid)))
    | .lead .. => !(s.plane (s.planeOf tid)).sends (fun _ => true) && decide (s.rowsOut (fun x => decide (x = tid)) = [])

/-- A team leaves its gang; a leader dissolves it (R196). DESIGN CHOICE: a joined member that leaves before its gang is formed stays listed at the
leader, which waits until it joins again; R196 does not say whether the entry goes (log entry 59). -/
def State.gangLeave (s : State) (tid : Nat) : State :=
  match s.team? tid with
  | none => s
  | some t =>
    let base := t.idx - t.rank
    let s := s.setTeam tid { t with gang := .none }
    match t.gang with
    | .none => s
    | .lead .. => { s with teams := s.teams.map (fun (e : Nat × Team) => (e.1, match e.2.gang with
                           | .member l _ true => if e.2.grid = t.grid ∧ e.2.idx - e.2.rank = base ∧ l = t.rank then { e.2 with gang := .none } else e.2
                           | .member _ _ false | .none | .lead .. => e.2)) }
    | .member l _ _ => { s with teams := s.teams.map (fun (e : Nat × Team) => (e.1, match e.2.gang with
                                | .lead ranks f => if e.2.grid = t.grid ∧ e.2.idx - e.2.rank = base ∧ e.2.rank = l ∧ f then
                                { e.2 with gang := .lead (ranks.map (fun r => if r = some t.rank then none else r)) f } else e.2
                                | .none | .member .. => e.2)) }

def execMgangLeave (h : Hdr) (s : State) : Host.Outcome State Fault Refusal :=
  issueI (.mgangLeave h) stopRa (fun _ c =>
    c.mat [] none false [] (if c.s.gangIdle c.tid then .ok { s := c.s.gangLeave c.tid } else .hold c.s)) s

end Sys2Proof.Machine
end

