-- ==== Sys2Proof/Machine/CardEvents.lean ====
section
/-!
DEFINITION. The life of a card after it is formed (17 R296 to R303, 14 R261, R262, 21 R365): acceptance with its edges, the
start on an engine, its segments, its completion.
-/
namespace Sys2Proof.Machine

/-! ### Acceptance and start (R296 to R300) -/

/-- Whether N needs an edge to the earlier card E (R297). -/
def State.needsEdge (s : State) (n e : Card) : Bool :=
  let (nr, nw) := s.feet n
  let (er, ew) := s.feet e
  nr.any (fun a => ew.any a.overlaps) || nw.any (fun a => er.any a.overlaps) || nw.any (fun a => ew.any a.overlaps)

def execCardAccept (die : Nat) (s : State) : Host.Outcome State Fault Refusal :=
  let d := s.die die
  .next (match d.cardQ with
    | [] => s
    | c :: r =>
      let edges := (d.cards.filter (fun e => decide (e.func = c.func) && !e.out && s.needsEdge c e)).map (fun e => e.id)
      match c.st with
      | .finished _ => s.setDie die { d with cardQ := r, cards := d.cards ++ [c] }
      | .formed | .waiting | .ready _ | .running _ | .paused .. =>
        if edges = [] then
          s.setDie die { d with cardQ := r, cards := d.cards ++ [{ c with st := .ready d.place }], place := d.place + 1 }
        else s.setDie die { d with cardQ := r, cards := d.cards ++ [{ c with st := .waiting, edges := edges }] })

/-- Engine classes: 0 copy, 1 compression, 2 collective. -/
def Card.cls (c : Card) : Nat :=
  if 0xE0 ≤ c.maj then 2 else if c.maj = 0xC3 ∨ c.maj = 0xC4 then 1 else 0

/-- Engines of a class on a die. -/
def engines (cls : Nat) : Nat := match cls with | 0 => 16 | 1 => 4 | _ => 8

/-- The lowest free engine of a class, numbered 64 × class + i. -/
def Die.freeEngine (d : Die) (cls : Nat) : Option Nat :=
  ((List.range (engines cls)).map (· + 64 * cls)).find? (fun e => !d.cards.any (fun c => !c.out && decide (c.st.engine = some e)))

/-- The ready cards of a class in a function's virtual queue, in order of joining; those of a plane whose cards are being checkpointed start
no more (21 R365). -/
def State.readyCards (s : State) (die cls func : Nat) : List Card :=
  let at' (c : Card) : Nat := match c.st with
    | .ready p => p
    | .formed | .waiting | .running _ | .paused .. | .finished _ => 0
  sortBy at' ((s.die die).cards.filter (fun c => decide (c.func = func) && decide (c.cls = cls) &&
    !(s.team? c.team).any s.checkpointing && (match c.st with
    | .ready _ => true
    | .formed | .waiting | .running _ | .paused .. | .finished _ => false)))

/-- A free engine of a class takes the head card of the function that SmoothPick chooses (R300). -/
def execCardStart (die cls : Nat) (s : State) : Host.Outcome State Fault Refusal :=
  let d := s.die die
  let funcs := (List.range 128).filter (fun f => !(s.func f).frozen && decide (s.readyCards die cls f ≠ []))
  .next (match d.freeEngine cls with
    | none => s
    | some e =>
      match smoothPick d.arb (fun f => 128 * cls + f) (funcs.map (fun f => (f, max 1 (s.weight f)))) with
      | none => s
      | some (f, arb) =>
        match (s.readyCards die cls f).head? with
        | none => s
        | some c => (s.setDie die { d with arb := arb }).setCard { c with st := .running e })

/-! ### Segments (21 R365) -/

/-- The stores of a card to peers are on their way. -/
def State.tokBusy (s : State) (c : Card) : Bool :=
  match c.tok with
  | none => false
  | some t => (s.core c.core).peers.any (fun (e : Nat × Peer) =>
      e.2.stores.any (fun r => decide (r.what.gk = 2 ^ 40) && decide (r.what.tok = t)))

/-- A card's stores to peers leave in order, as far as there is room for them (25 R424): the state, and those that are left. -/
def State.postStores (s : State) (c : Card) (tok : Nat) : List (Nat × Nat × List Piece) →
    State × List (Nat × Nat × List Piece)
  | [] => (s, [])
  | e :: r =>
    match s.remoteStore c.core c.func e.1 e.2.1 (storeMarked e.2.2) ⟨2 ^ 40, tok, 0⟩ with
    | some s => s.postStores c tok r
    | none => (s, e :: r)

/-- The stores of a card to peers go on; `none` once all have left and are acknowledged. -/
def State.cardSends (s : State) (c : Card) : Option State :=
  if c.outq = [] then (if s.tokBusy c then some s else none)
  else
    let tok := c.tok.getD s.nextTok
    let (s, left) := (if c.tok.isNone then s.newTok else s).postStores c tok c.outq
    some (s.setCard { c with outq := left, tok := some tok })

/-- What a card's own update at a home came to; `v` is the old value of its first operation. -/
inductive CHome where
  | done (s : State) (v : Nat)
  | stop (e : CStop)

/-- Operations of a card at the home of `va`, each at its offset, as one step: a local or host home performs them at once, a peer by one
request, whose answer is waited for. -/
def State.cardUpdate (s : State) (c : Card) (va : Nat) (ops : List (Nat × HomeOp)) : CHome :=
  match s.cardXl c .write va with
  | .error e => .stop e
  | .ok t =>
    match t.tgt with
    | .fab v ma =>
      match c.ctrDone with
      | some x => .done (s.setCard { c with ctrDone := none }) x
      | none =>
        let asked := (s.core c.core).peers.any (fun (e : Nat × Peer) => e.2.slots.any (fun (q : Nat × RReq) =>
          decide (q.2.what = .cardCtr c.die c.id)))
        if asked then .stop (.retry s)
        else .stop (.retry ((s.requestAll c.core c.func v 3 (ma / 128 * 128)
          (opPayloads 2 c.scope.code.toNat (ops.map (fun o => (ma % 128 + o.1, o.2)))) (.cardCtr c.die c.id)).getD s))
    | .loc _ | .host _ | .notify .. =>
      if s.snooped t.tgt then .stop (.retry (s.biSend t.tgt)) else
      let (s, vs) := ops.foldl (fun (r : State × List Nat) o =>
        let cell := isCellAddr (va + o.1) && decide (3 ≤ c.scope.code.toNat)
        let (s, v, _) := r.1.homeOp (t.tgt.add o.1) o.2 (if cell then some (c.scope, c.sig) else none)
        (s, r.2 ++ [v])) (s.touchHost c.func t.tgt, [])
      .done s.wakeMem (vs.headD 0)

/-- A segment, or the end of a card's elements, reported to its barrier: PENDING falls, the signature is published and the
completion test made (14 R256). -/
def State.reportBar (s : State) (c : Card) (bytes : Nat) : CHome :=
  if !c.bar || decide (c.counter = 0) then .done s 0 else
  match s.cardXl c .write c.counter with
  | .error e => .stop e
  | .ok t =>
    match t.tgt with
    | .fab .. => s.cardUpdate c c.counter [(0, .barExpect ((2 ^ 64 - bytes % 2 ^ 64) % 2 ^ 64))]
    | .loc _ | .host _ | .notify .. =>
      if s.snooped t.tgt then .stop (.retry (s.biSend t.tgt)) else
      let b := t.tgt.block
      let s := (s.touchHost c.func t.tgt).publish b false c.scope c.sig
      let (s, _, _) := s.homeOp b (.barExpect ((2 ^ 64 - bytes % 2 ^ 64) % 2 ^ 64)) none
      .done s.wakeMem 0

/-- A card whose access stops: a retry, a pause, an end with ACCESS, a violation (R301). -/
def State.cardStop (s : State) (c : Card) (e : CStop) : Host.Outcome State Fault Refusal :=
  let eng := c.st.engine.getD 255
  let drop (va : Nat) (s : State) : State :=
    let d := s.die c.die
    s.setDie c.die { d with wfail := d.wfail.filter (fun w => !(decide (w.func = c.func) && decide (w.page = bits va 54 16) &&
                            (match w.why with
                            | .moving _ => false
                            | .page1 | .page2 _ | .access2 => true))) }
  match e with
  | .retry s => .next s
  | .stage1 va => .next (if c.ending then (drop va s).endCard c 2 false else (drop va s).pauseCard c eng va)
  | .refused va => .next (s.endCard { c with fva := va } 2 false)
  | .viol code va => .next ((drop va s).freeze c.func code va 0 (whereOf c.core 0))
  | .unbacked ma => .fault (.unbacked ma)

/-- The written segment in hand is reported and counted; the last one finishes the card, and so does the one with which a cancelled card
ends. -/
def State.segmentDone (s : State) (c : Card) : Host.Outcome State Fault Refusal :=
  match s.reportBar c (c.segBytes c.done) with
  | .stop e => s.cardStop c e
  | .done s _ =>
    let c := { c with done := c.done + 1, buf := [], tok := none, ctrDone := none, inseg := false, scales := [], wrote := [] }
    .next (if c.ending then s.endCard { c with ending := false } 2 false
      else s.setCard (if c.segs ≤ c.done then { c with st := .finished (c.st.engine.getD 255) } else c))

/-- Work of a card is in hand: a segment, or stores to peers. -/
def Card.busy (c : Card) : Bool := c.inseg || decide (c.outq ≠ []) || c.tok.isSome

/-- The elements in hand of an engine card are carried, as far as they can be: the state, and why they stop. -/
def State.carrySeg (s : State) (c : Card) : State × Card × Option CStop :=
  match CW.carryAll c.todo ⟨s, c⟩ with
  | (w, left, e) =>
    let c := { w.c with todo := left }
    ((w.s.setCard c).wakeMem, c, e)

/-- The next segment of an engine card, or the rest of the one in hand. -/
def State.engineStep (s : State) (c : Card) : Host.Outcome State Fault Refusal :=
  match s.cardSends c with
  | some s => .next s
  | none =>
    if c.inseg && decide (c.todo = []) then s.segmentDone c
    else if !c.inseg && decide (c.segs ≤ c.done) then .next (s.setCard { c with st := .finished (c.st.engine.getD 255), tok := none })
    else if !c.inseg && (s.team? c.team).any s.checkpointing then .next s
    else
      let (c, s) := if c.inseg then (c, s) else (c.begin s, s.useFree)
      match s.carrySeg c with
      | (s, c, none) => if c.outq = [] then s.segmentDone c else .next s
      | (_, c, some (.retry s)) => .next ((s.setCard c).wakeMem)
      | (s, c, some e) => s.cardStop c e

/-- A frozen function's card goes on to its 4 KiB boundary and stays there: it reports nothing (19 R353). -/
def State.frozenStep (s : State) (c : Card) : State :=
  match s.cardSends c with
  | some s => s
  | none =>
    if c.inseg && decide (c.todo ≠ []) then
      match s.carrySeg c with
      | (_, c, some (.retry s)) => (s.setCard c).wakeMem
      | (s, _, _) => s
    else s

/-- A frozen function's running card is short of its boundary. -/
def Card.short (c : Card) : Bool :=
  (match c.st with
   | .running _ => decide (c.maj < 0xE0) && c.inseg && decide (c.todo ≠ [])
   | .formed | .waiting | .ready _ | .paused .. | .finished _ => false) || decide (c.outq ≠ [])

/-! ### Completion (R302, R303, 14 R262) -/

/-- The signature absorbed by the issuing plane on the issuing core, before the tag is set. -/
def State.cardAbsorb (s : State) (c : Card) : State :=
  if c.scope.code.toNat ≤ 6 then s.absorbWalk c.core c.func c.plane c.sig else s.fullInval c.core c.func c.plane

/-- Lanes of a plane parked on tags look again (18 R324). -/
def State.wakeTags (s : State) (plane : Nat) : State :=
  s.groups.foldl (fun s (e : Nat × Group) =>
    if s.planeOf (e.1 / 32) ≠ plane then s else
    (List.range e.2.lanes.length).foldl (fun s l => match ((s.group e.1).lane l).wait with
      | .tags all m d =>
        let p := s.plane plane
        let ts := (List.range 64).filter (fun t => m.getLsbD t)
        let w : Option Word :=
          if all then
            if m &&& ~~~p.tagReady = 0 then some (BitVec.ofNat 32 (ts.foldl (fun x t => max x (tget 0 p.tagStatus t)) 0)) else none
          else (ts.find? (fun t => p.tagReady.getLsbD t)).map (fun t => BitVec.ofNat 32 (t + 256 * tget 0 p.tagStatus t))
        (match w with
         | some w => s.wakeLane e.1 l (wr1 l d w)
         | none => s)
      | .acq .. | .bar .. | .chan .. | .none | .k _ | .launch .. | .cjoin | .sleep _ | .fetch _ | .pri _ | .moving _ 
      | .walk _ | .woken | .satisfied .. => s) s) s

/-- The tag of a completing card (R302, R323). -/
def State.setTag (s : State) (c : Card) : State :=
  match c.tag with
  | none => s
  | some t =>
    let s := s.cardAbsorb c
    let p := s.plane c.plane
    let n := tget 0 p.tagCount t - 1
    (s.setPlane c.plane { p with
      tagCount := tput 0 p.tagCount t n, tagStatus := tput 0 p.tagStatus t (max (tget 0 p.tagStatus t) c.status),
      tagReady := if n = 0 then p.tagReady ||| (1#64 <<< t) else p.tagReady }).wakeTags c.plane

/-- Edges to a card go, and cards that have none left become ready in acceptance order. -/
def State.freeEdges (s : State) (c : Card) : State :=
  let d := s.die c.die
  let step (a : List Card × Nat) (x : Card) : List Card × Nat :=
    let x := { x with edges := x.edges.filter (fun i => i ≠ c.id) }
    if x.st = .waiting ∧ x.edges = [] then (a.1 ++ [{ x with st := .ready a.2 }], a.2 + 1) else (a.1 ++ [x], a.2)
  let (cards, place) := d.cards.foldl step ([], d.place)
  s.setDie c.die { d with cards := cards, place := place }

/-- A card leaves its die, and its edges are satisfied. -/
def State.removeCard (s : State) (c : Card) : State :=
  let d := s.die c.die
  (s.setDie c.die { d with cards := d.cards.filter (fun x => x.id ≠ c.id), cardQ := d.cardQ.filter (fun x => x.id ≠ c.id) }).freeEdges c

/-- The end of a card whose counter has been served; a KIND 3 record that has to wait holds it (R337, R338). -/
def State.retireCard (s : State) (c : Card) : State :=
  let gone (s : State) : State := (s.removeCard c).wakeDrains c.team
  if c.status = 2 ∧ c.tag.isNone then
    match s.cardRecord c 3 c.fva with
    | .written s => gone s
    | .violation s => s.setCard c
    | .full => gone (s.fqDrop c.func)
    | .wait s => s.setCard c
  else gone (s.setTag c)

/-- The counter of a card, or nothing. The channel block of a persistent XRESH takes LSTAT, and DONE with the publication of a release (26
R442). -/
def State.serveCounter (s : State) (c : Card) : CHome :=
  if c.counter = 0 ∨ c.bar = true then .done s 0
  else if c.maj = 0xE0 ∧ c.fn = 1 then s.cardUpdate c c.counter [(8, .atom 8 4 c.status 0 false), (4, .atom 0 4 1 0 false)]
  else s.cardUpdate c c.counter [(0, .atom 0 8 1 0 false)]

def execCardComplete (die card : Nat) (s : State) : Host.Outcome State Fault Refusal :=
  match (s.die die).cards.find? (fun c => decide (c.id = card)) with
  | none => .next s
  | some c =>
    match c.st with
    | .finished _ =>
      if c.out then .next s
      else if (s.func c.func).frozen then .next ((s.cardSends c).getD s) else
      (match s.cardSends c with
       | some s => .next s
       | none =>
         match s.serveCounter c with
         | .done s _ => .next (s.retireCard { c with counter := 0, tok := none })
         | .stop (.retry s) => .next s
         | .stop (.refused va) => .next (s.setCard { c with counter := 0, status := max c.status 2, fva := va })
         | .stop e => s.cardStop c e)
    | .formed | .waiting | .ready _ | .running _ | .paused .. => .next s

end Sys2Proof.Machine
end

