-- ==== Sys2Proof/Machine/Special.lean ====
section
/-!
DEFINITION. The special registers that MOVS and MOVSW read (08 Table 8-3) and %sigstat (14 Table 14-4).
-/
namespace Sys2Proof.Machine

/-- Team indices x, y, z of linear index t (08 R141). -/
def Team.ix (t : Team) : Nat := t.idx % t.lrec.ntx
def Team.iy (t : Team) : Nat := t.idx / t.lrec.ntx % t.lrec.nty
def Team.iz (t : Team) : Nat := t.idx / (t.lrec.ntx * t.lrec.nty)

/-- The codes that Table 8-3 assigns. -/
def specialAssigned (code : Nat) : Bool :=
  [0x000, 0x001, 0x002, 0x003, 0x004, 0x005, 0x010, 0x011, 0x012, 0x014, 0x015, 0x016, 0x018, 0x019, 0x020, 0x021, 0x022,
   0x023, 0x024, 0x030, 0x031, 0x040, 0x041].contains code

/-- The bits of a team's tag range. -/
def Team.tagMask (t : Team) : DWord := BitVec.ofNat 64 ((2 ^ t.lrec.tags - 1) * 2 ^ t.tagBase)

/-- %clock as the function's lanes read it: the device's clock with the offset that a migration carries (23 R403). -/
def State.funcClock (s : State) (f : Nat) : DWord := BitVec.ofInt 64 ((s.clock : Int) + (s.func f).clockOff)

/-- %sigstat of a plane (Table 14-4). -/
def sigstat (p : Plane) (epoch : Nat) : Nat :=
  popcount1024 (ringSlot p.ring (slotOf epoch)).bits * 256 + slotOf epoch * 8 +
    (List.range 3).foldl (fun x k => x + (if (ringSlot p.ring k).saturated then 2 ^ k else 0)) 0

/-- The value of a special register in lane `l`, zero-extended to 64 bits. -/
def Ctx.special (c : Ctx) (code l : Nat) : DWord :=
  let t := c.t
  let p := c.s.plane c.plane
  match code with
  | 0x000 => BitVec.ofNat 64 l
  | 0x001 => BitVec.ofNat 64 c.gid
  | 0x002 => BitVec.ofNat 64 (32 * c.gid + l)
  | 0x003 => BitVec.ofNat 64 t.lrec.gpt
  | 0x004 => c.g.live.setWidth 64
  | 0x005 => c.cohort.setWidth 64
  | 0x010 => BitVec.ofNat 64 t.ix
  | 0x011 => BitVec.ofNat 64 t.iy
  | 0x012 => BitVec.ofNat 64 t.iz
  | 0x014 => BitVec.ofNat 64 t.lrec.ntx
  | 0x015 => BitVec.ofNat 64 t.lrec.nty
  | 0x016 => BitVec.ofNat 64 t.lrec.ntz
  | 0x018 => BitVec.ofNat 64 t.rank
  | 0x019 => BitVec.ofNat 64 (t.lrec.w * t.lrec.h)
  | 0x020 => BitVec.ofNat 64 (t.core % 160)
  | 0x021 => BitVec.ofNat 64 (t.core / 160)
  | 0x022 => BitVec.ofNat 64 ((c.fn.vdn.getD 0) % 4096)
  | 0x023 => t.qmask.setWidth 64
  | 0x024 => BitVec.ofNat 64 (t.tagBase + 256 * t.lrec.tags)
  | 0x030 => c.s.funcClock t.func
  | 0x031 => BitVec.ofNat 64 (c.s.epoch % 2 ^ 32)
  | 0x040 => p.tagReady &&& t.tagMask
  | 0x041 => BitVec.ofNat 64 (sigstat p c.s.epoch)
  | _ => 0

end Sys2Proof.Machine
end

