-- ==== Sys2Proof/Machine/Eng.lean ====
section
/-!
DEFINITION. Engine, completion and launch instructions (18, MAJ 0xC0 to 0xCE).
-/
namespace Sys2Proof.Machine

/-! ### Forming a card (R314 to R317) -/

/-- The tag that a command's IMM names (Table 18-2). -/
def immTag (imm : Nat) : Option Nat := if bitOf imm 6 then some (imm % 64) else none

/-- IMM of a command. -/
def cmdImm (scope : Scope) (bar : Bool) (tag : Option (BitVec 6)) (slot : Nat) : Nat :=
  slot * 4096 + scope.code.toNat * 256 + (if bar then 128 else 0) + (match tag with | some t => 64 + t.toNat | none => 0)

/-- A tag outside the team's range (R313). -/
def Ctx.tagBad (c : Ctx) (tag : Option (BitVec 6)) : Bool :=
  match tag with
  | none => false
  | some t => decide (t.toNat < c.t.tagBase) || decide (c.t.tagBase + c.t.lrec.tags ≤ t.toNat)

/-- The slots of a new card's signature: those of the ring, empty. -/
def emptySig (ring : List RSlot) : List RSlot := ring.map (fun r => { epoch := r.epoch })

/-- Cards in flight on a die, and those of a function (R299). -/
def Die.inFlight (d : Die) (func : Option Nat) : Nat :=
  ((d.cardQ ++ d.cards).filter (fun c => match func with | some f => decide (c.func = f) | none => true)).length

/-- A tag of a plane takes a new card (R302, R323). -/
def Plane.takeTag (p : Plane) (t : Nat) : Plane :=
  let n := tget 0 p.tagCount t
  { p with tagReady := p.tagReady &&& ~~~(1#64 <<< t), tagCount := tput 0 p.tagCount t (n + 1),
           tagStatus := if n = 0 then tput 0 p.tagStatus t 0 else p.tagStatus }

/-- The card leaves for the Plumb scheduler, or the command waits (R317): for room, and as a release for the earlier loads of its lanes (14
R242). -/
def Ctx.formCard (c : Ctx) (card : Card) : Res :=
  let d := c.s.die (c.core / 160)
  let p := c.s.plane c.plane
  let full := match immTag card.imm with | some t => decide (255 ≤ tget 0 p.tagCount t) | none => false
  if 1024 ≤ d.inFlight none ∨ 256 ≤ d.inFlight (some c.t.func) ∨ full = true ∨ c.loadsOut = true then .hold c.s else
  let card := { card with sig := emptySig p.ring }
  let s := c.s.setDie (c.core / 160) { d with cardQ := d.cardQ ++ [card] }
  let s := match immTag card.imm with | some t => s.setPlane c.plane (p.takeTag t) | none => s
  .ok { s := c.dropRbuf { s with nextCard := s.nextCard + 1 } }

/-- The card of a command of this cohort, without its own parts. -/
def Ctx.newCard (c : Ctx) (maj fn imm : Nat) : Card :=
  { id := c.s.nextCard, func := c.t.func, team := c.tid, tidx := c.t.idx, plane := c.plane, core := c.core, maj := maj,
    fn := fn, imm := imm, sup := c.sup }

/-- The records at a list of addresses, in order (R316 step 2), then `k`. -/
def Ctx.records (c : Ctx) : List Nat → (List (List Byte) → Res) → Res
  | [], k => k []
  | a :: r, k =>
    if a % 64 ≠ 0 then .trap 4 (BitVec.ofNat 64 a) else
    match c.recRead a 64 with
    | .hold s => .hold s
    | .xl x => .xl .read [(c.lanes.headD 0, a, x)] { s := c.s }
    | .ok bs => c.records r (fun l => k (bs :: l))

/-- Stage 1 of the address in D with write permission (R316 step 3): a failure of stage 2 shows at completion. -/
def Ctx.counterXl (c : Ctx) (a : Nat) (k : Res) : Res :=
  if a = 0 then k else
  match c.xl .write a with
  | .miss => .xl .write [(c.lanes.headD 0, a, .miss)] { s := c.s }
  | .page1 => .xl .write [(c.lanes.headD 0, a, .page1)] { s := c.s }
  | .access1 => .xl .write [(c.lanes.headD 0, a, .access1)] { s := c.s }
  | .unbacked m => .xl .write [(c.lanes.headD 0, a, .unbacked m)] { s := c.s }
  | .ok _ | .page2 _ | .access2 | .moving _ => k

/-- The coordinate run from a code (R315): its registers, or `none` where it lies in neither file. -/
def coordRun (regs : Nat) (cc : RegCode) (k : Nat) : Option (List RegCode) :=
  if cc = 255 then some []
  else if cc.toNat + k ≤ (if cc.toNat < 224 then regs else 255) then some ((List.range k).map (fun i => cc + BitVec.ofNat 8 i))
  else none

/-- The checks on the coordinate run (R316 step 5): STALL, ECC and NONUNIF. DESIGN CHOICE: STALL and ECC of the run are tested here, beside its
NONUNIF, after the records; R316 names A, B and D alone in step 1 and places STALL and ECC of the run nowhere (log entry 57). -/
def Ctx.coordTrap (c : Ctx) (h : Hdr) (rs : List RegCode) : Option (Nat × DWord) :=
  if (lanesOf c.cohort).any (fun l => (c.g.lane l).chk && rs.any (fun r => c.g.stale h l r.toNat)) then some (3, 0)
  else match c.lanes.findSome? (fun l => rs.findSome? (fun r => c.g.markOf (c.s.cycle c.core) l r.toNat)) with
    | some x => some (0x0E, x)
    | none => if rs.any (fun r => !c.uniform1 r) then some (8, 0) else none

/-- A command (R316): `secA` and `secB` say whether the A side and the B side carry a second record. -/
def Ctx.command (c : Ctx) (h : Hdr) (maj fn imm : Nat) (slot : DWord) (secA secB : Bool) (d a b cc : RegCode) : Res :=
  if c.act = 0 then .ok { s := c.s } else
  if !c.uniform2 a || !c.uniform2 b || !c.uniform2 d then .trap 8 0 else
  let bar := bitOf imm 7
  let (va, vb, vd) := ((c.u2 a).toNat, (c.u2 b).toNat, if d = 255 then 0 else (c.u2 d).toNat)
  if vd % (if bar then 512 else 8) ≠ 0 then .trap 4 (BitVec.ofNat 64 vd) else
  let fill := decide (maj = 0xC5)
  let second (x : Nat) (q : Bool) : List Nat := if q then [(x + 64) % 2 ^ 64] else []
  let addrs := (if fill then [] else va :: second va secA) ++ (vb :: second vb secB)
  c.records addrs (fun rs =>
    c.counterXl vd (
      let get (i : Nat) : List Byte := (rs[i]?).getD []
      let srec := if fill then [] else get 0
      let xrec := if secA then get 1 else if secB then get 2 else []
      let drec := if fill then get 0 else if secA then get 2 else get 1
      if rs.any (fun r => (viewOf r []).isNone) then .trap 1 0 else
      match coordRun c.t.lrec.regs cc ((if fill then 0 else recRank srec) + recRank drec) with
      | none => .trap 1 0
      | some regs =>
        let card := { c.newCard maj fn imm with
          pattern := if fill then c.u2 a else 0, slot := slot, counter := vd, orig := regs.map (fun r => (c.u1 r).toInt),
          srec := srec, drec := drec, xrec := xrec }
        if !card.recordsOk then .trap 1 0 else
        match c.coordTrap h regs with
        | some (k, x) => .trap k x
        | none => c.formCard card))

def cmdOpts (tag : Option (BitVec 6)) (bad : Ctx → Bool) : Opts := { ra := .suppress, ill := fun c => c.tagBad tag || bad c }

/-- The options of an engine command whose coordinate run starts at `cc`: a first register at or above the count is ILLEGAL (01 R10,
R316 step 1). -/
def runOpts (tag : Option (BitVec 6)) (cc : RegCode) (bad : Ctx → Bool) : Opts :=
  cmdOpts tag (fun c => (decide (cc.toNat < 224) && decide (c.t.lrec.regs ≤ cc.toNat)) || bad c)

def execXcopy (h : Hdr) (cmd : Cmd) (d a b cc : RegCode) (s : State) : Host.Outcome State Fault Refusal :=
  issueI (.xcopy h cmd d a b cc) (runOpts cmd.tag cc (fun _ => false)) (fun _ c =>
    c.command h 0xC0 0 (cmdImm cmd.scope cmd.bar cmd.tag 0) 0 false false d a b cc) s

def execXgath (h : Hdr) (cmd : Cmd) (d a b cc : RegCode) (s : State) : Host.Outcome State Fault Refusal :=
  issueI (.xgath h cmd d a b cc) (runOpts cmd.tag cc (fun _ => false)) (fun _ c =>
    c.command h 0xC1 0 (cmdImm cmd.scope cmd.bar cmd.tag 0) 0 true false d a b cc) s

def execXscat (h : Hdr) (cmd : Cmd) (d a b cc : RegCode) (s : State) : Host.Outcome State Fault Refusal :=
  issueI (.xscat h cmd d a b cc) (runOpts cmd.tag cc (fun _ => false)) (fun _ c =>
    c.command h 0xC2 0 (cmdImm cmd.scope cmd.bar cmd.tag 0) 0 false true d a b cc) s

/-- The slot of XPACK and XUNPK is bound and not FP32 (R321). -/
def Ctx.packIll (c : Ctx) (slot : BitVec 3) : Bool :=
  let sl := c.t.lrec.slot slot.toNat
  decide (slotFmtCode sl = 0) || decide (slotFmtCode sl = 1) || (slotFmt sl).isNone

def execXpack (h : Hdr) (cv : CvD) (sat auto : Bool) (cmd : Cmd) (slot : BitVec 3) (d a b cc : RegCode) (s : State) :
    Host.Outcome State Fault Refusal :=
  let fn := (match cv with | .rn => 0 | .rz => 1 | .ro => 2 | .slot => 3) + (if sat then 4 else 0) + (if auto then 8 else 0)
  issueI (.xpack h cv sat auto cmd slot d a b cc) (runOpts cmd.tag cc (fun c =>
    c.packIll slot || (auto && decide (slotSck (c.t.lrec.slot slot.toNat) ≠ 1)))) (fun _ c =>
    let sl := c.t.lrec.slot slot.toNat
    c.command h 0xC3 fn (cmdImm cmd.scope cmd.bar cmd.tag slot.toNat) sl false (decide (slotSck sl ≠ 0)) d a b cc) s

def execXunpk (h : Hdr) (cv : Cv) (sat : Bool) (cmd : Cmd) (slot : BitVec 3) (d a b cc : RegCode) (s : State) :
    Host.Outcome State Fault Refusal :=
  let fn := (match cv with | .rn => 0 | .rz => 1 | .ro => 2) + (if sat then 4 else 0)
  issueI (.xunpk h cv sat cmd slot d a b cc) (runOpts cmd.tag cc (fun c => c.packIll slot)) (fun _ c =>
    let sl := c.t.lrec.slot slot.toNat
    c.command h 0xC4 fn (cmdImm cmd.scope cmd.bar cmd.tag slot.toNat) sl (decide (slotSck sl ≠ 0)) false d a b cc) s

def execXfill (h : Hdr) (cmd : Cmd) (d a b cc : RegCode) (s : State) : Host.Outcome State Fault Refusal :=
  issueI (.xfill h cmd d a b cc) (runOpts cmd.tag cc (fun _ => false)) (fun _ c =>
    c.command h 0xC5 0 (cmdImm cmd.scope cmd.bar cmd.tag 0) 0 false false d a b cc) s

/-! ### Tags (R323, R324) -/

/-- The tags of a mask, rising. -/
def tagsOf (m : DWord) : List Nat := (List.range 64).filter (fun t => m.getLsbD t)

/-- The lowest ready tag of a mask with its status, as WTANY and FFRDY report it. -/
def Plane.anyTag (p : Plane) (m : DWord) : Option Word :=
  ((tagsOf (m &&& p.tagReady)).head?).map (fun t => BitVec.ofNat 32 (t + 256 * tget 0 p.tagStatus t))

/-- The greatest status of a mask whose tags are all ready. -/
def Plane.allTags (p : Plane) (m : DWord) : Option Word :=
  if m &&& ~~~p.tagReady = 0 then some (BitVec.ofNat 32 ((tagsOf m).foldl (fun x t => max x (tget 0 p.tagStatus t)) 0)) else none

/-- The checks on a tag mask, then `k` with its value. -/
def Ctx.withMask (c : Ctx) (a : RegCode) (k : DWord → Res) : Res :=
  if c.act = 0 then .ok { s := c.s }
  else if !c.uniform2 a then .trap 8 0
  else if c.u2 a &&& ~~~c.t.tagMask ≠ 0 then .trap 1 0
  else k (c.u2 a)

/-- A wait on tags: its result at once, or the lanes park. -/
def Ctx.tagWait (c : Ctx) (all : Bool) (m : DWord) (d : RegCode) : Res :=
  let p := c.s.plane c.plane
  match (if all then p.allTags m else p.anyTag m) with
  | some w => .ok { s := c.s, wr := c.lanes.flatMap (fun l => wr1 l d w) }
  | none =>
    .ok { s := c.s.newTok, parks := c.lanes.map (fun l => (l, .tags all m d)), out := some (c.s.nextTok, c.act) }

def execWtany (h : Hdr) (d a : RegCode) (s : State) : Host.Outcome State Fault Refusal :=
  issueI (.wtany h d a) { ra := .stop } (fun _ c =>
    c.withMask a (fun m => if m = 0 then .trap 1 0 else c.tagWait false m d)) s

def execWtall (h : Hdr) (d a : RegCode) (s : State) : Host.Outcome State Fault Refusal :=
  issueI (.wtall h d a) { ra := .stop } (fun _ c => c.withMask a (fun m => c.tagWait true m d)) s

def execFfrdy (h : Hdr) (d a : RegCode) (s : State) : Host.Outcome State Fault Refusal :=
  issueI (.ffrdy h d a) {} (fun _ c =>
    c.withMask a (fun m =>
      let w := ((c.s.plane c.plane).anyTag m).getD 0x80000000
      .ok { s := c.s, wr := c.lanes.flatMap (fun l => wr1 l d w), poison := c.shared (opCodes (rd2 a)) })) s

def execTagclr (h : Hdr) (a : RegCode) (s : State) : Host.Outcome State Fault Refusal :=
  issueI (.tagclr h a) quiet (fun _ c =>
    c.withMask a (fun m =>
      let p := c.s.plane c.plane
      let ts := (tagsOf m).filter (fun t => tget 0 p.tagCount t = 0)
      let clr := ts.foldl (fun (x : DWord) t => x ||| (1#64 <<< t)) 0
      .ok { s := c.s.setPlane c.plane { p with
        tagReady := p.tagReady &&& ~~~clr, tagStatus := ts.foldl (fun st t => tput 0 st t 0) p.tagStatus } })) s

/-! ### Counters and range objects (R326 to R328) -/

def execCntwt (h : Hdr) (scope : Scope) (d cc a b : RegCode) (s : State) : Host.Outcome State Fault Refusal :=
  issueI (.cntwt h scope d cc a b) { ra := .stop } (fun _ c =>
    c.homeAccesses c.lanes .read 8 (fun l => c.r2 l a) (fun xs =>
      c.parkOn c.s (xs.map (fun x => (x.lane, x.tr.tgt)))
        (waitOf xs (fun s x => .acq true (BitVec.ofNat 64 x.va) x.tr.fpa x.tr.tgt .geU true (c.r2 x.lane b) scope d cc (s.watchesCell x))))) s

def execRnginit (h : Hdr) (d a b cc : RegCode) (s : State) : Host.Outcome State Fault Refusal :=
  issueI (.rnginit h d a b cc) quiet (fun _ c =>
    c.atomics false false .lane 32 16 none (fun l => c.r2 l a) (fun l =>
      .rngInit (c.r2 l b).toNat (c.r2 l b + c.r2 l cc).toNat (c.r1 l d).toNat (c.r1 l (codeAdd d 1)).toNat)) s

def execRngnxt (h : Hdr) (d a : RegCode) (s : State) : Host.Outcome State Fault Refusal :=
  issueI (.rngnxt h d a) quiet (fun _ c =>
    c.atomics false false .lane 32 16 (some d) (fun l => c.r2 l a) (fun _ => .rngNext)) s

/-! ### Children (R329 to R331) -/

/-- The child records of the active lanes, read as a load (R329), then `k`. -/
def Ctx.childRecs (c : Ctx) (a : RegCode) (k : List (Nat × List Byte) → Res) : Res :=
  let rs := c.lanes.map (fun l => (l, (c.r2 l a).toNat, c.recRead (c.r2 l a).toNat 128))
  let bad := rs.filterMap (fun r => match r.2.2 with | .xl x => some (r.1, r.2.1, x) | .ok _ | .hold _ => none)
  if bad ≠ [] then .xl .read bad { s := c.s }
  else match rs.findSome? (fun r => match r.2.2 with | .hold s => some s | .ok _ | .xl _ => none) with
    | some s => .hold s
    | none => k (rs.filterMap (fun r => match r.2.2 with | .ok bs => some (r.1, bs) | .xl _ | .hold _ => none))

def execLaunch (h : Hdr) (wait : Bool) (d a : RegCode) (s : State) : Host.Outcome State Fault Refusal :=
  issueI (.launch h wait d a) (if wait then { ra := .stop } else quiet) (fun _ c =>
    match c.lanes.find? (fun l => (c.r2 l a).toNat % 128 ≠ 0) with
    | some l => .trap 4 (c.r2 l a)
    | none => c.childRecs a (fun rs =>
        c.released true .part (fun s =>
          match s.spillHold c.tid rs.length with
          | some s => .hold s
          | none =>
          let (s, wr, parks) := rs.foldl (fun (r : State × List Wr × List (Nat × Wait)) (x : Nat × List Byte) =>
            let (s, st) := if recOk x.2 && r.1.launchAhead c.t.grid c.s.nextTok then (r.1, 1) else r.1.offer c.tid x.2
            if wait && decide (st = 1) then (s, r.2.1, r.2.2 ++ [(x.1, .launch x.2 d)])
            else (s, r.2.1 ++ wr1 x.1 d (BitVec.ofNat 32 st), r.2.2)) (s.newTok, [], [])
          .ok { s := c.dropRbuf s, wr := wr, parks := parks,
                out := if parks = [] then none else some (c.s.nextTok, maskOf (parks.map (·.1))) }))) s

def execCjoin (h : Hdr) (s : State) : Host.Outcome State Fault Refusal :=
  issueI (.cjoin h) { ra := .stop } (fun _ c =>
    if c.act = 0 then .ok { s := c.s }
    else if c.t.children = 0 then .ok { s := c.s.fullInval c.core c.t.func c.plane }
    else .ok { s := c.s.newTok, parks := c.lanes.map (fun l => (l, .cjoin)), out := some (c.s.nextTok, c.act) }) s

end Sys2Proof.Machine
end

