-- ==== Sys2Proof/Machine/Net.lean ====
section
/-!
DEFINITION. The fabric instructions (26 R445 to R448, MAJ 0xE0 to 0xE3; 25 R428, R429, MAJ 0xE4).
-/
namespace Sys2Proof.Machine

/-- The function has no mesh (R432). -/
def Ctx.noMesh (c : Ctx) : Bool := (c.s.meshOf c.t.func).isNone

/-- XRESH (R446): its two layout records, and D with a counter or a channel block. -/
def execXresh (h : Hdr) (cmd : ReshCmd) (d a b : RegCode) (s : State) : Host.Outcome State Fault Refusal :=
  issueI (.xresh h cmd d a b) (cmdOpts cmd.tag (fun c => c.noMesh || (cmd.pers && decide (d = 255)))) (fun _ c =>
    if c.act = 0 then .ok { s := c.s }
    else if !c.uniform2 a || !c.uniform2 b || !c.uniform2 d then .trap 8 0
    else
      let vd := if d = 255 then 0 else (c.u2 d).toNat
      if vd % (if cmd.pers then 16 else 8) ≠ 0 then .trap 1 0 else
      c.records [(c.u2 a).toNat, (c.u2 b).toNat] (fun rs => c.counterXl vd (
        let card := { c.newCard 0xE0 (if cmd.pers then 1 else 0) (cmdImm cmd.scope false cmd.tag 0) with
          counter := vd, orig := [0, 0, 0], srec := (rs[0]?).getD [], drec := (rs[1]?).getD [] }
        if (c.s.reshOf card).isNone then .trap 1 0
        else c.formCard card))) s

/-- XRED.push and XMCAST (R447). -/
def Ctx.pushTiles (c : Ctx) (maj : Nat) (scope : Scope) (tag : Option (BitVec 6)) (a b cc : RegCode) : Res :=
  if c.act = 0 then .ok { s := c.s }
  else if !c.uniform2 a || !c.uniform1 b || !c.uniform1 cc then .trap 8 0
  else if c.u1 cc = 0 then .trap 1 0
  else c.records [(c.u2 a).toNat] (fun rs =>
    let card := { c.newCard maj 0 (cmdImm scope false tag 0) with
      orig := [((c.u1 b).toNat : Int), ((c.u1 cc).toNat : Int), 0], srec := (rs[0]?).getD [] }
    match c.s.redOf card with
    | none => .trap 1 0
    | some (r, _, _) =>
      if r.alg.ntile < card.tile0 + card.tiles then .trap 1 0 else c.formCard card)

def execXredPush (h : Hdr) (scope : Scope) (tag : Option (BitVec 6)) (a b cc : RegCode) (s : State) :
    Host.Outcome State Fault Refusal :=
  issueI (.xredPush h scope tag a b cc) (cmdOpts tag Ctx.noMesh) (fun _ c => c.pushTiles 0xE1 scope tag a b cc) s

def execXmcast (h : Hdr) (scope : Scope) (tag : Option (BitVec 6)) (a b cc : RegCode) (s : State) :
    Host.Outcome State Fault Refusal :=
  issueI (.xmcast h scope tag a b cc) (cmdOpts tag Ctx.noMesh) (fun _ c => c.pushTiles 0xE2 scope tag a b cc) s

/-- A CANCEL of a handle's instance (R441), or where `channel` of its persistent channel (R439). -/
def State.cancelSlot (s : State) (func handle inst : Nat) (channel : Bool) (alg : Alg) : State :=
  match (s.func func).vdn with
  | some v => s.send (collPacket 0x26 v 0 handle inst { tile := 0, rank := 0, off := if channel then 1 else 0, alg := alg } [])
  | none => s

/-- The algorithm under which a collective card has asked for its slot, with its handle. -/
def State.slotOf (s : State) (c : Card) : Option (Nat × Nat) :=
  if c.maj = 0xE0 then (s.reshOf c).map (fun x => (x.1.handle, 2 ^ c.tile0)) else (s.redOf c).map (fun x => (x.1.handle, x.1.alg.axes))

/-- The withdrawal of a card whose first push is not accepted yet (R441): it ends REFUSED, and the switch hears of it where the card has
joined an instance. -/
def State.withdraw (s : State) (c : Card) : State :=
  let s := match s.slotOf c with
    | some (h, axes) => if c.phase = 0 then s else s.cancelSlot c.func h c.inst false
        { axes := axes, elt := 0, op := 0, skip := 0, tileb := 512, ntile := 1 }
    | none => s
  s.endCard c 3 false

/-- A card that XRED.cancel withdraws (R441): it has a slot to ask for and has pushed nothing; an XRESH is in a step that waits for its
slot (R446). -/
def Card.unpushed (c : Card) : Bool :=
  decide (0xE0 ≤ c.maj) && (if c.maj = 0xE0 then decide (c.done = 1) || decide (c.done = 2) else decide (c.done = 0)) &&
    (match c.st with
     | .finished _ => false
     | .formed | .waiting | .ready _ | .running _ | .paused .. => true)

/-- XRED.cancel (R441): the function's cards of the record's handle that have pushed nothing. DEDUCED (log entry 62): where the function has no
card of the handle it cancels the handle's persistent channel, if there is one (R439). -/
def execXredCancel (h : Hdr) (a : RegCode) (s : State) : Host.Outcome State Fault Refusal :=
  issueI (.xredCancel h a) { ra := .suppress, ill := Ctx.noMesh } (fun _ c =>
    if c.act = 0 then .ok { s := c.s }
    else if !c.uniform2 a then .trap 8 0
    else c.records [(c.u2 a).toNat] (fun rs =>
      match c.s.redOf { c.newCard 0xE1 0 0 with srec := (rs[0]?).getD [] } with
      | none => .trap 1 0
      | some (r, _, _) =>
        let all := c.s.allCards.filter (fun x => decide (x.func = c.t.func) && decide ((c.s.slotOf x).map (fun y => y.1) = some r.handle))
        let s := if all = [] then c.s.cancelSlot c.t.func r.handle 0 true r.alg
          else (all.filter Card.unpushed).foldl State.withdraw c.s
        .ok { s := c.dropRbuf s })) s

/-- CWAIT (R448): the home watches DONE and LSTAT of the channel block. -/
def execCwait (h : Hdr) (scope : Scope) (d cc a b : RegCode) (s : State) : Host.Outcome State Fault Refusal :=
  issueI (.cwait h scope d cc a b) { ra := .stop } (fun _ c =>
    c.homeAccesses c.lanes .read 16 (fun l => c.r2 l a) (fun xs =>
      c.parkOn c.s (xs.map (fun x => (x.lane, x.tr.tgt)))
        (waitOf xs (fun _ x => .chan (BitVec.ofNat 64 x.va) x.tr.fpa x.tr.tgt (c.r1 x.lane b) scope d cc)))) s

/-- PFENCE (25 R429): it is done once every remote request of its group that was issued before it is answered, and later memory
instructions and commands of the group wait for it. -/
def execPfence (h : Hdr) (vdn : Option RegCode) (s : State) : Host.Outcome State Fault Refusal :=
  issueI (.pfence h vdn) quiet (fun _ c =>
    if c.act = 0 then .ok { s := c.s }
    else if (match vdn with | some a => !c.uniform1 a | none => false) then .trap 8 0
    else
      let v : Option Nat := vdn.map (fun a => (c.u1 a).toNat % 4096)
      let tok := c.s.nextTok
      if c.s.groupRemote c.core c.gk tok (fun x => v.all (fun y => decide (y = x))) then
        .ok { s := (c.s.setGroup c.gk { c.g with fences := c.g.fences ++ [⟨tok, c.act, v⟩] }).newTok, out := some (tok, c.act) }
      else .ok { s := c.s }) s

end Sys2Proof.Machine
end

