-- ==== Sys2Proof/Machine/CollEvents.lean ====
section
/-!
DEFINITION. Collective cards as they run (26 R435, R439 to R443, R446, R447), the segments of every card, the Airan switch (R436,
R439 to R441, R449), and collective packets as a device and the switch receive them (R443, R444; log entry 21).
-/
namespace Sys2Proof.Machine

/-! ### Pieces in a card's buffer -/

/-- The place of byte `off` of part `k` in a card's buffer; the length of a piece that has come stands 2^100 above, its mark 2^102. -/
def partKey (k off : Nat) : Nat := k * 2 ^ 60 + off

def Card.keep (c : Card) (k off : Nat) (bs : List Byte) (marked : Bool) : Card :=
  let t := tput 0 (writeBytes c.buf (partKey k off) bs) (2 ^ 100 + partKey k off) (BitVec.ofNat 8 bs.length)
  { c with buf := if marked then tput 0 t (2 ^ 102 + partKey k off) (BitVec.ofNat 8 bs.length) else t }

/-- Every byte of a part of `n` bytes has come. -/
def Card.whole (c : Card) (k n : Nat) : Bool :=
  decide (n ≤ c.buf.foldl (fun (m : Nat) (e : Nat × Byte) =>
    if 2 ^ 100 + partKey k 0 ≤ e.1 ∧ e.1 < 2 ^ 100 + partKey k n then m + e.2.toNat else m) 0)

/-- The bytes of a part, each with its mark. -/
def Card.part (c : Card) (k n : Nat) : List (Byte × Bool) :=
  let ms := c.buf.filter (fun e => decide (2 ^ 102 + partKey k 0 ≤ e.1) && decide (e.1 < 2 ^ 102 + partKey k n))
  (readBytes c.buf (partKey k 0) n).zipIdx.map (fun (b, i) =>
    (b, ms.any (fun e => decide (e.1 ≤ 2 ^ 102 + partKey k i) && decide (2 ^ 102 + partKey k i < e.1 + e.2.toNat))))

/-- A part is gone from the buffer. -/
def Card.dropPart (c : Card) (k : Nat) : Card :=
  { c with buf := c.buf.filter (fun e => !(decide (e.1 % 2 ^ 100 / 2 ^ 60 = k))) }

/-- Where a card notes that a member has completed the steps before `step` (R435). -/
def stepKey (step rank : Nat) : Nat := 2 ^ 103 + step * 4096 + rank

/-! ### Memory in runs of bytes -/

/-- Pieces of a run that lie in one 128-byte block each: address, offset, length. -/
def blocksOf : Nat → Nat → Nat → List (Nat × Nat × Nat)
  | 0, _, _ => []
  | fuel + 1, a, n =>
    if n = 0 then [] else
    let k := min n (128 - a % 128)
    (a, 0, k) :: (blocksOf fuel (a + k) (n - k)).map (fun (x, o, m) => (x, o + k, m))

/-- `n` bytes of global memory from `a` as a card reads them, each with its mark. -/
def CW.readRun (w : CW) (a n : Nat) : Except CStop (CW × List (Byte × Bool)) :=
  (blocksOf n a n).foldl (fun (r : Except CStop (CW × List (Byte × Bool))) x => match r with
    | .error e => .error e
    | .ok (w, l) => match w.read 0 x.1 x.2.2 with
      | .error e => .error e
      | .ok (w, bs, marked) =>
        let one (i : Nat) : Bool := match w.s.cardRead w.c 0 (x.1 + i) 1 with | .ok (_, m) => m | .error _ => true
        .ok (w, l ++ bs.zipIdx.map (fun (b, i) => (b, marked && one i)))) (.ok (w, []))

/-- How far a run of writes came, and what stopped it: what is written stays written (17 R301). -/
abbrev Ran : Type := CW × Option CStop

/-- Bytes written by a card from `a` upwards; marked ones one by one. -/
def CW.writeRun (r : Ran) (a : Nat) (bs : List (Byte × Bool)) : Ran :=
  let put (r : Ran) (a : Nat) (bs : List Byte) (marked : Bool) : Ran := match r.2 with
    | some _ => r
    | none => match r.1.write 0 a bs marked with
      | .ok w => (w, none)
      | .error e => (r.1, some e)
  (blocksOf bs.length a bs.length).foldl (fun r x =>
    let b := (bs.drop x.2.1).take x.2.2
    if b.any (fun y => y.2) then b.zipIdx.foldl (fun r y => put r (x.1 + y.2) [y.1.1] y.1.2) r
    else put r x.1 (b.map (fun y => y.1)) false) r

/-- A move of a collective card: the state, or the state with what stops the card. -/
abbrev CMove : Type := Except (State × CStop) State

/-- The card's stores to peers go on first; then `k`. -/
def State.afterSends (s : State) (c : Card) (k : State → Card → CMove) : CMove :=
  match s.cardSends c with
  | some s => .ok s
  | none => k s { c with tok := none }

/-! ### Instances (R440) -/

/-- The current instance of a handle with the tiles that it has. -/
def Func.hset (f : Func) (h : Nat) : Nat × Nat × List Nat := tget (0, 0, []) f.hsets h

def State.setHset (s : State) (func h : Nat) (x : Nat × Nat × List Nat) : State :=
  let f := s.func func
  s.setFunc func { f with hsets := tput (0, 0, []) f.hsets h x }

/-- The handle of a collective card. -/
def State.handleOf (s : State) (c : Card) : Option Nat :=
  if c.maj = 0xE0 then (s.reshOf c).map (fun x => x.1.handle) else (s.redOf c).map (fun x => x.1.handle)

/-- The other cards of the function that are in an instance of a handle. -/
def State.mates (s : State) (c : Card) (h inst : Nat) : List Card :=
  s.allCards.filter (fun x => decide (x.func = c.func) && decide (x.id ≠ c.id) && decide (0xE0 ≤ x.maj) && decide (1 ≤ x.phase) &&
    decide (x.inst = inst) && decide (s.handleOf x = some h))

/-- The function's own VDN and the weight of its bind record. -/
def State.vdnOf (s : State) (func : Nat) : Nat := ((s.func func).vdn).getD 0

/-- A request for a slot (R439). The step of the head says what the slot serves (SwSlot.kind). -/
def State.slotReq (s : State) (c : Card) (h inst kind : Nat) (alg : Alg) : State :=
  s.send (collPacket 0x20 (s.vdnOf c.func) 0 h inst { tile := c.tile0, rank := 0, off := 0, alg := alg, step := kind,
                                                      weight := s.weight c.func } [])

/-- What a packet brings to its card: bytes of a part, or the news that a member has completed a step of XRESH. -/
def Card.takePkt (c : Card) (p : Packet) : Card :=
  let h := headOf p.payload
  if p.type = 0x27 then { c with buf := tput 0 c.buf (stepKey h.step h.rank) 1 }
  else if c.maj = 0xE0 then c.keep (h.step * 4096 + h.rank) (h.tile * h.alg.tileb + h.off) (p.payload.drop 16) h.marked
  else c.keep (h.rank * 65536 + h.tile) h.off (p.payload.drop 16) h.marked

/-- Held traffic of an instance, as it starts. -/
def State.takeHeld (s : State) (c : Card) (h inst : Nat) : State × Card :=
  let mine (p : Packet) : Bool := decide (p.dst = s.vdnOf c.func) && decide (pktHandle p = h) && decide (pktInst p = inst % 2 ^ 20) &&
    (decide (c.maj = 0xE0) || c.range.contains (headOf p.payload).tile)
  let c := (s.collHeld.filter mine).foldl Card.takePkt c
  ({ s with collHeld := s.collHeld.filter (fun p => !mine p) }, c)

/-! ### XRED.push and XMCAST (R440, R447) -/

/-- The card joins an instance, if it may, and asks for its slot unless a card of the instance has. -/
def State.joinInst (s : State) (c : Card) (r : RedRec) : State :=
  let (inst, _, done) := (s.func c.func).hset r.handle
  let mates := s.mates c r.handle inst
  if c.range.any (fun k => done.contains k || mates.any (fun x => x.range.contains k)) then s
  else
    let ph := mates.foldl (fun p x => max p x.phase) 0
    let c := { c.withInst inst with phase := max 1 ph }
    let (s, c) := s.takeHeld c r.handle inst
    let s := s.setCard c
    if ph = 0 then s.slotReq c r.handle inst (if c.maj = 0xE2 then 1 else 0) r.alg else s

/-- A packet that the switch is to multicast. -/
def Packet.toAll (p : Packet) : Packet := { p with rid := 2 }

/-- The tile is pushed: to the switch, which reduces or multicasts it. -/
def State.pushTile (s : State) (c : Card) (r : RedRec) (m : Mesh) (x : List Nat) : CMove :=
  let k := c.tile0 + c.done
  match (CW.mk s c).readRun (r.src + k * r.alg.tileb) r.alg.tileb with
  | .error e => .error (s, e)
  | .ok (w, bs) =>
    let s := w.s
    let v := s.vdnOf c.func
    let hd : CHead := { tile := k, rank := m.rank r.alg.axes x, off := 0, alg := r.alg }
    let pkts := if c.maj = 0xE2
      then (collPackets (s.pieceLen v) 0x24 v 0 r.handle c.inst hd bs).map Packet.toAll
      else collPackets (s.pieceLen v) 0x22 v 0 r.handle c.inst hd bs
    let (inst, _, done) := (s.func c.func).hset r.handle
    let done := done ++ [k]
    let s := s.setHset c.func r.handle (if r.alg.ntile ≤ done.length then (inst + 1, 0, []) else (inst, r.alg.ntile, done))
    .ok ((pkts.foldl State.send s).setCard { c.dropPeer with done := c.done + 1 })

/-- The parts of tile `k`, with their places and lengths: one of an XRED, one from each rank of an XMCAST. -/
def tileParts (c : Card) (r : RedRec) (n k : Nat) : List (Nat × Nat × Nat) :=
  if c.maj = 0xE2 then (List.range n).map (fun q => (q * 65536 + k, r.dst + (k * n + q) * r.alg.tileb, r.alg.tileb))
  else [(k, r.dst + k * r.alg.tileb, r.alg.tileb)]

/-- All of tile `k` has come. -/
def Card.tileHere (c : Card) (r : RedRec) (n k : Nat) : Bool :=
  (tileParts c r n k).all (fun x => c.whole x.1 (r.alg.tileb + (if c.maj = 0xE2 then 0 else r.alg.countBytes)))

/-- A result tile lands: its bytes and counts, then its counter, then the acknowledgement to the switch (R447). The fourth
entry of `orig` names the tile in hand, its bytes written. -/
def State.landTile (s : State) (c : Card) (r : RedRec) (m : Mesh) (x : List Nat) (k : Nat) : CMove :=
  let n := (m.group r.alg.axes x).length
  let me := m.rank r.alg.axes x
  let finish (s : State) (c : Card) : CMove :=
    match s.cardUpdate c (r.cnt + 8 * k) [(0, .atom 0 8 1 0 false)] with
    | .stop e => .error (s, e)
    | .done s _ =>
      let c := (tileParts c r n k).foldl (fun (c : Card) p => c.dropPart p.1) { c with
        got := c.got ++ [k], tok := none, ctrDone := none, orig := c.orig.take 3 }
      let ack (q : Nat) : Packet := { (collPacket 0x27 (s.vdnOf c.func) 0 r.handle c.inst
                                      { tile := k, rank := q, off := me, alg := r.alg } []) with rid := 1 }
      .ok (((if c.maj = 0xE2 then (List.range n).map ack else [ack 0]).foldl State.send s).setCard c)
  if (c.orig[3]?).isSome then s.afterSends c finish
  else
    let w := (tileParts c r n k).foldl (fun (w : Ran) p =>
      let all := c.part p.1 (p.2.2 + r.alg.countBytes)
      let w := CW.writeRun w p.2.1 (all.take p.2.2)
      if c.maj = 0xE2 then w else CW.writeRun w (r.cnts + k * r.alg.countBytes) (all.drop p.2.2)) (⟨s, { c with wrote := [] }⟩, none)
    match w with
    | (w, some e) => .error (w.s.setCard { w.c with wrote := [] }, e)
    | (w, none) =>
      let c := { w.c with orig := w.c.orig ++ [(k : Int)], wrote := [] }
      let s := (w.s.setCard c).wakeMem
      if c.outq ≠ [] then .ok s else finish s c

/-- The tile whose landing is next. -/
def Card.nextTile (c : Card) (r : RedRec) (n : Nat) : Option Nat :=
  match c.orig[3]? with
  | some k => some k.toNat
  | none => c.range.find? (fun k => !c.got.contains k && c.tileHere r n k)

/-- One move of an XRED or XMCAST card. -/
def State.redStep (s : State) (c : Card) : CMove :=
  match s.redOf c with
  | none => .ok s
  | some (r, m, x) =>
    let n := (m.group r.alg.axes x).length
    match c.nextTile r n with
    | some k => s.landTile c r m x k
    | none =>
      if c.out then .ok s
      else if c.phase = 0 then .ok (s.joinInst c r)
      else if c.phase = 2 ∧ c.done < c.tiles then s.pushTile c r m x
      else if c.got.length = c.tiles then .ok (s.setCard { c with st := .finished (c.st.engine.getD 255) })
      else .ok s

/-! ### XRESH (R435, R442, R446). `orig` holds the step, the tiles pushed in it, and the instance; `done` holds how far the step's
exchange is: 0 nothing sent, 1 a slot asked for, 2 granted, 3 sent. -/

/-- The algorithm of a reduction step: tiles of 512 bytes, or of 65,536 where there would be too many (log entry 21). -/
def reshAlg (axis elt bytes : Nat) : Alg :=
  let t := if bytes ≤ 512 * 65536 then 512 else 65536
  { axes := 2 ^ axis, elt := elt, op := 0, skip := 0, tileb := t, ntile := max 1 ((bytes + t - 1) / t) }

/-- The shard lies at the target: a step has exchanged something, or the copy that follows the steps is made. -/
def shardMoved (steps : List Exch) (step : Nat) : Bool := (steps.take step).any (fun e => decide (e ≠ .none)) || decide (steps.length < step)

/-- The head of an exchange that no switch takes part in: its data lies in tiles of 65,536 bytes. -/
def plainAlg (axis elt : Nat) : Alg := { axes := 2 ^ axis, elt := elt, op := 0, skip := 0, tileb := 65536, ntile := 1 }

/-- A step ends, and the group of the next step hears of it, which waits for it (R435; log entry 21 gives the packet). -/
def State.stepEnd (s : State) (c : Card) (h elt : Nat) (m : Mesh) (x : List Nat) (step : Nat) : State :=
  let c := { c with done := 0, buf := (c.dropPeer.buf).filter (fun e => decide (2 ^ 103 ≤ e.1) || decide ((step + 1) * 4096 * 2 ^ 60 ≤ e.1 % 2 ^ 100)),
                    orig := [((step + 1 : Nat) : Int), 0, (c.inst : Int)], wrote := [] }
  let v := s.vdnOf c.func
  let hd : CHead := { tile := 0, rank := m.rank (2 ^ (step + 1)) x, off := 0, alg := plainAlg (step + 1) elt, step := step + 1 }
  let others := if step + 1 < m.ext.length then (m.group (2 ^ (step + 1)) x).filter (fun d => decide (d ≠ v)) else []
  (others.map (fun d => collPacket 0x27 v d h c.inst hd [])).foldl State.send (s.setCard c)

/-- Every member of the step's group has completed the previous step (R435). -/
def Card.stepReady (c : Card) (m : Mesh) (x : List Nat) (step : Nat) : Bool :=
  decide (step = 0) || (List.range (m.group (2 ^ step) x).length).all (fun q =>
    decide (q = m.rank (2 ^ step) x) || (tfind c.buf (stepKey step q)).isSome)

/-- The shard is written at the target, with which its step ends. -/
def State.putShard (s : State) (c : Card) (h elt base : Nat) (m : Mesh) (x : List Nat) (step : Nat) (bs : List (Byte × Bool)) : CMove :=
  match CW.writeRun (⟨s, { c with wrote := [] }⟩, none) base bs with
  | (w, some e) => .error (w.s.setCard { w.c with wrote := [] }, e)
  | (w, none) => .ok (w.s.stepEnd w.c h elt m x step).wakeMem

/-- One move of the exchange of a step; `moved` says that the shard lies at the target. -/
def State.reshExch (s : State) (c : Card) (src dst : Layout) (m : Mesh) (x : List Nat) (step : Nat) (moved : Bool) (e : Exch) : CMove :=
  let a := midLayout src dst step
  let b := midLayout src dst (step + 1)
  let esz := eltBytes a.elt
  let (n, n') := (a.ext m, b.ext m)
  let size := a.bytes m
  let grp := m.group (2 ^ step) x
  let me := m.rank (2 ^ step) x
  let v := s.vdnOf c.func
  let h := src.handle
  let shard : Except CStop (CW × List (Byte × Bool)) := (CW.mk s c).readRun (if moved then dst.base else src.base) size
  let key (q : Nat) : Nat := step * 4096 + q
  let hd : CHead := { tile := 0, rank := me, off := 0, alg := plainAlg step a.elt, step := step }
  let sent (s : State) (n : Nat) (pkts : List Packet) : CMove :=
    .ok ((pkts.foldl State.send s).setCard { c.dropPeer with done := 3, orig := [(step : Int), (n : Int), (c.inst : Int)] })
  let fin (s : State) (bs : List (Byte × Bool)) : CMove := s.putShard c h a.elt dst.base m x step bs
  match e with
  | .none => .ok (s.stepEnd c h a.elt m x step)
  | .slice d =>
    (match shard with
     | .error e => .error (s, e)
     | .ok (w, bs) => fin w.s (blockBytes esz n d (me * (n'[d]?).getD 0) ((n'[d]?).getD 0) bs))
  | .gather d =>
    if c.done = 0 then
      match shard with
      | .error e => .error (s, e)
      | .ok (w, bs) => sent w.s 1 (grp.flatMap (fun t => tilePackets (s.pieceLen v) 0x24 v t h c.inst hd bs))
    else if (List.range grp.length).all (fun q => c.whole (key q) size) then
      fin s (joinBlocks esz n' d ((List.range grp.length).map (fun q => c.part (key q) size)))
    else .ok s
  | .a2a d f =>
    let len := (n'[f]?).getD 0
    let part := size / grp.length
    if c.done = 0 then
      match shard with
      | .error e => .error (s, e)
      | .ok (w, bs) => sent w.s 1 (grp.zipIdx.flatMap (fun (t, q) =>
          tilePackets (s.pieceLen v) 0x25 v t h c.inst hd (blockBytes esz n f (q * len) len bs)))
    else if (List.range grp.length).all (fun q => c.whole (key q) part) then
      fin s (joinBlocks esz n' d ((List.range grp.length).map (fun q => c.part (key q) part)))
    else .ok s
  | .allReduce | .redScatter _ =>
    let alg := reshAlg step a.elt size
    if c.done = 0 then
      .ok ((s.setCard { c with done := 1 }).slotReq c h c.inst (if c.fn = 1 then 2 else 0) alg)
    else if c.done = 1 then .ok s
    else if c.done = 2 then
      match shard with
      | .error e => .error (s, e)
      | .ok (w, bs) => sent w.s alg.ntile (tilePackets (s.pieceLen v) 0x22 v 0 h c.inst { hd with alg := alg }
          (bs ++ List.replicate (alg.ntile * alg.tileb - bs.length) (0, false)))
    else if c.whole (key 0) (alg.ntile * alg.tileb) then
      let bs := c.part (key 0) size
      let ack (t : Nat) : Packet := { (collPacket 0x27 v 0 h c.inst { tile := t, rank := 0, off := me, alg := alg } []) with rid := 1 }
      let s := ((List.range alg.ntile).map ack).foldl State.send s
      match e with
      | .redScatter d => fin s (blockBytes esz n d (me * (n'[d]?).getD 0) ((n'[d]?).getD 0) bs)
      | .none | .allReduce | .gather _ | .a2a .. | .slice _ => fin s bs
    else .ok s

/-- The start of an XRESH: its instance (R440, R442). -/
def State.reshStart (s : State) (c : Card) (h : Nat) : CMove :=
  let begin' (s : State) (inst ph : Nat) : State :=
    let s := s.setHset c.func h (inst + 1, 0, [])
    let (s, c) := s.takeHeld { c.withInst inst with phase := ph, ctrDone := none } h inst
    s.setCard c
  if c.fn = 1 then
    match s.cardUpdate c c.counter [(0, .atom 0 4 1 0 false)] with
    | .stop e => .error (s, e)
    | .done s n => .ok (begin' s n 1)
  else .ok (begin' s ((s.func c.func).hset h).1 2)

/-- One move of an XRESH card. -/
def State.reshStep (s : State) (c : Card) : CMove :=
  match s.reshOf c with
  | none => .ok s
  | some (src, dst, m, x, steps) =>
    s.afterSends c (fun s c =>
    if c.out then .ok s
    else if c.phase = 0 then s.reshStart c src.handle
    else if c.phase = 1 then
      match (CW.mk s c).read 0 (c.counter + 4) 4 with
      | .error e => .error (s, e)
      | .ok (w, bs, _) =>
        let d := (ofLE bs + 2 ^ 32 - c.inst % 2 ^ 32) % 2 ^ 32
        .ok (w.s.setCard (if d < 2 ^ 31 then { c.dropPeer with phase := 2 } else c.dropPeer))
    else
      match steps[c.tile0]? with
      | some e => if c.stepReady m x c.tile0 then s.reshExch c src dst m x c.tile0 (shardMoved steps c.tile0) e else .ok s
      | none =>
        if !shardMoved steps c.tile0 then
          match (CW.mk s c).readRun src.base (src.bytes m) with
          | .error e => .error (s, e)
          | .ok (w, bs) => w.s.putShard c src.handle src.elt dst.base m x c.tile0 bs
        else .ok (s.setCard { c with st := .finished (c.st.engine.getD 255) }))

/-- One move of a collective card. -/
def State.collStep (s : State) (c : Card) : Host.Outcome State Fault Refusal :=
  match (if c.maj = 0xE0 then s.reshStep c else s.redStep c) with
  | .ok s => .next s
  | .error (s, e) => s.cardStop ((s.allCards.find? (fun x => decide (x.id = c.id))).getD c) e

/-- A running card goes one segment, or one move of a collective, further (21 R365), once the writes of its function
that its core buffers are performed (14 R261). A paused card's stores to peers still leave, and its record is written when there is room
(19 R338). -/
def execCardSegmentDone (die card : Nat) (s : State) : Host.Outcome State Fault Refusal :=
  match (s.die die).cards.find? (fun c => decide (c.id = card)) with
  | none => .next s
  | some c =>
    if (s.func c.func).frozen then
      (match s.drain c.core (fun e => decide (e.func = c.func)) with
       | .error s => .next s
       | .ok s => .next (if c.short then s.frozenStep c else s))
    else match c.st with
    | .running _ =>
      (match s.drain c.core (fun e => decide (e.func = c.func)) with
       | .error s => .next s
       | .ok s => if 0xE0 ≤ c.maj then s.collStep c else s.engineStep c)
    | .paused e va unwritten =>
      .next (match s.cardSends c with
        | some s => s
        | none => if unwritten && !(s.func c.func).fqFull then s.pauseCard { c with tok := none } e va else s.setCard { c with tok := none })
    | .formed | .waiting | .ready _ | .finished _ => .next s

/-! ### The switch (R436, R439 to R441) -/

/-- A packet of the switch for a member VDN is sealed under the domain's epoch, or under that of the packet it answers (27 R452 to R455). -/
def State.swSeal (s : State) (p : Packet) : State :=
  match s.doms.find? (fun (e : Nat × Dom) => e.2.members.contains p.dst) with
  | some (i, d) =>
    let n := tget 0 s.sw.seq i
    { s with sw := { s.sw with out := s.sw.out ++ [{ p with
        src := (Config.switchVdn i).toNat, sealed := some ((match p.sealed with | some (e, _) => e | none => d.sendEpoch % 4), n), genuine := true }],
                               seq := tput 0 s.sw.seq i (n + 1) } }
  | none => { s with sw := { s.sw with out := s.sw.out ++ [p] } }

def State.swSend (s : State) (ps : List Packet) : State := ps.foldl State.swSeal s

/-- A packet of type `ty` that the switch takes, with its replay window marked; `none` for one that it drops (25 R418, 27 R452, R456). -/
def State.swTake (s : State) (ty : Nat) (p : Packet) : Option State :=
  if pktSound p = false ∨ p.type ≠ ty then none else
  match s.doms.find? (fun (e : Nat × Dom) => e.2.members.contains p.src), p.sealed with
  | none, none => some s
  | none, some _ | some _, none => none
  | some (_, d), some (k, seq) =>
    match d.held.find? (fun e => decide (e % 4 = k)) with
    | none => none
    | some e =>
      if !p.genuine then none else
      let i := (e * 4 + pktChan p) * 4096 + p.src
      (replayMark (tget (0, 0) s.sw.replay i) seq).map (fun w => { s with sw := { s.sw with replay := tput (0, 0) s.sw.replay i w } })

/-- The group of a member over a mask of axes, as the switch knows it. -/
def Switch.groupOf (w : Switch) (vdn axes : Nat) : Option (List Nat) :=
  (w.meshes.find? (fun m => m.vdns.contains vdn)).bind (fun m => (m.coord vdn).map (fun c => m.group axes c))

/-- A grant to a member. -/
def grantTo (x : SwSlot) (v : Nat) : Packet :=
  { (collPacket 0x21 0 v x.handle x.inst { tile := 0, rank := 0, off := 0, alg := x.alg, step := x.kind } []) with rid := 1 }

/-- Whether a request is for the slot of `x`'s group and handle. -/
def SwSlot.sameAs (a b : SwSlot) : Bool := decide (a.group = b.group) && decide (a.handle = b.handle)

/-- Tiles that a slot's instance delivers in all. -/
def SwSlot.whole (x : SwSlot) : Nat := x.group.length * x.alg.ntile * (if x.kind = 1 then x.group.length else 1)

/-- A persistent channel whose instance is over can take the next (R439, R442). -/
def SwSlot.idle (x : SwSlot) : Bool := decide (x.kind = 2) && decide (x.whole ≤ x.acked.length)

/-- A request served: granted in the slot of its instance or in a free one; `none` where it waits. -/
def Switch.grant (w : Switch) (r : SwSlot) : Option (Switch × Packet) :=
  match findIdx (fun x => r.sameAs x) w.slots with
  | some (i, x) =>
    if x.inst = r.inst then
      some ({ w with slots := updAt (fun x => { x with granted := x.granted ++ [r.vdn] }) w.slots i }, grantTo x r.vdn)
    else if x.idle then
      let y := { r with granted := [r.vdn] }
      some ({ w with slots := updAt (fun _ => y) w.slots i }, grantTo y r.vdn)
    else none
  | none =>
    if w.slots.length < 256 then some ({ w with slots := w.slots ++ [{ r with granted := [r.vdn] }] }, grantTo r r.vdn) else none

/-- The order of requests: arrival, then the higher weight, then the lower VDN. -/
def SwSlot.key (x : SwSlot) : Nat := (x.since * 65536 + (65535 - x.weight)) * 4096 + x.vdn

/-- Queued requests are served as slots become free. -/
def State.serveQueue (s : State) : State :=
  (sortBy SwSlot.key s.sw.queue).foldl (fun s r =>
    match s.sw.grant r with
    | some (w, p) => { s with sw := { w with queue := w.queue.filter (fun x => x ≠ r) } }.swSend [p]
    | none => s) s

/-- A SLOTREQ reaches the switch: it is served with the others of its cycle (R439). -/
def execSlotreq (pkt : Packet) (s : State) : Host.Outcome State Fault Refusal :=
  let h := headOf pkt.payload
  .next (match s.swTake 0x20 pkt with
  | none => s
  | some s =>
    match s.sw.groupOf pkt.src h.alg.axes with
    | none => s
    | some g =>
      let r : SwSlot := { group := g, handle := pktHandle pkt, inst := pktInst pkt, alg := h.alg, vdn := pkt.src, weight := h.weight,
                          since := s.clock, kind := h.step }
      { s with sw := { s.sw with inbox := s.sw.inbox ++ [(r, pkt)] } })

/-- The requests that arrived in a cycle are served as it ends: by weight, then the lower VDN (R439). One that finds no slot waits, and one
that finds the queue full is NACKed. -/
def State.serveInbox (s : State) : State :=
  (sortBy (fun (e : SwSlot × Packet) => e.1.key) s.sw.inbox).foldl (fun s (r, pkt) =>
    match s.sw.grant r with
    | some (w, p) => { s with sw := w }.swSend [p]
    | none =>
      if s.sw.queue.length < 1024 then { s with sw := { s.sw with queue := s.sw.queue ++ [r] } }
      else s.swSend [{ pkt with dst := pkt.src, src := 0, type := 0x27, stat := 4, rid := 2 * pkt.type + 1 }]) { s with sw := { s.sw with inbox := [] } }

/-- A refusal, which ends cards REFUSED: of the push of one tile under an algorithm that is not the slot's (`off` 1, R441), or of the whole instance
(`off` 0, R449). -/
def refuseTo (x : SwSlot) (v tile off : Nat) (alg : Alg) : Packet :=
  { (collPacket 0x23 0 v x.handle x.inst { tile := tile, rank := 0, off := off, alg := alg, step := x.kind } []) with rid := 1, stat := 3 }

/-- A piece of a tile from the member of rank `q` has come to a slot. -/
def pieceOf (h : CHead) (n : Nat) : Nat := (h.rank * 2 ^ 60 + h.tile * 2 ^ 20 + h.off) * 256 + n % 256

/-- A slot with a piece. -/
def SwSlot.take (x : SwSlot) (h : CHead) (data : List Byte) : SwSlot :=
  let piece := pieceOf h data.length
  let m := h.tile * 2 ^ 20 + h.off
  { x with parts := writeBytes x.parts (piece / 256) data, came := if x.came.contains piece then x.came else x.came ++ [piece],
           marks := if h.marked && !x.marks.contains m then x.marks ++ [m] else x.marks }

/-- Every member has pushed a tile. -/
def SwSlot.full (x : SwSlot) (tile : Nat) : Bool :=
  (List.range x.group.length).all (fun q => decide (x.alg.tileb ≤ x.came.foldl (fun (n : Nat) e =>
    if e / 2 ^ 28 = q * 2 ^ 40 + tile then n + e % 256 else n) 0))

/-- The reduced tile with its counts. A byte of the result is marked where a piece that it is computed from carries a mark, and the counts are
where any piece does (DEDUCED, log entry 29). -/
def SwSlot.result (x : SwSlot) (tile : Nat) : List (Byte × Bool) :=
  let (res, cnt) := reduceTile x.alg ((List.range x.group.length).map (fun q => readBytes x.parts (q * 2 ^ 60 + tile * 2 ^ 20) x.alg.tileb))
  let ms := (x.marks.filter (fun m => decide (m / 2 ^ 20 = tile))).map (fun m => m % 2 ^ 20)
  let len (o : Nat) : Nat := x.came.foldl (fun (n : Nat) e => if e / 256 % 2 ^ 60 = tile * 2 ^ 20 + o then max n (e % 256) else n) 0
  let runs := ms.map (fun o => (o, len o))
  res.zipIdx.map (fun (b, i) => (b, runs.any (fun r => decide (r.1 ≤ i) && decide (i < r.1 + r.2)))) ++ cnt.map (fun b => (b, decide (ms ≠ [])))

/-- A contribution stored, and a tile that every member has pushed reduced and returned to all (R436, R447). -/
def State.contribute (s : State) (i : Nat) (x : SwSlot) (h : CHead) (data : List Byte) : State :=
  let x := x.take h data
  if x.full h.tile && !x.tiles.contains h.tile then
    let hd : CHead := { tile := h.tile, rank := 0, off := 0, alg := x.alg, step := h.step }
    let out := x.group.flatMap (fun v => (collPackets (s.pieceLen v) 0x23 0 v x.handle x.inst hd (x.result h.tile)).map (fun p => { p with rid := 1 }))
    { s with sw := { s.sw with slots := updAt (fun _ => { x with tiles := x.tiles ++ [h.tile] }) s.sw.slots i } }.swSend out
  else { s with sw := { s.sw with slots := updAt (fun _ => x) s.sw.slots i } }

/-- The slot of a packet's group, handle and instance (R439). -/
def Switch.slotFor (w : Switch) (p : Packet) : Option (Nat × SwSlot) :=
  let g := w.groupOf p.src (headOf p.payload).alg.axes
  findIdx (fun (x : SwSlot) => decide (some x.group = g) && decide (x.handle = pktHandle p) && decide (x.inst = pktInst p)) w.slots

/-- A push reaches the switch: accepted under the algorithm of its slot, or refused (R441). One that names another AXMASK than a slot that
its member holds for the handle and the instance is refused there; so is a push of the other kind, XRED or XMCAST (DESIGN CHOICE, log entry
21). -/
def State.swPush (s : State) (p : Packet) (mcast : Bool) (k : Nat → SwSlot → State) : State :=
  let h := headOf p.payload
  match s.sw.slotFor p with
  | some (i, x) => if x.alg ≠ h.alg ∨ decide (x.kind = 1) ≠ mcast then s.swSend [refuseTo x p.src h.tile 1 h.alg] else k i x
  | none =>
    match s.sw.slots.find? (fun x => x.group.contains p.src && decide (x.handle = pktHandle p) && decide (x.inst = pktInst p)) with
    | some x => s.swSend [refuseTo x p.src h.tile 1 h.alg]
    | none => s

/-- A PUSH reaches the switch. -/
def execPush (pkt : Packet) (s : State) : Host.Outcome State Fault Refusal :=
  .next (match s.swTake 0x22 pkt with
  | none => s
  | some s => s.swPush pkt false (fun i x => s.contribute i x (headOf pkt.payload) (pkt.payload.drop 16)))

/-- A tile of an XMCAST at the switch goes on to every member (R438, R439, R447). -/
def State.swMcast (s : State) (pkt : Packet) : State :=
  match s.swTake 0x24 pkt with
  | none => s
  | some s => s.swPush pkt true (fun i x =>
      let x := x.take { headOf pkt.payload with marked := false } (pkt.payload.drop 16)
      { s with sw := { s.sw with slots := updAt (fun _ => { x with parts := [] }) s.sw.slots i } }.swSend (x.group.map (fun v =>
        { pkt with src := 0, dst := v, rid := 1, vc := 2, sealed := none })))

/-- A member has pushed to a slot. -/
def SwSlot.pushedBy (x : SwSlot) (v : Nat) : Bool := x.came.any (fun e => decide (x.group[e / 2 ^ 68]? = some v))

/-- A CANCEL reaches the switch: the member's request goes, and its grant where the slot has received no push of it, with the slot where
nothing is left of that (R441). That of a persistent channel releases the channel's slot where no instance runs in it (R439). -/
def execCancel (pkt : Packet) (s : State) : Host.Outcome State Fault Refusal :=
  .next (match s.swTake 0x26 pkt with
    | none => s
    | some s =>
      let w := s.sw
      let g := w.groupOf pkt.src (headOf pkt.payload).alg.axes
      let whole := decide ((headOf pkt.payload).off = 1)
      let mine (x : SwSlot) : Bool := decide (some x.group = g) && decide (x.handle = pktHandle pkt)
      let asked (x : SwSlot) : Bool := mine x && decide (x.inst = pktInst pkt) && decide (x.vdn = pkt.src)
      let drop (x : SwSlot) : Option SwSlot :=
        if !mine x then some x
        else if whole then (if x.idle then none else some x)
        else if x.inst ≠ pktInst pkt ∨ x.pushedBy pkt.src = true then some x
        else
          let left := x.granted.filter (fun v => decide (v ≠ pkt.src))
          if left = [] ∧ x.came = [] then none else some { x with granted := left }
      { s with sw := { w with queue := w.queue.filter (fun x => !asked x), inbox := w.inbox.filter (fun e => !asked e.1),
                              slots := w.slots.filterMap drop } }.serveQueue)

/-- The instance of a slot ends for its members, and the slot is released (R449). -/
def State.groupBroken (s : State) (i : Nat) : State :=
  match s.sw.slots[i]? with
  | none => s
  | some x => ({ s with sw := { s.sw with slots := delAt s.sw.slots i } }.swSend (x.group.map (fun v => refuseTo x v 0 0 x.alg))).serveQueue

/-- A member of a slot's group has failed (R449). -/
def execCollectiveGroupBroken (i : Nat) (s : State) : Host.Outcome State Fault Refusal := .next (s.groupBroken i)

/-- The Keystone pair tells the switch of a function that is reset: the instances of the slots held by its groups end (R449), and its own
requests are gone. -/
def State.dropMember (s : State) (func : Nat) : State :=
  match (s.func func).vdn with
  | none => s
  | some v =>
    let w := s.sw
    let s := { s with sw := { w with queue := w.queue.filter (fun x => decide (x.vdn ≠ v)), inbox := w.inbox.filter (fun e => decide (e.1.vdn ≠ v)) } }
    (((s.sw.slots.zipIdx.filter (fun (e : SwSlot × Nat) => e.1.group.contains v)).map (fun (e : SwSlot × Nat) => e.2)).reverse).foldl
      State.groupBroken s

/-! ### Collective packets at a device (R443) -/

/-- The NACK of a collective packet: it is sent again later (R443). -/
def earlyNack (p : Packet) : Packet := { p with dst := p.src, src := p.dst, type := 0x27, vc := 2, stat := 4, rid := 2 * p.type + p.rid % 2 }

/-- A collective packet of type `ty` for a function of this device, well formed and with its seal in order (25 R418, 27 R452, R456); others
are dropped. One for a function that migrates is held or forwarded (R449, 23 R400, R405). -/
def State.ifSealed (s : State) (ty : Nat) (p : Packet) (k : State → Host.Outcome State Fault Refusal) : Host.Outcome State Fault Refusal :=
  if pktSound p = false ∨ p.type ≠ ty then .next (s.countErr p) else
  match s.funcOfVdn p.dst with
  | none => .next (if s.forwards p.dst then s.forward p else s.countErr p)
  | some f => match (s.countFabric p.dst (16 + p.payload.length)).verify f p with
    | (.ok, s) => (match s.holdBack f p with
      | some (s, true) => .next s
      | some (s, false) => .next (s.send (earlyNack p))
      | none => k s)
    | (.denied, s) | (.drop, s) => .next s

/-- The card that a packet's tile is for. -/
def State.cardFor (s : State) (func : Nat) (p : Packet) : Option Card :=
  s.allCards.find? (fun c => decide (c.func = func) && decide (0xE0 ≤ c.maj) && decide (1 ≤ c.phase) &&
    decide (c.inst % 2 ^ 20 = pktInst p) && decide (s.handleOf c = some (pktHandle p)) &&
    (decide (c.maj = 0xE0) || c.range.contains (headOf p.payload).tile))

/-- The instance of a handle that runs or runs next here. -/
def State.runningInst (s : State) (func h : Nat) : Nat :=
  let is := (s.allCards.filter (fun c => decide (c.func = func) && decide (0xE0 ≤ c.maj) && decide (1 ≤ c.phase) &&
    decide (s.handleOf c = some h))).map (fun c => c.inst)
  match argMax (fun (i : Nat) => - (i : Int)) is with
  | some i => i
  | none => ((s.func func).hset h).1

/-- Result bytes reach a member: the card takes them and its tile lands when it is whole; otherwise the traffic is held for an
instance to start, NACKed as early, or dropped as late (R443). -/
def State.collRecv (s : State) (p : Packet) : Host.Outcome State Fault Refusal :=
  match s.funcOfVdn p.dst with
  | none => .next s
  | some f =>
    match s.cardFor f p with
    | some c =>
      let c := c.takePkt p
      let s := s.setCard c
      (match s.redOf c with
       | some (r, m, x) =>
         if c.maj = 0xE0 ∨ (s.func f).frozen = true then .next s else
         (match c.nextTile r (m.group r.alg.axes x).length with
          | none => .next s
          | some k => match s.landTile c r m x k with
            | .ok s => .next s
            | .error (s, e) => s.cardStop ((s.allCards.find? (fun x => decide (x.id = c.id))).getD c) e)
       | none => .next s)
    | none =>
      let d : Nat := (pktInst p + 2 ^ 20 - s.runningInst f (pktHandle p) % 2 ^ 20) % 2 ^ 20
      let tiles : List (Nat × Nat × Nat) := (s.collHeld.filter (fun q => decide (q.dst = p.dst) && decide (q.type ≠ 0x27) && decide (pktHandle q = pktHandle p))).map (fun q =>
        (pktInst q, (headOf q.payload).rank, (headOf q.payload).tile))
      let mine := (pktInst p, (headOf p.payload).rank, (headOf p.payload).tile)
      if 524288 ≤ d then .next (s.countErr p)
      else if decide (d ≤ 1) && (decide (p.type = 0x27) || tiles.contains mine || decide (tiles.eraseDups.length < 256)) then .next { s with collHeld := s.collHeld ++ [p] }
      else .next (s.send (earlyNack p))

/-- A slot is granted: the cards of its instance push (R439). -/
def State.granted (s : State) (pkt : Packet) : State :=
  match s.funcOfVdn pkt.dst with
  | none => s
  | some f => (s.allCards.filter (fun c => decide (c.func = f) && decide (0xE0 ≤ c.maj) && decide (1 ≤ c.phase) &&
      decide (c.inst % 2 ^ 20 = pktInst pkt) && decide (s.handleOf c = some (pktHandle pkt)))).foldl (fun s c =>
    if c.maj = 0xE0 then s.setCard (if c.done = 1 ∧ (headOf pkt.payload).alg.axes = 2 ^ c.tile0 then { c with done := 2 } else c)
    else s.setCard { c with phase := 2 }) s

/-- Tiles of a refused card were not pushed: they leave the set of its instance, which goes on where they completed it (R440, R441). -/
def State.unpush (s : State) (c : Card) : State :=
  match s.redOf c with
  | none => s
  | some (r, _, _) =>
    let mine := c.range.take c.done
    let (inst, n, done) := (s.func c.func).hset r.handle
    if c.inst = inst then s.setHset c.func r.handle (inst, n, done.filter (fun k => !mine.contains k))
    else if c.inst + 1 = inst ∧ done = [] ∧ s.mates c r.handle inst = [] then
      s.setHset c.func r.handle (c.inst, r.alg.ntile, (List.range r.alg.ntile).filter (fun k => !mine.contains k))
    else s

/-- The switch refuses a card: it ends REFUSED, and where its instance has ended no counter is incremented (R449). -/
def State.refuseCard (s : State) (whole : Bool) (c : Card) : State :=
  if whole then s.endCard (if c.fn = 1 then c else { c with counter := 0 }) 3 false
  else (if c.maj = 0xE0 then s else s.unpush c).endCard c 3 false

/-- A push of the card is what a refusal names: a tile of its range under the algorithm of its record. -/
def State.refusedPush (s : State) (c : Card) (h : CHead) : Bool :=
  if c.maj = 0xE0 then decide (c.done = 3) && decide (h.alg.axes = 2 ^ c.tile0)
  else (c.range.take c.done).contains h.tile && decide ((s.redOf c).map (fun r => r.1.alg) = some h.alg)

/-- A RESULT with status 3 ends the card whose push it names, or the cards of its instance (R441, R449). -/
def State.refused (s : State) (pkt : Packet) : State :=
  let h := headOf pkt.payload
  match s.funcOfVdn pkt.dst with
  | none => s
  | some f => (s.allCards.filter (fun c => decide (c.func = f) && !(s.func f).frozen && decide (0xE0 ≤ c.maj) && decide (1 ≤ c.phase) &&
      decide (c.inst % 2 ^ 20 = pktInst pkt) && decide (s.handleOf c = some (pktHandle pkt)) &&
      (decide (h.off = 0) || s.refusedPush c h))).foldl (fun s c => s.refuseCard (decide (h.off = 0)) c) s

/-- An acknowledgement of a tile at the switch, which releases the slot once every member has every tile (R439). -/
def State.swAck (s : State) (p : Packet) : State :=
  let h := headOf p.payload
  match s.sw.slotFor p with
  | none => s
  | some (i, x) =>
    let k := h.off * 2 ^ 48 + h.rank * 2 ^ 32 + h.tile
    let x := { x with acked := if x.acked.contains k then x.acked else x.acked ++ [k] }
    if x.whole ≤ x.acked.length then
      (if x.kind = 2 then { s with sw := { s.sw with slots := updAt (fun _ => x) s.sw.slots i } }
       else { s with sw := { s.sw with slots := delAt s.sw.slots i } }).serveQueue
    else { s with sw := { s.sw with slots := updAt (fun _ => x) s.sw.slots i } }

/-- A NACKed packet is sent again after 1 µs, under its sender's current key (R439, R443, 27 R454). -/
def State.nacked (s : State) (pkt : Packet) : State :=
  { s with early := s.early ++ [(s.clock + s.bound 4000, { pkt with
             dst := pkt.src, src := pkt.dst, type := pkt.rid / 2, stat := 0, rid := pkt.rid % 2, sealed := none })] }

/-- A packet came from the switch: of the types that only it sends. -/
def fromSwitch (type rid : Nat) : Bool := decide (rid % 2 = 1) && (decide (type = 0x21) || decide (type = 0x23) || decide (type = 0x24))

/-- What a collective packet whose seal is in order does at its device, by its type. -/
def State.collTake (s : State) (pkt : Packet) : Host.Outcome State Fault Refusal :=
  if pkt.type = 0x21 then .next (s.granted pkt)
  else if pkt.type = 0x27 ∧ pkt.stat ≠ 0 then .next (if pkt.stat = 4 then s.nacked pkt else s)
  else if pkt.type = 0x23 ∧ pkt.stat = 3 then .next (s.refused pkt)
  else s.collRecv pkt

/-- SLOTGRANT. -/
def execSlotgrant (pkt : Packet) (s : State) : Host.Outcome State Fault Refusal := s.ifSealed 0x21 pkt (fun s => s.collTake pkt)

/-- A RESULT reaches a member (R447). -/
def execResult (pkt : Packet) (s : State) : Host.Outcome State Fault Refusal := s.ifSealed 0x23 pkt (fun s => s.collTake pkt)

/-- An MCAST: from a card at the switch, or at a member. -/
def execMcast (pkt : Packet) (s : State) : Host.Outcome State Fault Refusal :=
  if pkt.rid = 2 then .next (s.swMcast pkt) else s.ifSealed 0x24 pkt (fun s => s.collTake pkt)

def execA2a (pkt : Packet) (s : State) : Host.Outcome State Fault Refusal := s.ifSealed 0x25 pkt (fun s => s.collTake pkt)

/-- An ACK: of a tile at the switch, of a step of XRESH at a member (R435), or a NACK at the switch or at a device. -/
def execAck (pkt : Packet) (s : State) : Host.Outcome State Fault Refusal :=
  if (pkt.stat = 0 ∧ pkt.rid % 2 = 1) ∨ fromSwitch (pkt.rid / 2) pkt.rid = true then
    .next (match s.swTake 0x27 pkt with
      | none => s
      | some s => if pkt.stat = 4 then s.nacked pkt else if pkt.stat = 0 then s.swAck pkt else s)
  else s.ifSealed 0x27 pkt (fun s => s.collTake pkt)

/-- NACKed packets whose time has come leave again. -/
def execEarlyRetry (s : State) : Host.Outcome State Fault Refusal :=
  let (due, rest) := s.early.partition (fun (e : Nat × Packet) => decide (e.1 ≤ s.clock))
  .next (due.foldl (fun s e => if fromSwitch e.2.type e.2.rid then s.swSend [e.2] else s.send e.2)
    { s with early := rest })

/-- The fabric manager sets a function's mesh, at the function's Keystone pair and at the switch (R432). `mesh` holds the
extents, 8 bits each, axis 0 lowest. -/
def execFmMeshSet (func mesh : Nat) (members : List Nat) (s : State) : Host.Outcome State Fault Refusal :=
  let ext := ((List.range 4).map (fun a => bits mesh (8 * a + 7) (8 * a))).takeWhile (fun e => decide (e ≠ 0))
  let m : Mesh := { ext := ext, vdns := members }
  let n := ext.foldl (· * ·) 1
  .next (if ext = [] ∨ members.length ≠ n ∨ 4096 < n then s
    else
      let f := s.func func
      { s.setFunc func { f with mesh := some m } with sw := { s.sw with
        meshes := (s.sw.meshes.filter (fun x => !x.vdns.any (fun v => members.contains v))) ++ [m] } })

end Sys2Proof.Machine
end

