-- ==== Sys2Proof/Machine/Events.lean ====
section
/-!
DEFINITION. What a core, its caches, the walkers and the firmware's page service do by themselves (02 R33, 03 R55, 06 R123, 08
R148 to R151, 09 R161, 12 R208, 13 R228, 14 R244 to R249, 19 R342, 20 R359 to R362).
-/
namespace Sys2Proof.Machine

/-! ### Fetch lines (02 R33, 08 R150) -/

/-- A change to every lane of the groups of a function's teams that `p` selects, and to their checkpoints. -/
def State.mapLanes (s : State) (p : Team → Bool) (f : Lane → Lane) : State :=
  { s with groups := s.groups.map (fun (e : Nat × Group) =>
      if (s.team? (e.1 / 32)).any p then (e.1, e.2.withCkpt (fun g => { g with lanes := g.lanes.map f })) else e) }

/-- A lane goes on at the instruction at which it waited. -/
def Lane.goOn (x : Lane) : Lane := { x with wait := .none, pc := x.resume }

/-- Lanes of a function on a core whose fetch line has come. -/
def State.wakeFetch (s : State) (core func line : Nat) : State :=
  s.mapLanes (fun t => decide (t.func = func) && decide (t.core = core)) (fun x => if x.wait = .fetch line then x.goOn else x)

/-- The 64 bytes of a line reach the core: a first CHECK mismatch fetches it again, a second one leaves it bad (R33). -/
def State.lineCame (s : State) (core : Nat) (f : Fetch) (bytes : List Byte) : State :=
  let k := s.core core
  let rest := k.fetches.filter (fun x => x ≠ f)
  if !lineGood bytes && !f.retried then s.setCore core { k with fetches := rest ++ [{ f with retried := true }] }
  else
    let il : ILine := { func := f.func, line := f.line, bytes := bytes, bad := !lineGood bytes }
    let old := k.icache.filter (fun l => !(decide (l.func = f.func) && decide (l.line = f.line)))
    (s.setCore core { k with fetches := rest, icache := il :: old }).wakeFetch core f.func f.line

/-- FETCH_LINE_ARRIVAL: a line of local or host memory comes; a request to a peer that has found no slot is sent. -/
def execFetchLineArrival (core i : Nat) (s : State) : Host.Outcome State Fault Refusal :=
  .next (match (s.core core).fetches[i]? with
    | some f =>
      (match f.tgt with
       | .fab v ma => if f.sent then s else
         (match s.request core f.func v 1 (ma / 128 * 128) [] (.fetch f.func f.line) with
          | some s =>
            let k := s.core core
            s.setCore core { k with fetches := updAt (fun x => { x with sent := true }) k.fetches i }
          | none => s)
       | .loc _ | .host _ | .notify .. =>
         let s := s.answerLoads core [homeSlice f.tgt]
         s.lineCame core f (s.homeBytes f.tgt 64))
    | none => s)

/-! ### The choice of a pipe (08 R148, R149, R151, 12 R208) -/

/-- The runnable lanes of a group (R148). -/
def Group.runnable (g : Group) : List Nat :=
  (List.range 32).filter (fun l => g.live.getLsbD l && !g.halted.getLsbD l && decide ((g.lane l).wait = .none))

/-- The group waits for the host's answer to its pages as a whole (19 R342). -/
def Group.paged (g : Group) : Bool := g.lanes.any (fun x => match x.wait with
  | .pri _ => true
  | .acq .. | .bar .. | .chan .. | .none | .k _ | .tags .. | .launch .. | .cjoin | .sleep _ | .fetch _ | .moving _ 
  | .walk _ | .woken | .satisfied .. => false)

/-- The next cohort (R149), the lanes that yielded placed last (R151). -/
def Group.cohort (g : Group) : BitVec 32 :=
  if g.paged then 0 else
  let all := g.runnable
  let others := all.filter (fun l => !g.yielded.getLsbD l)
  let run := if others = [] then all else others
  let late := run.filter (fun l => decide (16 ≤ (g.lane l).skip))
  let k := match argMax (fun l => - ((g.lane l).skipAt : Int)) late with | some l => some l | none => run.head?
  match k with
  | none => 0
  | some k =>
    let x := g.lane k
    maskOf (run.filter (fun l =>
      let y := g.lane l
      decide (y.pc = x.pc) && decide (y.sup = x.sup) && decide (y.nest = x.nest)))

/-- The cohort's line and its slot, where the core holds the line and the lanes may enter it. -/
def State.peekLine (s : State) (t : Team) (g : Group) (m : BitVec 32) : Option (ILine × Nat) :=
  match lanesOf m with
  | [] => none
  | l :: _ =>
    let x := g.lane l
    let pc := x.pc.toNat
    let inLine := (lanesOf m).all (fun j => decide ((g.lane j).fline = x.fline))
    match (if inLine then x.fline else none) with
    | some fl => ((s.core t.core).iline t.func fl).map (fun il => (il, pc % 8))
    | none => match fetchXl s t x.sup (pc / 64 * 64) with
      | .ok tr => ((s.core t.core).iline t.func (tr.fpa / 64)).map (fun il => (il, pc % 8))
      | .page1 | .access1 | .page2 _ | .access2 | .moving _ | .miss | .unbacked _ => none

/-- The header of a slot's word. -/
def slotHdr (bytes : List Byte) (slot : Nat) : Option Hdr :=
  match decode (slotWord bytes slot) with
  | .ok i => i.info.map (fun f => f.h)
  | .error _ => none

/-- What the choice of a pipe finds in a group: no cohort whose instruction may issue, a cohort whose instruction is to be fetched
first, or a ready cohort with its place. -/
inductive GroupPick where
  | idle
  | fetch (m : BitVec 32)
  | ready (m : BitVec 32) (pos : PairPos)

/-- A lane waits at an instruction that it has not issued yet. -/
def Wait.before (w : Wait) : Bool :=
  match w with
  | .fetch _ | .walk _ | .pri _ | .moving _ => true
  | .acq .. | .bar .. | .chan .. | .none | .k _ | .tags .. | .launch .. | .cjoin | .sleep _ | .woken | .satisfied .. => false

/-- The lanes of a pair whose upper slot may go on (02 R34). -/
def Group.pairLanes (g : Group) : BitVec 32 :=
  let m := g.upper &&& g.live &&& ~~~g.halted
  if g.paged || (lanesOf m).any (fun l => (g.lane l).wait.before) then 0 else m

/-- The cohort of a ready group with its place (12 R208): the upper slot of a pair in progress first. A line that fails CHECK, and one
whose instruction is undefined, waits for no scoreboard of its own words: FETCH and ILLEGAL come first (01 R24), and the trap waits for
what is outstanding (02 R39). -/
def State.readyCohort (s : State) (gk : Nat) : GroupPick :=
  match s.team? (gk / 32) with
  | none => .idle
  | some t =>
    let g := s.group gk
    if g.ra.any (fun r => r.stop.isSome) then .idle else
    if g.pairLanes ≠ 0 then .ready g.pairLanes .upper else
    let m := g.cohort
    if m = 0 ∨ s.cycle t.core < g.nextIssue then .idle else
    match s.peekLine t g m with
    | none => .fetch m
    | some (il, slot) =>
      let bytes := il.bytes
      let go := g.ra.isSome || !g.unsettled m
      if il.bad || lineReserved bytes then (if go then .ready m .single else .idle) else
      let ready := match posOf bytes slot, slotHdr bytes slot, slotHdr bytes (slot + 1) with
        | .lower, some lo, some up => g.pairReady (s.cycle t.core) lo up
        | _, some h, _ => g.ready (s.cycle t.core) h .single
        | _, none, _ => go
      if ready then .ready m (posOf bytes slot) else .idle

/-- The groups of a pipe of the live plane, oldest first: by placement, then cluster rank, then %gid. -/
def State.pipeKeys (s : State) (core pipe : Nat) : List Nat :=
  let live := (s.core core).live
  let ks := s.groups.filterMap (fun (e : Nat × Group) => match s.team? (e.1 / 32) with
    | some t =>
      if t.core = core ∧ t.plane = live ∧ e.1 % 4 = pipe ∧ !(s.func t.func).frozen ∧ !s.savingTeam t ∧ e.2.live ≠ 0 then
        some (e.1, (t.order * 64 + t.rank) * 32 + e.1 % 32)
      else none
    | none => none)
  (sortBy (fun (x : Nat × Nat) => x.2) ks).map (·.1)

/-- The ready groups of a pipe, oldest first. -/
def State.pipeGroups (s : State) (core pipe : Nat) : List (Nat × BitVec 32 × PairPos) :=
  (s.pipeKeys core pipe).filterMap (fun gk => match s.readyCohort gk with
    | .ready m pos => some (gk, m, pos)
    | .idle | .fetch _ => none)

/-- The oldest group of a pipe whose next instruction is to be fetched. -/
def State.pipeFetch (s : State) (core pipe : Nat) : Option (Nat × BitVec 32) :=
  (s.pipeKeys core pipe).findSome? (fun gk => match s.readyCohort gk with
    | .fetch m => some (gk, m)
    | .idle | .ready .. => none)

/-- The first issue of an instruction of a function that has migrated here (23 R402, R403): BLACKOUT is the time since the decision cycle, the
function's clock goes on from the manifest's, and the block is RESUMED. -/
def State.firstIssue (s : State) (gk : Nat) : State :=
  match (s.team? (gk / 32)).bind (fun t => s.migs.find? (fun (e : Nat × Mig) => decide (e.2.func = t.func) && decide (e.2.st = 8) && decide (e.2.phase = 2))) with
  | none => s
  | some (m, x) =>
    let cycles := 4 * (Config.blackout s.freeCtr).toNat + (s.clock - x.since)
    let f := s.func x.func
    let s := (s.setFunc x.func { f with clockOff := ((ofLE (((x.manifest.getD []).drop 16).take 8) + cycles : Nat) : Int) - s.clock }).useFree
    { s with migs := tput {} s.migs m { x.quiet with st := 9, blackout := cycles / 4 } }.post 0 0xFF 0x50 [(16, 1, m), (17, 1, 9)]

/-- One pipe chooses (R208). A group whose line is not at hand fetches it first, which is no choice of the pipe: its lanes become
fetch-pending (08 R150). A cohort chosen before issues first. -/
def execPipeGroupChoice (core pipe : Nat) (s : State) : Host.Outcome State Fault Refusal :=
  if s.cur.isSome then .next s else
  match s.pipeFetch core pipe with
  | some (gk, m) => .next { s with cur := some ⟨gk, m, .single⟩ }
  | none =>
  let rs : List (Nat × BitVec 32 × PairPos) := s.pipeGroups core pipe
  let skipped := rs.find? (fun (r : Nat × BitVec 32 × PairPos) => decide (64 ≤ (s.group r.1).pskip))
  let ylder := tfind (s.core core).yld pipe
  let pick := match skipped with
    | some r => some r
    | none => match rs.find? (fun (r : Nat × BitVec 32 × PairPos) => decide (some r.1 ≠ ylder)) with
      | some r => some r
      | none => rs.head?
  .next (match pick with
    | none => s
    | some r =>
      let s := rs.foldl (fun s x =>
        let g := s.group x.1
        s.setGroup x.1 { g with pskip := if x.1 = r.1 then 0 else g.pskip + 1 }) s
      { s with cur := some ⟨r.1, r.2.1, r.2.2⟩ }.firstIssue r.1)

/-! ### Waits that end by themselves -/

/-- KDEAD (R161): every live lane is parked in KWAIT and no condition can hold; a halted group is not checked (19 R349). -/
def Group.kdead (g : Group) : Bool :=
  let on (l : Nat) : Option Nat := match (g.lane l).wait with
    | .k k => some k
    | .acq .. | .bar .. | .chan .. | .none | .tags .. | .launch .. | .cjoin | .sleep _ | .fetch _ | .pri _ | .moving _ 
    | .walk _ | .woken | .satisfied .. => none
  decide (g.live ≠ 0) && decide (g.halted = 0) && (lanesOf g.live).all (fun l => match on l with | some k => !g.kHolds k | none => false)

/-- KDEAD may be raised: its function is not frozen (19 R353), and what the lanes have outstanding has landed (02 R39). -/
def State.kdeadDue (s : State) (gk : Nat) : Bool :=
  let g := s.group gk
  g.kdead && !g.unsettled g.live && (s.team? (gk / 32)).any (fun t => !(s.func t.func).frozen)

/-- KDEAD_DETECT (R161): every parked lane takes KDEAD at its own KWAIT. -/
def execKdeadDetect (gk : Nat) (s : State) : Host.Outcome State Fault Refusal :=
  let g := s.group gk
  .next (if s.kdeadDue gk then
      let free := g.modLanes g.live (fun _ x => { x with wait := .none })
      (s.setGroup gk { free with upper := 0 }).deliver gk g.live 0x0A 0
    else s)

/-- SLEEP_EXPIRY: the lane wakes, and with it the lanes of its group whose sleep ends at the same clock. -/
def execSleepExpiry (gk lane : Nat) (s : State) : Host.Outcome State Fault Refusal :=
  let g := s.group gk
  .next (match (g.lane lane).wait with
    | .sleep till => if s.cycleOf gk < till then s else
      ((lanesOf g.live).filter (fun l => decide ((g.lane l).wait = .sleep till))).foldl (fun s l => s.wakeLane gk l []) s
    | .acq .. | .bar .. | .chan .. | .none | .k _ | .tags .. | .launch .. | .cjoin | .fetch _ | .pri _ | .moving _ 
    | .walk _ | .woken | .satisfied .. => s)

/-! ### Epochs and lines (14 R244, R245, R247, R262) -/

/-- Slot e mod 3 cleared, with epoch e. -/
def ringTurn (e : Nat) (r : List RSlot) : List RSlot := updAt (fun _ => { epoch := e % 2 ^ 32 }) r (slotOf e)

/-- The epoch advances when 4096 cycles of the reference clock have passed, and at no other time (R244). What the homes have performed for a
core is acknowledged by then (R241). -/
def State.epochTurn (s : State) : State :=
  if s.clock / 4096 ≤ s.epoch then s else
  let e := s.epoch + 1
  let s := { s with epoch := e, planes := s.planes.map (fun (p : Nat × Plane) => (p.1, { p.2 with ring := ringTurn e p.2.ring })) }
  (s.mapCards (fun c => { c with sig := ringTurn e c.sig })).ackAll

/-- EPOCH_ADVANCE, which every step makes in the cycle in which it is due. -/
def execEpochAdvance (s : State) : Host.Outcome State Fault Refusal := .next s.epochTurn

def execL1LineExpiry (core i : Nat) (s : State) : Host.Outcome State Fault Refusal :=
  let k := s.core core
  .next (match k.l1[i]? with
    | some l => if l.live s.epoch then s else s.setCore core { k with l1 := delAt k.l1 i }
    | none => s)

/-! ### The write-through buffer (13 R228, 14 R238, R246, R249) -/

/-- Entry `i` with the entries of its slice before it. -/
def Core.entryAt (k : Core) (i : Nat) : Option (WtbE × List WtbE) :=
  (k.wtb[i]?).map (fun e => (e, (k.wtb.take i).filter (fun x => sameSlice x.tgt e)))

/-- An entry leaves for its home behind the earlier entries of its slice. -/
def execWtbDrain (core i : Nat) (s : State) : Host.Outcome State Fault Refusal :=
  let k := s.core core
  .next (match k.entryAt i with
    | some (e, before) =>
      if e.st = .buffered ∧ before.all (fun x => decide (x.st ≠ .buffered)) = true then
        s.setCore core { k with wtb := updAt (fun x => { x with st := .sent }) k.wtb i }
      else s
    | none => s)

/-- The home performs an entry behind the earlier ones of its slice; a line that the host holds is asked for (29 R466). -/
def execHomeAccess (core i : Nat) (s : State) : Host.Outcome State Fault Refusal :=
  let k := s.core core
  .next (match k.entryAt i with
    | some (e, before) =>
      if e.st = .sent ∧ before.all (fun x => decide (x.st = .performed)) = true then
        if s.snooped e.tgt then s.biSend e.tgt
        else ((s.setCore core { k with
          served := k.served + 1, wtb := updAt (fun x => { x with st := .performed, seq := k.served }) k.wtb i }).performEntry e).wakeMem
      else s
    | none => s)

/-- The acknowledgement of an entry may reach the core: earlier entries of its slice have left, and so have the loads that the slice has
served before it (14 R246). -/
def Core.ackDue (k : Core) (e : WtbE) (before : List WtbE) : Bool :=
  decide (e.st = .performed) && decide (before = []) && !k.loads.any (fun d => decide (d.seq < e.seq) && d.slices.contains (homeSlice e.tgt))

/-- The acknowledgement of an entry reaches the core: it leaves the buffer, and its line enters the ring. -/
def execStoreAck (core i : Nat) (s : State) : Host.Outcome State Fault Refusal :=
  let k := s.core core
  .next (match k.entryAt i with
    | some (e, before) =>
      if k.ackDue e before then (s.setCore core { k with wtb := delAt k.wtb i }).ackEntry e else s
    | none => s)

/-- A load's responses may come: every response that its home slices have served before has come (14 R246). -/
def Core.loadDue (k : Core) (i : Nat) : Bool :=
  match k.loads[i]? with
  | none => false
  | some d => !(k.loads.take i).any (fun x => x.slices.any (fun y => d.slices.contains y)) &&
      !k.wtb.any (fun e => decide (e.st = .performed) && decide (e.seq < d.seq) && d.slices.contains (homeSlice e.tgt))

/-- LOAD_FILL: the responses of a load come, behind those that its home slices have served before. -/
def execLoadFill (core i : Nat) (s : State) : Host.Outcome State Fault Refusal :=
  .next (if (s.core core).loadDue i then s.fillLoad core i else s)

/-! ### Walks (20 R359, R360) -/

/-- The functions with a queued walk that hold fewer walkers of a die than WRSV, or than WMAX, with their weights. -/
def State.walkFuncs (s : State) (die : Nat) (reserved : Bool) : List (Nat × Nat) :=
  let d := s.die die
  let held (f : Nat) : Nat := (d.walking.filter (fun r => decide (r.func = f))).length
  ((d.walkq.map (fun r => r.func)).eraseDups.filter (fun f =>
    decide (held f < (if reserved then tget 0 (s.func f).wrsv die else tget 64 (s.func f).wmax die)))).map (fun f => (f, max 1 (s.weight f)))

/-- What a walk puts into the cache of its agent. -/
inductive WalkOut where
  | found (s1 s2 : List TlbE)
  | fail (s1 : List TlbE) (f : WalkFail)
  | unbacked (ma : Nat)

/-- The walk of a page for an agent, of stage 1 alone when `one`, and the walkers' cache after it: a stage-1 translation that the agent
holds is used (R356); the walkers' own stage-2 translations serve the table reads. -/
def State.walkOf (s : State) (d : Die) (func page : Nat) (one : Bool) (agent : Option Nat) : WalkOut × Tlb :=
  let f := s.func func
  let own := match agent with | some c => (s.core c).tlb | none => d.tlb
  let second (s1 : List TlbE) (fpa : Nat) : WalkOut :=
    if one then .found s1 [] else
    match stage2 own s.mem f.s2root func fpa with
    | (.unbacked ma, _) => .unbacked ma
    | (.fail x, _) => .fail s1 x
    | (.leaf _, s2) => .found s1 s2
  let va := if page < 2 ^ 38 then page * 65536 else page * 65536 + (2 ^ 64 - 2 ^ 55)
  match tlbFind own.s1 func page with
  | some e => (second [] (leaf1Fpa e va), d.tlb)
  | none =>
  match walk1 d.tlb s.mem f.s2root func f.s1root.toNat va with
  | (.unbacked ma, t) => (.unbacked ma, t)
  | (.fail x, t) => (.fail [] x, t)
  | (.leaf e, t) =>
    let w := tlbEntry func page (bits e 12 9) e
    (second [w] (leaf1Fpa w va), t)

/-- Entries enter a cache in front. -/
def Tlb.add (t : Tlb) (s1 s2 : List TlbE) : Tlb :=
  { s1 := s1.filter (fun e => !t.s1.contains e) ++ t.s1, s2 := s2.filter (fun e => !t.s2.contains e) ++ t.s2 }

/-- A lane that waited for the walk of its fetch line's page: where the line translates now and the core does not hold it, it stays
fetch-pending and the line is asked for (08 R150); otherwise it goes on. -/
def State.walkedLane (s : State) (t : Team) (page gk l : Nat) : State :=
  let x := (s.group gk).lane l
  let lineVa := x.resume.toNat / 64 * 64
  let put (s : State) (f : Lane → Lane) : State :=
    s.setGroup gk ((s.group gk).withCkpt (fun g => g.modLane l (fun x => if x.wait = .walk page then f x else x)))
  match (if bits lineVa 54 16 = page then fetchXl s t x.sup lineVa else .miss) with
  | .ok tr =>
    if ((s.core t.core).iline t.func (tr.fpa / 64)).isSome then put s Lane.goOn
    else put (s.askLine t.core t.func (tr.fpa / 64) tr.tgt) (fun x => { x with wait := .fetch (tr.fpa / 64) })
  | .page1 | .access1 | .page2 _ | .access2 | .moving _ | .miss | .unbacked _ => put s Lane.goOn

/-- The lanes of a function on a core that waited for the walk of a page. -/
def State.walkedLanes (s : State) (core func page : Nat) : State :=
  s.groups.foldl (fun s (e : Nat × Group) => match s.team? (e.1 / 32) with
    | some t => if t.func = func ∧ t.core = core then
        (List.range 32).foldl (fun s l => if ((s.group e.1).lane l).wait = .walk page then s.walkedLane t page e.1 l else s) s
      else s
    | none => s) s

/-- The outcome of a walk reaches an agent. -/
def State.walked (s : State) (die func page : Nat) (agent : Option Nat) (s1 s2 : List TlbE) (x : Option WalkFail) : State :=
  let fails (l : List NoLeaf) : List NoLeaf := l.filter (fun w => !(decide (w.func = func) && decide (w.page = page))) ++
    (match x with | some f => [⟨func, page, f⟩] | none => [])
  match agent with
  | some c =>
    let k := s.core c
    (s.setCore c { k with tlb := k.tlb.add s1 s2, wfail := fails k.wfail }).walkedLanes c func page
  | none =>
    let d := s.die die
    s.setDie die { d with tlb := d.tlb.add s1 s2, wfail := fails d.wfail }

/-- A walk ends for its agents. -/
def State.walkEnd (s : State) (die func page : Nat) (one : Bool) (agents : List (Option Nat)) : Host.Outcome State Fault Refusal :=
  let outs := agents.map (fun a => (a, s.walkOf (s.die die) func page one a))
  match outs.findSome? (fun (o : Option Nat × WalkOut × Tlb) => match o.2.1 with
      | .unbacked ma => some ma
      | .found .. | .fail .. => none) with
  | some ma => .fault (.unbacked ma)
  | none => .next (outs.foldl (fun (s : State) (o : Option Nat × WalkOut × Tlb) =>
      let d := s.die die
      let s := s.setDie die { d with tlb := o.2.2.s2.reverse.foldl Tlb.with2 d.tlb }
      match o.2.1 with
      | .found s1 s2 => s.walked die func page o.1 s1 s2 none
      | .fail s1 x => s.walked die func page o.1 s1 [] (some x)
      | .unbacked _ => s) s)

/-- Walkers of a die that are reserved to functions which do not hold them (R360). -/
def State.walkRest (s : State) (die : Nat) : Nat :=
  let d := s.die die
  (List.range 128).foldl (fun n f => n + (tget 0 (s.func f).wrsv die - (d.walking.filter (fun r => decide (r.func = f))).length)) 0

/-- A free walker of the 64 takes the head of a queue (R360): the second choice leaves those free that are reserved to others, so that no walk
waits for a walker that another function holds beyond its WRSV. -/
def State.walkTake (s : State) (die : Nat) : Option State :=
  let d := s.die die
  if 64 ≤ d.walking.length then none else
  let pick := match smoothPick d.walkCur1 id (s.walkFuncs die true) with
    | some (f, c) => some (f, { d with walkCur1 := c })
    | none => if 64 ≤ d.walking.length + s.walkRest die then none
      else (smoothPick d.walkCur2 id (s.walkFuncs die false)).map (fun (f, c) => (f, { d with walkCur2 := c }))
  match pick with
  | none => none
  | some (f, d) => (findIdx (fun r => decide (r.func = f)) d.walkq).map (fun (i, r) =>
      s.setDie die { d with walkq := delAt d.walkq i, walking := d.walking ++ [r] })

/-- PAGE_WALK: a free walker takes a queued walk; where none can, the oldest walk under way is made and ends. -/
def execPageWalk (die : Nat) (s : State) : Host.Outcome State Fault Refusal :=
  match s.walkTake die with
  | some s => .next s
  | none =>
    let d := s.die die
    match d.walking with
    | [] => .next s
    | r :: rest => (s.setDie die { d with walking := rest }).walkEnd die r.func r.page r.one r.agents

/-! ### Stage-2 pages and the host (19 R342, 20 R361, R362) -/

/-- The runnable lanes of a group wait for pages. -/
def Group.parkAll (g : Group) (w : Wait) : Group :=
  g.modLanes g.live (fun _ x => if x.wait = .none then { x with wait := w, resume := x.pc } else x)

/-- A fault record of the group's function on its way to a peer is not counted yet (19 R336). -/
def State.recordOut (s : State) (gk tok : Nat) : Bool :=
  (s.team? (gk / 32)).any (fun t => (s.func t.func).fqOut.any (fun e => decide (e.1 = tok)))

/-- The batch of a run-ahead that has stopped may be delivered, for the handler or for firmware, once what its lanes have outstanding has
landed (02 R39), and once its record is counted (19 R342). -/
def State.batchDue (s : State) (gk : Nat) : Bool :=
  let g := s.group gk
  match g.ra with
  | some r => r.stop.isSome && !g.restore.unsettled r.mask && r.sent.all (fun t => !s.recordOut gk t)
  | none => false

/-- Run-ahead has stopped: its record is written, and once that is counted the group is restored and its batch delivered (R342). -/
def execRunAheadStop (gk : Nat) (s : State) : Host.Outcome State Fault Refusal :=
  let g := s.group gk
  .next (match g.ra, s.team? (gk / 32) with
    | some r, some t =>
      if !s.batchDue gk then s else
      let stop := r.stop.getD 5
      let rec' := (s.setGroup gk g.restore).fqWrite t.func 1 r.s1pages.length stop r.ran (whereOf t.core (gk % 32)) r.fpc.toNat
        r.fva.toNat 0 r.s1pages
      let put := decide (r.s1pages ≠ []) && r.sent.isNone
      match (if put then rec'.waits else none) with
      | some w => w.setGroup gk g
      | none =>
      let s' : State := if !put then s else
        (match rec' with
         | .written s | .violation s | .wait s => s
         | .full => s.fqDrop t.func)
      if put && s'.recordOut gk s.nextTok then s'.setGroup gk { g with ra := some { r with sent := some s.nextTok } } else
      let s := s'.setGroup gk g.restore
      if (s.func t.func).frozen then s else
      let (s, sent, moving) := s.pagesToHost t.func (r.s2pages.map (fun p => p.page))
      let s := if r.page1 then
          let s := s.deliver gk r.mask 5 r.fva
          s.setGroup gk ((s.group gk).chosen s.clock r.mask)
        else s
      if sent ≠ [] then s.setGroup gk ((s.group gk).parkAll (.pri sent))
      else match moving with
        | m :: _ => s.setGroup gk ((s.group gk).parkAll (.moving m))
        | [] => s
    | _, _ => s)

/-- Lanes that wait for a move of a page in a range walk again (R361). -/
def State.wakeMoving (s : State) (func lo hi : Nat) : State :=
  s.mapLanes (fun t => decide (t.func = func)) (fun x => match x.wait with
    | .moving f => if lo ≤ f ∧ f < hi then x.goOn else x
    | .acq .. | .bar .. | .chan .. | .none | .k _ | .tags .. | .launch .. | .cjoin | .sleep _ | .fetch _ | .pri _ 
    | .walk _ | .woken | .satisfied .. => x)

/-- Pages whose stage-2 leaf lies in a line that the host has given back are tried again (29 R466). -/
def State.leafBack (s : State) (line : Nat) : State :=
  s.funcs.foldl (fun s (e : Nat × Func) => (s.mapLanes (fun t => decide (t.func = e.1)) (fun x => match x.wait with
    | .moving f => if (s.leaf2Addr e.1 f).any (fun a => decide (a / 512 = line)) then x.goOn else x
    | .acq .. | .bar .. | .chan .. | .none | .k _ | .tags .. | .launch .. | .cjoin | .sleep _ | .fetch _ | .pri _ 
    | .walk _ | .woken | .satisfied .. => x)).retryBreaks e.1) s

/-- S2INV of a range (R359); children that wait for a page of their spill area are offered again, and sync objects that wait for a page
become BROKEN. -/
def State.s2inv (s : State) (func lo hi : Nat) : State := (((s.dropS2 func lo hi).wakeMoving func lo hi).retryBreaks func).wakeLaunch

/-- Groups of pages that wait leave in order, as far as the allocation has room for each whole group (R361). -/
def priFill (pasid room : Nat) : List PriReq → List (List Nat) → List PriReq × List (List Nat)
  | pri, [] => (pri, [])
  | pri, g :: r => if pri.length + g.length ≤ room then priFill pasid room (pri ++ priGroup pasid g) r else (pri, g :: r)

/-- A response has come for a page: groups that wait for it, and pages that wait for room. -/
def State.priDone (s : State) (func page : Nat) : State :=
  let f := s.func func
  let (pri, wait) := priFill f.pasid f.priMax (f.pri.filter (fun p => decide (p.page ≠ page))) f.priWait
  let f := { f with pri := pri, priWait := wait }
  let s := (s.setFunc func f).mapLanes (fun t => decide (t.func = func)) (fun x => match x.wait with
    | .pri l => (match l.filter (fun p => p ≠ page) with
      | [] => x.goOn
      | l => { x with wait := .pri l })
    | .acq .. | .bar .. | .chan .. | .none | .k _ | .tags .. | .launch .. | .cjoin | .sleep _ | .fetch _ | .moving _ 
    | .walk _ | .woken | .satisfied .. => x)
  { s with
    grids := s.grids.map (fun (e : Nat × Grid) =>
      if e.2.func = func ∧ e.2.waitPri = some page then (e.1, { e.2 with waitPri := none }) else e) }

/-- Firmware ends its move of a page: MOVE becomes 0 (R362). -/
def State.moveEnd (s : State) (func fpa : Nat) : State :=
  match s.leaf2Addr func fpa with
  | none => s
  | some a =>
    let e := readLE s.mem a 8
    if bits e 9 8 = 1 then s.homeWrite (.loc a) (leBytes (e - 256) 8) else s

/-- The host answers a page request: Success releases what waits for it, anything else is a violation (R342, R353). -/
def execPriResponse (func fpa : Nat) (ok : Bool) (s : State) : Host.Outcome State Fault Refusal :=
  let page := fpa / 65536 * 65536
  .next (if !(s.func func).pri.any (fun r => decide (r.page = page)) then s
    else if ok && (s.leaf2Addr func page).any (fun a => s.snooped (.loc a)) then
      { (s.leaf2Addr func page).toList.foldl (fun s a => s.biSend (.loc a)) s with afterBi := s.afterBi ++ [.priResponse func fpa ok] }
    else if ok then ((s.moveEnd func page).s2inv func page (page + 65536)).priDone func page
    else (s.priDone func page).freeze func 4 page 0 0)

end Sys2Proof.Machine
end

