-- ==== Sys2Proof/Machine/Place.lean ====
section
/-!
DEFINITION. From a queue to a plane and back: acceptance of launches (08 R140, 22 R379), dispatch (12 R198 to R207, 08 R136,
R137), the end of teams and grids (08 R142, R143), spilled children (17 R307) and blocked units (17 R311).
-/
namespace Sys2Proof.Machine

/-! ### Planes and fit (08 R136, 12 R204) -/

/-- Units of one team or cluster. -/
def Rec.cluster (r : Rec) : Nat := r.w * r.h
def Rec.teams (r : Rec) : Nat := r.ntx * r.nty * r.ntz

/-- The records of the teams of a plane. -/
def State.planeRecs (s : State) (p : Plane) : List Rec := p.teams.filterMap (fun t => (s.team? t).map (fun t => t.lrec))

def sumBy {α : Type} (f : α → Nat) (l : List α) : Nat := l.foldl (fun n x => n + f x) 0

/-- The sums of R136 with the one array owner of R169. -/
def recsFit (l : List Rec) : Bool :=
  decide (sumBy (fun r => r.gpt) l ≤ 48) && decide (sumBy (fun r => r.gpt * 32 * r.regs * 4) l ≤ 262144) &&
  decide (sumBy (fun r => r.spad) l ≤ 256) && decide (sumBy (fun r => r.qb) l ≤ 4) && decide (sumBy (fun r => r.tags) l ≤ 64) &&
  decide ((l.filter (fun r => decide (r.qb ≠ 0))).length ≤ 1)

/-- The tags that the teams of a plane hold. -/
def State.tagsHeld (s : State) (p : Plane) : List Nat :=
  p.teams.flatMap (fun t => match s.team? t with
    | some t => (List.range t.lrec.tags).map (· + t.tagBase)
    | none => [])

/-- The lowest run of `n` free tags (17 R302). -/
def freeRun (held : List Nat) (n : Nat) : Option Nat :=
  (List.range 65).find? (fun b => decide (b + n ≤ 64) && (List.range n).all (fun i => !held.contains (b + i)))

/-- A core holds checkpoints of run-ahead in a plane (19 R339). -/
def State.holdsCkpt (s : State) (core p : Nat) : Bool :=
  s.groups.any (fun (e : Nat × Group) => match e.2.ra, s.team? (e.1 / 32) with
    | some r, some t => decide (t.core = core) && decide (r.plane = p) && decide (r.stop ≠ some 5)
    | _, _ => false)

/-- A saved image is about to be restored on a plane. -/
def State.promised (s : State) (core p : Nat) : Bool := s.saved.any (fun x => decide (x.place = some (core, p)))

/-- The planes of a core that a function holds, or is about to. -/
def State.planesHeld (s : State) (func core : Nat) : Nat :=
  ((List.range 3).filter (fun p => let x := s.plane (3 * core + p); decide (x.func = some func) && decide (x.teams ≠ []))).length +
  (s.saved.filter (fun x => decide (x.func = func) && (x.place.map (·.1) == some core))).length

/-- A plane may be taken: it holds no checkpoint, and no image leaves or is about to enter it. -/
def State.planeFree (s : State) (core p : Nat) : Bool :=
  !s.holdsCkpt core p && !s.saving.any (fun j => decide (j.plane = 3 * core + p)) && !s.promised core p

/-- A plane of a core takes teams of a function (R204, R136, R169). -/
def State.planeTakes (s : State) (func share core : Nat) (r : Rec) (p : Nat) : Bool :=
  let x := s.plane (3 * core + p)
  if !s.planeFree core p then false
  else if x.teams = [] then decide (s.planesHeld func core + 1 ≤ share) && recsFit [r]
  else decide (x.func = some func) && recsFit (s.planeRecs x ++ [r]) && (freeRun (s.tagsHeld x) r.tags).isSome

/-- The partition that a core serves: its borrower, or its owner (22 R377). -/
def Core.serves (c : Core) : Option Nat := match c.lentTo with | some b => some b | none => c.part

/-- The lowest fitting plane of a core. -/
def State.fitPlane (s : State) (part func : Nat) (bind : Nat) (r : Rec) (core : Nat) : Option Nat :=
  if bindCore bind core ∧ (s.core core).serves = some part then
    (List.range 3).find? (s.planeTakes func (bindShare bind) core r)
  else none

/-- The effective priorities of the grids of a plane's teams; `none` for an empty plane (R206). -/
def State.planePri (s : State) (p : Plane) : Option Nat :=
  match p.teams with
  | [] => none
  | l => some (l.foldl (fun m t => match s.team? t with
      | some t => (match s.grid? t.grid with | some g => max m g.eff | none => m)
      | none => m) 0)

/-- The live plane of a core is empty or has a priority below 23 (R204). -/
def State.yieldsTo23 (s : State) (core : Nat) : Bool :=
  match s.planePri (s.plane (3 * core + (s.core core).live)) with
  | none => true
  | some p => decide (p < 23)

/-- The lane-private slots that a function's teams hold, saved ones included (13 R212). -/
def State.lpHeld (s : State) (func : Nat) : List Nat :=
  (s.teams.filterMap (fun (e : Nat × Team) => if e.2.func = func then e.2.lpslot else none)) ++
  s.saved.flatMap (fun x => if x.func = func then x.lps else [])

/-- The lowest `n` free slots; none are needed when LPTEAMS is 0. -/
def State.lpFree (s : State) (func n : Nat) : Option (List (Option Nat)) :=
  let f := s.func func
  if f.lpteams = 0 then some (List.replicate n none)
  else
    let free := (List.range (min f.lpteams ((s.lpHeld func).length + n))).filter (fun j => !(s.lpHeld func).contains j)
    if free.length < n then none else some ((free.take n).map some)

/-! ### Units (R202) -/

/-- A unit of dispatch: the next cluster of a grid, or a saved unit that comes back (17 R311, 21 R363). -/
inductive DUnit where
  | grid (g : Nat)
  | saved (l : List Saved)
  deriving DecidableEq, Repr

/-- A parked wait of a saved unit is satisfied (R311): an entry or a spill slot is free for LAUNCH.wait, or the count is 0 for CJOIN. -/
def State.waitOver (s : State) (x : Saved) : Bool :=
  x.waits.any (fun w =>
    (w.2.2 && x.kids.any (fun (k : Nat × Nat) => decide (k.1 = w.1) && decide (k.2 = 0))) ||
    (w.2.1 && x.kids.all (fun (k : Nat × Nat) => decide (k.1 ≠ w.1) || decide (k.2 < 2 ^ 32 - 1)) &&
      (match (s.func x.func).part, (x.teams.find? (fun (t : Nat × Nat) => decide (t.1 = w.1))).bind (fun t => s.grid? t.2) with
       | some p, some g => (decide (g.spillHead = g.spillTail) && decide ((s.prt p).pool.length < 4096)) || g.spillRoom
       | _, _ => false)))

/-- A saved unit may be placed: its images are written and none is on its way back, and for a blocked one a wait is satisfied. -/
def State.savedReady (s : State) (l : List Saved) : Bool :=
  l.all (fun x => decide (x.place = none) && !s.saving.any (fun j => decide (j.batch = x.batch))) &&
  (l.all (fun x => !x.blocked) || l.any s.waitOver)

/-- The pending grids of a function at a level, in order of acceptance. -/
def State.pending (s : State) (func level : Nat) : List (Nat × Grid) :=
  sortBy (fun (e : Nat × Grid) => e.2.order) (s.grids.filter (fun (e : Nat × Grid) =>
    decide (e.2.func = func) && decide (e.2.eff = level) && !e.2.abandoned && decide (e.2.placed < e.2.lrec.teams)))

/-- The head unit of a function at a level: saved units come first. -/
def State.headUnit (s : State) (func level : Nat) : Option DUnit :=
  if (s.func func).frozen || s.stopping func then none else
  match s.saved.find? (fun x => decide (x.func = func) && decide (x.eff = level) &&
      s.savedReady (s.saved.filter (fun y => y.batch = x.batch))) with
  | some x => some (.saved (s.saved.filter (fun y => y.batch = x.batch)))
  | none => ((s.pending func level).head?).map (fun e => .grid e.1)

/-- A number that names a head unit, for the count of its pass-overs. -/
def State.unitId (s : State) (u : DUnit) : Nat :=
  match u with
  | .grid g => g * 2 ^ 64 + (match s.grid? g with | some x => x.placed | none => 0)
  | .saved l => 2 ^ 200 + (match l with | x :: _ => x.batch | [] => 0)

/-- A unit is still to be placed. -/
def State.unitLives (s : State) (u : Nat) : Bool :=
  if 2 ^ 200 ≤ u then s.saved.any (fun x => decide (x.batch = u - 2 ^ 200) && decide (x.place = none))
  else (s.grid? (u / 2 ^ 64)).any (fun g => decide (g.placed = u % 2 ^ 64) && !g.abandoned)

/-- The cores of a rectangle by rank, from its origin (R137); `none` where it leaves the die. -/
def rectCores (die x0 y0 w h : Nat) : Option (List Nat) :=
  if 16 < x0 + w ∨ 10 < y0 + h then none
  else some ((List.range (w * h)).map (fun r => 160 * die + 16 * (y0 + r / w) + x0 + r % w))

/-- The places of a unit on the cores that `ok` admits: core and plane by rank, or by image. -/
def State.placeUnit (s : State) (part die func bind : Nat) (ok : Nat → Bool) (u : DUnit) : Option (List (Nat × Nat)) :=
  let all (f : Nat → Option Nat) (cs : List Nat) : Option (List (Nat × Nat)) :=
    cs.foldr (fun c r => match r, (if ok c then f c else none) with
      | some l, some p => some ((c, p) :: l)
      | _, _ => none) (some [])
  match u with
  | .grid g =>
    (match s.grid? g with
     | none => none
     | some x =>
       if (s.lpFree func x.lrec.cluster).isNone then none else
       ((List.range 160).findSome? (fun a =>
         (rectCores die (a % 16) (a / 16) x.lrec.w x.lrec.h).bind (all (s.fitPlane part func bind x.lrec)))))
  | .saved l =>
    let first := match l with | x :: _ => x.core % 160 | [] => 0
    let empty (taken : List (Nat × Nat)) (c : Nat) : Option Nat :=
      if ok c && bindCore bind c && decide ((s.core c).serves = some part) then
        (List.range 3).find? (fun p => let x := s.plane (3 * c + p)
          decide (x.teams = []) && s.planeFree c p && !taken.contains (c, p) &&
          decide (s.planesHeld func c + (taken.filter (fun y => decide (y.1 = c))).length + 1 ≤ bindShare bind))
      else none
    let place (cs : List Nat) : Option (List (Nat × Nat)) :=
      cs.foldl (fun r c => r.bind (fun l => (empty l c).map (fun p => l ++ [(c, p)]))) (some [])
    (List.range 160).findSome? (fun a =>
      let cs := l.map (fun x =>
        let dx : Int := (a % 16 : Nat) - (first % 16 : Nat) + (x.core % 16 : Nat)
        let dy : Int := (a / 16 : Nat) - (first / 16 : Nat) + (x.core % 160 / 16 : Nat)
        if 0 ≤ dx ∧ dx < 16 ∧ 0 ≤ dy ∧ dy < 10 then some (160 * die + 16 * dy.toNat + dx.toNat) else none)
      if cs.any Option.isNone then none else place (cs.filterMap id))

/-- The place of a head unit in a partition on a die: at level 23 first where it runs at once (R204), and never where a higher
hold forbids it (R205). -/
def State.fitUnit (s : State) (part die func level : Nat) (u : DUnit) : Option (List (Nat × Nat)) :=
  match (s.prt part).bind func with
  | none => none
  | some b =>
    let held (c : Nat) : Bool := (s.prt part).holds.any (fun (e : Nat × Nat × Nat) => decide (level < e.1) && s.unitLives e.2.2 &&
      (match (s.prt part).bind e.2.1 with
       | some r => bindCore r c
       | none => false))
    let any := s.placeUnit part die func b (fun c => !held c) u
    if level = 23 then
      match s.placeUnit part die func b (fun c => !held c && s.yieldsTo23 c) u with
      | some l => some l
      | none => any
    else any

/-! ### Placement (08 R138, 01 R21) -/

/-- A cleared ring. -/
def freshRing (epoch : Nat) : List RSlot := (List.range 3).map (fun k => { epoch := windowEpoch epoch k })

/-- The state of a starting group. -/
def startGroup (r : Rec) : Group :=
  { lanes := List.replicate 32 { pc := BitVec.ofNat 64 r.entry, xstate := if r.chk then 4 else 0 },
    s := tput 0 (tput 0 [] 0 (BitVec.ofNat 32 (r.args % 2 ^ 32))) 1 (BitVec.ofNat 32 (r.args / 2 ^ 32)),
    live := 0xFFFFFFFF }

/-- The lowest `n` free banks of a plane. -/
def State.freeBanks (s : State) (p : Plane) (n : Nat) : List Nat :=
  let held := p.teams.foldl (fun (m : BitVec 4) t => match s.team? t with | some t => m ||| t.qmask | none => m) 0
  ((List.range 4).filter (fun b => !held.getLsbD b)).take n

/-- One team starts on a plane; for a team of a child the core makes a full invalidation for the function first (18 R330). -/
def State.startTeam (s : State) (gid : Nat) (g : Grid) (idx rank core plane : Nat) (lp : Option Nat) : State :=
  let r := g.lrec
  let tid := s.nextTeam
  let pl := 3 * core + plane
  let p := s.plane pl
  let banks := s.freeBanks p r.qb
  let base := (freeRun (s.tagsHeld p) r.tags).getD 0
  let tags := (List.range r.tags).map (· + base)
  let ring := if p.func = some g.func then p.ring else freshRing s.epoch
  let keep (b : Nat) : Bool := !banks.contains b
  let p := { p with
    func := some g.func, teams := p.teams ++ [tid], cleared := false, ring := ring,
    tagReady := tags.foldl (fun m t => m &&& ~~~(1#64 <<< t)) p.tagReady,
    tagCount := tags.foldl (fun m t => tput 0 m t 0) p.tagCount, tagStatus := tags.foldl (fun m t => tput 0 m t 0) p.tagStatus,
    banks := p.banks.filter (fun (e : Nat × Word) => keep (e.1 / 16384)), bankMarks := p.bankMarks.filter (fun w => keep (w / 16384)),
    liveW := if r.qb = 0 then p.liveW else {}, shadowW := if r.qb = 0 then p.shadowW else {} }
  let t : Team := { func := g.func, grid := gid, idx := idx, rank := rank, core := core, plane := plane, lrec := r,
                    qmask := banks.foldl (fun m b => m ||| (1#4 <<< b)) 0, tagBase := base, lpslot := lp, order := s.nextBatch }
  let s := (s.setPlane pl p).setTeam tid t
  let s := (List.range r.gpt).foldl (fun s i => s.setGroup (32 * tid + i) (startGroup r)) s
  let s := { s with nextTeam := tid + 1 }
  if g.parent.isSome then s.fullInval core g.func pl else s

/-- A cluster of a grid is placed, and its unit leaves the list. -/
def State.placeGrid (s : State) (part gid : Nat) (g : Grid) (at' : List (Nat × Nat)) : State :=
  let lps := (s.lpFree g.func at'.length).getD []
  let s := (at'.zipIdx).foldl (fun s (e : (Nat × Nat) × Nat) =>
    s.startTeam gid g (g.placed + e.2) e.2 e.1.1 e.1.2 ((lps[e.2]?).getD none)) s
  let g := { g with placed := g.placed + at'.length }
  let s := { s.setGrid gid g with nextBatch := s.nextBatch + 1 }
  if g.lrec.teams ≤ g.placed then
    let p := s.prt part
    (s.setPrt part { p with pool := p.pool.filter (fun x => x ≠ gid) }).wakeLaunch
  else s

/-- The hold of a level: a function and its unit, until the unit is placed or gone. -/
def State.holder (s : State) (part level : Nat) : Option (Nat × Nat) :=
  (tfind (s.prt part).holds level).bind (fun h => if s.unitLives h.2 then some h else none)

/-- The head units above the level placed that fit no core of the die are passed over (R205). -/
def State.passOver (s : State) (part die level : Nat) (funcs : List Nat) : State :=
  let heads := ((List.range 24).filter (fun v => decide (level < v))).flatMap (fun v => funcs.filterMap (fun f =>
    match s.headUnit f v, (s.prt part).bind f with
    | some u, some b => if (s.placeUnit part die f b (fun _ => true) u).isNone then some (v, f, s.unitId u) else none
    | _, _ => none))
  let p := s.prt part
  let passed := heads.foldl (fun (m : Table (Nat × Nat)) (e : Nat × Nat × Nat) =>
    let k := 128 * e.1 + e.2.1
    let n := match tfind m k with | some (u, n) => if u = e.2.2 then n else 0 | none => 0
    tset m k (e.2.2, n + 1)) p.passed
  let due := heads.filter (fun e => (match tfind passed (128 * e.1 + e.2.1) with | some (_, n) => decide (1024 ≤ n) | none => false) &&
    (s.holder part e.1).isNone)
  let s := s.setPrt part { p with passed := passed }
  { s with agenda := (due.map (fun e => e.1)).eraseDups.map (Instr.headUnitHold part) ++ s.agenda }

/-- One decision of a die's dispatcher for a partition (R202 to R205). -/
def State.decide' (s : State) (part die : Nat) : Option State :=
  let pt := s.prt part
  let funcs := (List.range 128).filter (fun f => decide ((s.func f).part = some part) && (pt.bind f).isSome)
  (List.range 24).reverse.findSome? (fun level =>
    let c := funcs.filterMap (fun f => (s.headUnit f level).bind (fun u => (s.fitUnit part die f level u).map (fun at' => (f, u, at'))))
    match smoothPick pt.cur (fun f => 128 * level + f) (c.map (fun e => (e.1, s.weight e.1))) with
    | none => none
    | some (f, cur) =>
      (c.find? (fun e => decide (e.1 = f))).map (fun e =>
        let s := s.setPrt part { pt with
          cur := cur, passed := tdel pt.passed (128 * level + f), holds := pt.holds.filter (fun (h : Nat × Nat × Nat) => !(decide (h.1 = level) &&
            decide (h.2 = (f, s.unitId e.2.1)))) }
        let s := match e.2.1 with
          | .grid g => (match s.grid? g with
            | some x => s.placeGrid part g x e.2.2
            | none => s)
          | .saved l =>
            let at' := List.zip l e.2.2
            { s with
              saved := s.saved.map (fun (x : Saved) => match at'.find? (fun (y : Saved × Nat × Nat) => decide (y.1.func = x.func) && decide (y.1.va = x.va)) with
                | some y => { x with place := some y.2 }
                | none => x),
              agenda := at'.map (fun (x : Saved × Nat × Nat) => Instr.contextResume x.1.func x.1.va x.2.1) ++ s.agenda }
        s.passOver part die level funcs))

/-- DISPATCH_DECISION: the dies decide in turn, die 0 first (R202). -/
def execDispatchDecision (part die : Nat) (s : State) : Host.Outcome State Fault Refusal :=
  .next (if (s.prt part).turn ≠ die then s else
    let s := (s.decide' part die).getD s
    s.setPrt part { s.prt part with turn := 1 - die })

/-- The pass-overs of a function's head unit at a level. -/
def State.passCount (s : State) (part level f : Nat) : Nat :=
  match tfind (s.prt part).passed (128 * level + f), s.headUnit f level with
  | some (u, n), some h => if u = s.unitId h then n else 0
  | _, _ => 0

/-- The first head unit to be passed over 1,024 times takes the hold of its level, ties to the lower FUNC (R205): it is the one with the most
pass-overs. -/
def execHeadUnitHold (part level : Nat) (s : State) : Host.Outcome State Fault Refusal :=
  let p := s.prt part
  .next (if (s.holder part level).isSome then s else
    match argMax (fun f => (s.passCount part level f : Int)) ((List.range 128).filter (fun f =>
        decide (1024 ≤ s.passCount part level f) && (p.bind f).isSome)) with
    | some f => (match s.headUnit f level with
      | some u => s.setPrt part { p with holds := tset p.holds level (f, s.unitId u) }
      | none => s)
    | none => s)

/-- The cohort that has been chosen to issue belongs to a plane. -/
def State.curIn (s : State) (pl : Nat) : Bool := match s.cur with
  | some cu => (s.team? (cu.gk / 32)).any (fun t => decide (3 * t.core + t.plane = pl))
  | none => false

/-- A core makes another plane live: the groups of the outgoing plane stop at their next instruction (R207), and their run-ahead ends
without a record (19 R343). -/
def State.makeLive (s : State) (core plane : Nat) : State :=
  let k := s.core core
  let s := if s.curIn (3 * core + k.live) then { s with cur := none } else s
  let s := { s with groups := s.groups.map (fun (e : Nat × Group) =>
                    if (s.team? (e.1 / 32)).any (fun (t : Team) => decide (t.core = core) && decide (t.plane = k.live)) then (e.1, e.2.restore) else e) }
  let gone := match (s.plane (3 * core + k.live)).func with | some f => s.forgetWalks core f | none => s
  gone.setCore core { gone.core core with live := plane }

/-- The upper slot of a pair is still to issue: its issue point is not over (02 R34). -/
def State.midPair (s : State) : Bool := s.cur.any (fun cu => decide (cu.pos = .upper))

/-- A plane streams its image to memory: stores of it to a peer are on their way (21 R363). -/
def State.streams (s : State) (pl : Nat) : Bool := s.saving.any (fun j => decide (j.plane = pl) && j.out.isSome)

/-- The priority with which a plane of a core asks to be live; none for one that is empty, and for one that streams (21 R363). -/
def State.livePri (s : State) (core p : Nat) : Int :=
  if s.streams (3 * core + p) then -1 else
  match s.planePri (s.plane (3 * core + p)) with | some x => (x : Int) | none => -1

/-- A plane of a core that streams is not live (21 R363): another one is. -/
def State.notLive (s : State) (pl : Nat) : State :=
  if (s.core (pl / 3)).live ≠ pl % 3 then s
  else match argMax (s.livePri (pl / 3)) ((List.range 3).filter (fun p => decide (p ≠ pl % 3))) with
    | some p => s.makeLive (pl / 3) p
    | none => s

/-- PLANE_SWITCH. -/
def execPlaneSwitch (core : Nat) (s : State) : Host.Outcome State Fault Refusal :=
  let k := s.core core
  let pri := s.livePri core
  .next (match argMax pri (List.range 3) with
    | some p => if pri k.live < pri p ∧ !(s.curIn (3 * core + k.live) && s.midPair) then s.makeLive core p else s
    | none => s)

/-! ### Launches (08 R140, 22 R379) -/

/-- A queue's record that is next is accepted into the dispatch lists, or rejected with INVALID. -/
def execLaunchAccept (func queue : Nat) (s : State) : Host.Outcome State Fault Refusal :=
  let f := s.func func
  let feeds := match s.bindOf func with | some b => bindQueue b queue | none => false
  .next (match tget [] f.queues queue with
    | [] => s
    | bs :: rest =>
      if f.frozen || s.stopping func || !feeds then s else
      let s := s.setFunc func { f with queues := tput [] f.queues queue rest }
      if recOk bs then s.acceptGrid func queue (recFields bs) none
      else (s.setErr func queue 0).post func queue 0x10 [(16, 32, ofLE (bs.take 32))])

/-! ### The end of teams (R142) -/

/-- The rows that a leader's gang streams have not sent yet reach the members at once: a gang never holds a stream that is partly
applied (10 R182). -/
def State.sendRest (s : State) (pl : Nat) : State :=
  (s.plane pl).matq.foldl (fun s op => match op with
    | .stream tok _ q0 nxt rows set sp slot src team c members =>
      if members = [] then s else
      (List.range (rows - nxt)).foldl (fun s i => match matFmt slot with
        | none => s
        | some (e, cls) => s.sendRow tok (q0 + nxt + i) (decide (rows ≤ nxt + i + 1)) set sp slot
            (s.readRow e cls sp slot src team c (nxt + i)) members) s
    | .load .. | .swap .. | .zero .. | .bias .. | .drain .. => s) s

/-- A team's resources are freed. -/
def State.dropTeam (s : State) (tid : Nat) (t : Team) : State :=
  let pl := 3 * t.core + t.plane
  let s := (s.sendRest pl).gangLeave tid
  let s := if t.lrec.qb = 0 then s else s.finishToks ((s.plane pl).matq.filterMap MatOp.rowTok)
  let p := s.plane pl
  let p := { p with teams := p.teams.filter (fun x => x ≠ tid), matq := if t.lrec.qb = 0 then p.matq else [] }
  let s := s.setPlane pl p
  { s.forgetWalks t.core t.func with teams := tdel s.teams tid, groups := s.groups.filter (fun (e : Nat × Group) => e.1 / 32 ≠ tid) }

/-- The planes of a core that functions of a partition hold. -/
def State.borrowed (s : State) (core part : Nat) : List Nat :=
  ((List.range 3).map (· + 3 * core)).filter (fun pl => decide ((s.plane pl).teams ≠ []) && (match (s.plane pl).func with
    | some f => decide ((s.func f).part = some part)
    | none => false))

/-- Recalled cores on which the borrower holds no plane any more go back to their owners (21 R368). -/
def State.finishRecalls (s : State) : State :=
  let (ok, no) := s.recalls.partition (fun r => decide (s.borrowed r.1 r.2.1 = []))
  ok.foldl (fun s r => (s.setCore r.1 { s.core r.1 with lentTo := none }).post 0 0xFF 1 [(16, 1, 5), (20, 4, r.2.2 % 2 ^ 32)]) { s with recalls := no }

/-- Every group of a team has ended. -/
def State.groupsEnded (s : State) (tid : Nat) (t : Team) : Bool :=
  (List.range t.lrec.gpt).all (fun i => decide ((s.group (32 * tid + i)).live = 0))

/-- Cards of a team are in flight. -/
def State.teamCards (s : State) (tid : Nat) : Bool := s.allCards.any (fun c => decide (c.team = tid))

/-- A team whose groups and cards have ended leaves its gang once its gang streams are complete (11 R196) and gives its resources back,
and its grid counts it. -/
def execTeamEnd (tid : Nat) (s : State) : Host.Outcome State Fault Refusal :=
  .next (match s.team? tid with
    | none => s
    | some t =>
      if !s.groupsEnded tid t || s.teamCards tid || !s.gangIdle tid then s else
      let s := (s.dropTeam tid t).finishRecalls
      match s.grid? t.grid with
      | none => s
      | some g =>
        let g := { g with ended := g.ended + 1 }
        let s := s.setGrid t.grid g
        if g.ended = g.lrec.teams then { s with agenda := s.agenda ++ [.gridComplete t.grid] } else s)

/-- The plane's registers, scratchpad, banks, tags and array are cleared (R138, R209). -/
def execPlaneCleared (pl : Nat) (s : State) : Host.Outcome State Fault Refusal :=
  let p := s.plane pl
  .next (if p.teams ≠ [] then s
    else s.setPlane pl { p with
      cleared := true, tagReady := 0, tagCount := [], tagStatus := [], banks := [], bankMarks := [], liveW := {}, shadowW := {},
      matq := [] })

/-! ### The end of grids (R143) -/

/-- The parent of a child counts one less, resident or saved (17 R310). -/
def State.childDone (s : State) (tid : Nat) : State :=
  let s : State := match s.team? tid with
    | some t => s.setTeam tid { t with children := t.children - 1 }
    | none => { s with saved := s.saved.map (fun (x : Saved) => { x with kids := x.kids.map (fun (k : Nat × Nat) => if k.1 = tid then (k.1, k.2 - 1) else k) }) }
  s.wakeLaunch

/-- The increment of a completion counter at its home, a release at SYSTEM scope of the grid's writes. -/
def State.countGrid (s : State) (t : Tgt) : State := ((s.homeOp t .gridDone none).1).wakeMem

/-- The grid is gone; its parent counts it. -/
def State.closeGrid (s : State) (gid : Nat) (g : Grid) : State :=
  let s := { s with grids := tdel s.grids gid }
  match g.parent with
  | some t => s.childDone t
  | none => s

/-- A lost increment (R143, 22 R381): CNTLOST and its event. -/
def State.lostCount (s : State) (g : Grid) (reason : Nat) : State :=
  (s.setErr g.func g.queue 7).post g.func g.queue 0x14 [(16, 8, g.lrec.ccnt), (24, 1, reason)]

/-- Why stage 1 refuses the counter: 4 for a STABLE page, 2 otherwise. -/
def State.refusal1 (s : State) (func va : Nat) : Nat :=
  let f := s.func func
  match tlbFind (s.die 0).tlb.s1 func (bits va 54 16), walk1 (s.die 0).tlb s.mem f.s2root func f.s1root.toNat va with
  | some e, _ => if bitOf e.leaf.toNat 5 then 4 else 2
  | none, (.leaf e, _) => if bitOf e 5 then 4 else 2
  | none, (.fail _, _) | none, (.unbacked _, _) => 2

/-- Writes of a function that no home has accepted are drained; `error` while some wait. -/
def State.drainAll (s : State) (func : Nat) : Except State State :=
  (List.range 320).foldl (fun (r : Except State State) c => match r with
    | .error s => .error s
    | .ok s => if s.remoteBusy c func then .error s else s.drain c (fun e => decide (e.func = func))) (.ok s)

/-- GRID_COMPLETE: a release at SYSTEM scope, and the increment of the completion counter at its home. The increment of a counter at a peer
leaves through core 0, and the grid is gone once it has left (log entry 33). -/
def execGridComplete (gid : Nat) (s : State) : Host.Outcome State Fault Refusal :=
  match s.grid? gid with
  | none => .next s
  | some g =>
    if g.ended ≠ g.lrec.teams ∨ g.abandoned ∨ g.waitPri.isSome ∨ (s.func g.func).frozen ∨ s.stopping g.func then .next s else
    match s.drainAll g.func with
    | .error s => .next s
    | .ok s =>
      if g.lrec.ccnt = 0 then .next (s.closeGrid gid g) else
      let s := s.xlKeep g.func g.lrec.ccnt
      match s.xlDirect g.func .write g.lrec.ccnt with
      | .ok t =>
        (match t.tgt with
         | .loc _ | .host _ =>
           if s.snooped t.tgt then .next (s.biSend t.tgt)
           else .next (((s.touchHost g.func t.tgt).countGrid t.tgt).closeGrid gid g)
         | .fab v ma =>
           if (s.func g.func).vdn.isNone || !s.routes v then .next ((s.lostCount g 3).closeGrid gid g) else
           (match s.request 0 g.func v 4 (ma / 128 * 128) (opBytes (ma % 128) .gridDone) (.cardCtr 2 (g.func + 128 * (g.queue + 64 * g.lrec.ccnt))) with
            | some s => .next (s.closeGrid gid g)
            | none => .next s)
         | .notify .. => .next ((s.lostCount g 3).closeGrid gid g))
      | .page1 => .next ((s.lostCount g 1).closeGrid gid g)
      | .access1 => .next ((s.lostCount g (s.refusal1 g.func g.lrec.ccnt)).closeGrid gid g)
      | .access2 => .next ((s.lostCount g 3).closeGrid gid g)
      | .page2 f =>
        let (s, ok) := s.pageToHost g.func f
        .next (if ok then s.setGrid gid { g with waitPri := some (f / 65536 * 65536) } else s)
      | .moving _ | .miss => .next s
      | .unbacked ma => .fault (.unbacked ma)

/-! ### Spilled children (17 R307) -/

/-- A spilled record, read again, is validated and enters the pool, or is rejected. -/
def State.spillTaken (s : State) (gid : Nat) (g : Grid) (p parent : Nat) (more : List Nat) (va : Nat) (bs : List Byte) : State :=
  let s := s.setGrid gid { g with spillHead := g.spillHead + 1, spillParents := more }
  let s := if recOk bs then
    let id := s.nextGrid
    let pt := s.prt p
    (s.acceptGrid g.func g.queue (recFields bs) (some parent)).setPrt p { pt with pool := pt.pool ++ [id] }
  else ((s.setErr g.func g.queue 3).post g.func g.queue 0x13 [(16, 8, va), (24, 32, ofLE (bs.take 32))]).childDone parent
  s.wakeLaunch

/-- A spilled child may return: the pool has room, and its function is neither frozen (19 R353) nor stopping. -/
def State.spillDue (s : State) (g : Grid) : Bool :=
  decide (g.spillHead < g.spillTail) && !(s.func g.func).frozen && !s.stopping g.func &&
    (match (s.func g.func).part with
     | some p => decide ((s.prt p).pool.length < 4096)
     | none => false)

def execSpillReturn (gid : Nat) (s : State) : Host.Outcome State Fault Refusal :=
  .next (match s.grid? gid with
    | none => s
    | some g =>
      match (s.func g.func).part, g.spillParents with
      | some p, parent :: more =>
        if !s.spillDue g || s.cores.any (fun (e : Nat × Core) => s.devBusy e.1 ⟨spillKey, gid, 0⟩) then s else
        let va := g.spillVa g.spillHead
        match s.devRead 0 g.func true va 128 with
        | .ok s bs => s.spillTaken gid g p parent more va bs
        | .wait s => s
        | .stop (.page2 f) _ => (s.pageToHost g.func f).1
        | .stop .access2 _ => s.freeze g.func 8 va 0 0
        | .stop .. => s.spillTaken gid g p parent more va (List.replicate 128 0)
      | _, _ => s)

/-! ### Blocked units (17 R311) and time slices (21 R363) -/

/-- Every live lane of a team is parked in LAUNCH.wait or CJOIN; a team without a live lane waits for nothing. -/
def State.teamBlocked (s : State) (tid : Nat) : Bool :=
  (s.groupsOf tid).any (fun gk => decide ((s.group gk).live ≠ 0)) && (s.groupsOf tid).all (fun gk =>
    let g := s.group gk
    (lanesOf g.live).all (fun l => match (g.lane l).wait with
      | .launch .. | .cjoin => true
      | .acq .. | .bar .. | .chan .. | .none | .k _ | .tags .. | .sleep _ | .fetch _ | .pri _ | .moving _ 
      | .walk _ | .woken | .satisfied .. => false))

/-- The planes that a save of one plane takes with it: those that share a cluster with a team in them (R363). -/
def State.saveSet (s : State) : Nat → List Nat → List Nat
  | 0, l => l
  | n + 1, l =>
    let mates := s.teams.filter (fun (e : Nat × Team) => s.teams.any (fun (x : Nat × Team) =>
      l.contains (3 * x.2.core + x.2.plane) && decide (x.2.grid = e.2.grid) && decide (x.2.idx - x.2.rank = e.2.idx - e.2.rank)))
    let more := (mates.map (fun (e : Nat × Team) => 3 * e.2.core + e.2.plane)).filter (fun p => !l.contains p)
    if more = [] then l else s.saveSet n (l ++ more.eraseDups)

/-- The teams of a partition that are resident. -/
def State.partTeams (s : State) (part : Nat) : List (Nat × Team) :=
  s.teams.filter (fun (e : Nat × Team) => decide ((s.func e.2.func).part = some part))

/-- One decision to save a plane with the rest of its clusters; planes that are being saved already stay as they are. -/
def State.startSave (s : State) (pl : Nat) (why : SaveWhy) : State :=
  if (s.plane pl).teams = [] ∨ s.saving.any (fun j => decide (j.plane = pl)) = true then s else
  let set := (s.saveSet 960 [pl]).filter (fun p => !s.saving.any (fun j => decide (j.plane = p)))
  let jobs := set.map (fun p => ({ plane := p, batch := s.nextBatch, why := why } : SaveJob))
  { s with saving := s.saving ++ jobs, nextBatch := s.nextBatch + 1,
           agenda := s.agenda ++ set.map (fun p => Instr.contextSave (p / 3) (p % 3)) }

/-- The pending units of a function, of which those of one grid have one shape: the first of each grid, and the saved units that may be
placed. -/
def State.pendingUnits (s : State) (func : Nat) : List DUnit :=
  if (s.func func).frozen || s.stopping func then [] else
  (s.grids.filter (fun (e : Nat × Grid) => decide (e.2.func = func) && !e.2.abandoned && decide (e.2.placed < e.2.lrec.teams))).map
    (fun (e : Nat × Grid) => DUnit.grid e.1) ++
  (((s.saved.filter (fun x => decide (x.func = func))).map (fun x => s.saved.filter (fun y => y.batch = x.batch))).eraseDups.filter s.savedReady).map
    DUnit.saved

/-- Every resident unit of a partition is blocked, it has a pending unit, and none fits (R311). -/
def State.swapDue (s : State) (part : Nat) : Bool :=
  let ts := s.partTeams part
  let funcs := (List.range 128).filter (fun f => decide ((s.func f).part = some part))
  let units := funcs.flatMap (fun f => (s.pendingUnits f).map (fun u => (f, u)))
  decide (s.saving = []) && decide (ts ≠ []) && ts.all (fun e => s.teamBlocked e.1) && decide (units ≠ []) &&
  units.all (fun u => match (s.prt part).bind u.1 with
    | some b => (List.range 2).all (fun d => (s.placeUnit part d u.1 b (fun _ => true) u.2).isNone)
    | none => true)

/-- The oldest blocked unit is saved to free its planes (R311). -/
def execBlockedUnitSwap (part : Nat) (s : State) : Host.Outcome State Fault Refusal :=
  .next (if !s.swapDue part then s
    else match argMax (fun (e : Nat × Team) => - (e.2.order : Int)) (s.partTeams part) with
      | some e => s.startSave (3 * e.2.core + e.2.plane) .swap
      | none => s)

/-- A time slice ends: the Keystone pair commands a save of every plane in which the partition has teams (R363). -/
def execTimeSliceEnd (part : Nat) (s : State) : Host.Outcome State Fault Refusal :=
  let ps := ((s.partTeams part).map (fun (e : Nat × Team) => 3 * e.2.core + e.2.plane)).eraseDups
  .next (ps.foldl (fun s p => s.startSave p .slice) s)

end Sys2Proof.Machine
end

