-- ==== Sys2Proof/Machine/Ashlar.lean ====
section
/-!
DEFINITION. The Ashlar layout (21 R369 to R376): the records of an image, their CRC, their contents from the state, and their
checks (R370).
-/
namespace Sys2Proof.Machine

/-! ### Records (Table 21-2) -/

/-- One bit of the reflected CRC-32C. -/
def crcBit (c : Nat) : Nat := if c % 2 = 1 then (c / 2) ^^^ 0x82F63B78 else c / 2

def crcByte (c : Nat) (b : Byte) : Nat := (List.range 8).foldl (fun c _ => crcBit c) (c ^^^ b.toNat)

/-- `crcByte` over bytes in their order. The match makes an evaluation hold a number after each byte. -/
def crcBytes : Nat → List Byte → Nat
  | c, [] => c
  | c, b :: bs => match crcByte c b with
    | 0 => crcBytes 0 bs
    | n + 1 => crcBytes (n + 1) bs

/-- CRC-32C with initial and final XOR of all ones. -/
def crc32c (bs : List Byte) : Nat := crcBytes 0xFFFFFFFF bs ^^^ 0xFFFFFFFF

/-- A record from its type, its KEY fields and its bytes from 16 on. -/
def ashRec (type idx team : Nat) (body : List Byte) : List Byte :=
  let hd (crc : Nat) : List Byte :=
    leBytes type 2 ++ leBytes 1 1 ++ leBytes 0 1 ++ leBytes (16 + body.length) 4 ++ leBytes crc 4 ++ leBytes idx 2 ++ leBytes team 2
  hd (crc32c (hd 0 ++ body)) ++ body

/-- A record of an image as read. -/
structure ARec where
  type : Nat
  idx : Nat
  team : Nat
  bytes : List Byte
  deriving DecidableEq, Repr

def ARec.num (r : ARec) (i n : Nat) : Nat := recNum r.bytes i n

/-- Packed bits, eight to a byte, lowest first. -/
def bitBytes : Nat → (Nat → Bool) → List Byte
  | 0, _ => []
  | n + 1, f => BitVec.ofNat 8 ((List.range 8).foldl (fun v k => v + (if f k then 2 ^ k else 0)) 0) :: bitBytes n (fun i => f (i + 8))

/-- The set bits of a bit string. -/
def setBits (bs : List Byte) : List Nat :=
  bs.zipIdx.flatMap (fun (b, i) => ((List.range 8).filter (fun k => bitOf b.toNat k)).map (fun k => 8 * i + k))

def zeros (n : Nat) : List Byte := List.replicate n 0

/-! ### Contents -/

/-- SIGRING (Table 21-3), and the slots of a card as its JOB record holds them. -/
def ringBytes (l : List RSlot) : List Byte :=
  (List.range 3).flatMap (fun k => leBytes (ringSlot l k).epoch 4) ++
  leBytes ((List.range 3).foldl (fun v k => v + (if (ringSlot l k).sat then 2 ^ k else 0)) 0) 1 ++ zeros 3 ++
  (List.range 3).flatMap (fun k => leBytes (ringSlot l k).bits.toNat 128)

/-- The slots that `n` bytes from byte `i` of a record hold. -/
def ringOf (r : ARec) (i : Nat) : List RSlot :=
  (List.range 3).map (fun k => ⟨BitVec.ofNat 1024 (r.num (i + 16 + 128 * k) 128), r.num (i + 4 * k) 4, bitOf (r.num (i + 12) 1) k⟩)

/-- The gang state of the teams of a grid, resident or saved: linear index, rank and gang. -/
def State.gangStates (s : State) (grid : Nat) : List (Nat × Nat × Gang) :=
  (s.teams.filter (fun (e : Nat × Team) => decide (e.2.grid = grid))).map (fun (e : Nat × Team) => (e.2.idx, e.2.rank, e.2.gang)) ++
  s.saved.flatMap (fun x => (x.gangs.filter (fun (g : Nat × Nat × Nat × Gang) => decide (g.1 = grid))).map (fun (g : Nat × Nat × Nat × Gang) => g.2))

/-- The leader's listed ranks as a team's record keeps them: those of its own list, or of its leader's. -/
def State.gangRanksOf (s : State) (t : Team) : List (Option Nat) :=
  match t.gang with
  | .lead rs _ => rs
  | .none => [none, none, none]
  | .member l _ _ =>
    (match (s.gangStates t.grid).find? (fun e => decide (e.1 = t.idx - t.rank + l)) with
     | some (_, _, .lead rs _) => rs
     | some (_, _, .none) | some (_, _, .member ..) | none => [none, none, none])

/-- A listed position has joined. -/
def State.joinedAt (s : State) (t : Team) (r : Option Nat) : Bool :=
  match r with
  | none => false
  | some r => (s.gangStates t.grid).any (fun e => decide (e.1 = t.idx - t.rank + r) &&
      (match e.2.2 with | .member _ _ met => met | .none | .lead .. => false))

/-- GANG, GRANKS and JOINED (Table 21-4). -/
def State.gangBytes (s : State) (t : Team) : List Byte :=
  let rs := s.gangRanksOf t
  let pos := match findIdx (fun r => decide (r = some t.rank)) rs with | some (i, _) => i + 1 | none => 0
  let (g, lead) := match t.gang with
    | .none => (0, 255)
    | .lead _ f => (1 + (if f then 4 else 0), t.rank)
    | .member l b met => (2 + (if met then 0 else 8) + b * 16 + pos * 64, l)
  let joined := rs.zipIdx.foldl (fun v (r, i) => v + (if s.joinedAt t r then 2 ^ (i + 1) else 0)) 0
  leBytes g 1 ++ leBytes lead 1 ++ (if t.gang = .none then [255, 255, 255] else rs.map (fun r => BitVec.ofNat 8 (r.getD 255))) ++ leBytes joined 1

def State.teamRec (s : State) (i : Nat) (t : Team) (nrec : Nat) : List Byte :=
  ashRec 1 0 i (recBytes t.lrec ++ leBytes t.idx 8 ++ leBytes t.rank 1 ++ leBytes t.qmask.toNat 1 ++ leBytes t.tagBase 1 ++ zeros 1 ++
    leBytes (t.lpslot.getD 0) 4 ++ leBytes t.children 4 ++ s.gangBytes t ++ zeros 2 ++ leBytes nrec 4 ++ zeros 16)

/-- WAIT of a lane but for its CELL index (Table 21-5). -/
def Lane.waitWord (x : Lane) : Nat :=
  match x.wait with
  | .k k => 1 + 16 * k
  | .bar .. => 2
  | .acq false .. => 3
  | .tags false .. => 4
  | .tags true .. => 5
  | .acq true .. => 6
  | .launch .. => 7
  | .cjoin => 8
  | .chan .. => 10
  | .woken | .satisfied .. => 256
  | .none | .sleep _ | .fetch _ | .pri _ | .moving _ | .walk _ => 0

/-- The lane has a CELL record: kind, watched address, and the child record (Table 21-7). -/
def Lane.cellRec (g : Group) (clock l : Nat) (x : Lane) (src : DWord → RegCode) : Option (Nat × DWord × List Byte) :=
  match x.wait with
  | .acq cnt va _ _ _ _ _ _ _ _ true => some (if cnt then 6 else 3, va, [])
  | .launch rec _ => some (7, g.rd2 clock l (src x.pc), rec)
  | .acq .. | .k _ | .bar .. | .tags .. | .cjoin | .chan .. | .walk _ | .woken | .satisfied .. | .none | .sleep _ | .fetch _ | .pri _ | .moving _ => none

/-- GROUP (R371). `cells` gives the CELL index of a lane. -/
def groupRec (i team : Nat) (g : Group) (n : Nat) (cells : Nat → Option Nat) : List Byte :=
  let lanes := List.range 32
  let live (l : Nat) : Bool := g.live.getLsbD l
  let wait (l : Nat) : Nat := (if live l then (g.lane l).waitWord else 0) + 65536 * ((cells l).getD 0xFFFF)
  let xreg (l : Nat) : List Byte :=
    let x := g.lane l
    leBytes x.xpc.toNat 8 ++ leBytes x.xnpc.toNat 8 ++ leBytes x.xaddr.toNat 8 ++ leBytes x.xcause.toNat 4 ++ leBytes x.xstate.toNat 4 ++
    (List.range 4).flatMap (fun k => leBytes (tget 0 x.xsave k).toNat 8)
  ashRec 2 i team (
    leBytes (i + n / 8 * 256) 4 ++ leBytes g.live.toNat 4 ++ leBytes g.halted.toNat 4 ++ zeros 4 ++
    (List.range 31).flatMap (fun k => leBytes (tget 0 g.s k).toNat 4) ++ zeros 4 ++
    (List.range 12).flatMap (fun k => leBytes (tget 0 g.k k).toNat 4) ++ zeros 128 ++
    lanes.flatMap (fun l => leBytes (wait l) 4) ++ lanes.flatMap (fun l => leBytes (g.lane l).p.toNat 1) ++
    lanes.flatMap (fun l => leBytes (g.lane l).pc.toNat 8) ++ lanes.flatMap xreg ++
    (List.range n).flatMap (fun k => bitBytes 4 (fun l => live l && (tfind (g.lane l).marks k).isSome)) ++
    (List.range n).flatMap (fun k => lanes.flatMap (fun l => leBytes (if live l then (tget 0 (g.lane l).g k).toNat else 0) 4)))

/-- BARRIER (Table 21-6) of a group's list. -/
def barrierRecs (i0 team gid : Nat) (g : Group) : List (List Byte) :=
  g.members.zipIdx.map (fun (m, i) =>
    let lru := (g.members.filter (fun x => decide (m.used < x.used))).length
    ashRec 4 (i0 + i) team (leBytes m.va.toNat 8 ++ leBytes m.mgen.toNat 4 ++ leBytes gid 1 ++ leBytes lru 1 ++ zeros 2))

/-- CELL (Table 21-7). -/
def cellRecOf (i team gid l : Nat) (c : Nat × DWord × List Byte) : List Byte :=
  ashRec 5 i team (leBytes c.2.1.toNat 8 ++ leBytes c.1 1 ++ leBytes gid 1 ++ leBytes l 1 ++ zeros 21 ++ c.2.2)

/-- SCRATCH (R372). -/
def scratchRec (team : Nat) (t : Team) : List Byte :=
  let z := t.lrec.spad * 1024
  ashRec 3 0 team (leBytes z 4 ++ zeros 12 ++ tspan 0 t.spad 0 z ++ bitBytes (z / 64) (fun w => t.spadMarks.contains w))

/-- The class, sparsity and kind of an array plane. -/
def wplaneCode (w : WPlane) : Nat :=
  (match w.cls with | 16 => 0 | 8 => 1 | _ => 2) + (if w.sparse then 4 else 0) + (if w.int then 8 else 0)

/-- One array plane: X values as a bit string of 34-bit elements, metadata nibbles, marks. -/
def wplaneBytes (w : WPlane) : List Byte :=
  leBytes (w.w.foldl (fun v (e : Nat × Nat) => v + e.2 % 2 ^ 34 * 2 ^ (34 * e.1)) 0) 69632 ++
  leBytes (w.md.foldl (fun v (e : Nat × Nat) => v + e.2 % 16 * 16 ^ e.1) 0) 4096 ++ bitBytes 2048 (fun i => w.marks.contains i)

/-- MATRIX (R373). -/
def matrixRec (team : Nat) (t : Team) (p : Plane) : List Byte :=
  let banks := (List.range 4).filter (fun b => t.qmask.getLsbD b)
  ashRec 7 0 team (
    leBytes (t.qmask.toNat + wplaneCode p.liveW * 16 + wplaneCode p.shadowW * 256) 4 ++ zeros 12 ++
    wplaneBytes p.liveW ++ wplaneBytes p.shadowW ++
    banks.flatMap (fun b => (tspan 0 p.banks (b * 16384) 16384).flatMap (fun w => leBytes w.toNat 4) ++
      bitBytes 2048 (fun i => p.bankMarks.contains (b * 16384 + i))))

/-- A coordinate as a s32. -/
def s32Bytes (x : Int) : List Byte := leBytes (wrapN 32 x) 4

/-- JOB (Table 21-8). -/
def jobRec (i team : Nat) (c : Card) : List Byte :=
  let st := match c.st with
    | .formed | .waiting | .ready _ => if c.started then 1 else 0
    | .running _ | .finished _ => if c.maj = 0xE0 ∧ c.phase = 0 ∧ !c.started then 0 else 1
    | .paused .. => 2
  let orig := if c.maj = 0xE0 then [(c.orig[0]?).getD 0, 0, (c.orig[2]?).getD 0] else if 0xE0 ≤ c.maj then c.orig.take 3 else c.orig
  let recd (b : List Byte) : List Byte := if b = [] then zeros 64 else b
  let (first, second) := if c.maj = 0xC5 then (c.drec, []) else (c.srec, c.drec)
  ashRec 6 i team (
    leBytes (st + c.status * 4 + c.cls * 16 + c.maj * 256 + c.fn * 65536) 4 ++ leBytes c.imm 4 ++ leBytes i 4 ++
    leBytes (if c.maj = 0xE0 then ((c.orig[1]?).getD 0).toNat else c.done) 4 ++
    leBytes c.counter 8 ++ leBytes c.pattern.toNat 8 ++ leBytes c.slot.toNat 8 ++
    (List.range 10).flatMap (fun k => s32Bytes ((orig[k]?).getD 0)) ++ recd first ++ recd second ++ recd c.xrec ++ ringBytes c.sig)

/-- TAGS (R374). -/
def tagsRec (team : Nat) (t : Team) (p : Plane) : List Byte :=
  let n := t.lrec.tags
  let ent (i : Nat) : List Byte :=
    let k := t.tagBase + i
    leBytes ((if p.tagReady.getLsbD k then 1 else 0) + tget 0 p.tagStatus k * 2 + tget 0 p.tagCount k * 256) 4
  ashRec 9 0 team (leBytes t.tagBase 1 ++ leBytes n 1 ++ zeros 14 ++ (List.range n).flatMap ent ++ zeros ((16 - 4 * n % 16) % 16))

/-- END (R375). -/
def endRec (total : Nat) : List Byte := ashRec 10 0 0 (leBytes total 8 ++ zeros 8)

/-- The records of one team in the order of R369. `cards` stand in acceptance order; `src` is the A operand at a PC. -/
def State.teamRecs (s : State) (i tid : Nat) (t : Team) (p : Plane) (cards : List Card) (src : DWord → RegCode) : List (List Byte) :=
  let gids := List.range t.lrec.gpt
  let cells := gids.flatMap (fun gid =>
    let g := s.group (32 * tid + gid)
    (lanesOf g.live).filterMap (fun l => ((g.lane l).cellRec g (s.cycle t.core) l src).map (fun c => (gid, l, c))))
  let cellIdx (gid l : Nat) : Option Nat := (findIdx (fun (x : Nat × Nat × Nat × DWord × List Byte) => decide (x.1 = gid) && decide (x.2.1 = l)) cells).map (·.1)
  let bars := gids.foldl (fun (b : List (List Byte)) gid => b ++ barrierRecs b.length i gid (s.group (32 * tid + gid))) []
  let rest :=
    gids.map (fun gid => groupRec gid i (s.group (32 * tid + gid)) t.lrec.regs (cellIdx gid)) ++
    (if t.lrec.spad = 0 then [] else [scratchRec i t]) ++ (if t.lrec.qb = 0 then [] else [matrixRec i t p]) ++ bars ++
    cells.zipIdx.map (fun (c, k) => cellRecOf k i c.1 c.2.1 c.2.2) ++
    cards.zipIdx.map (fun (c, k) => jobRec k i c) ++ (if t.lrec.tags = 0 then [] else [tagsRec i t p])
  s.teamRec i t rest.length :: rest

/-- The cards of a team in order of acceptance. -/
def State.cardsOf (s : State) (tid : Nat) : List Card :=
  s.dies.flatMap (fun (e : Nat × Die) => (e.2.cards ++ e.2.cardQ).filter (fun c => decide (c.team = tid)))

/-- The image of a plane (R369). -/
def State.imageOf (s : State) (pl : Nat) (src : DWord → RegCode) : List Byte :=
  let p := s.plane pl
  let body := ashRec 8 0 0 (ringBytes p.ring) ++ (p.teams.zipIdx.flatMap (fun (tid, i) => match s.team? tid with
    | some t => (s.teamRecs i tid t p (s.cardsOf tid) src).flatten
    | none => []))
  body ++ endRec (body.length + 32)

/-! ### Reading an image (R370) -/

/-- The record at the head of a list of bytes, with its length: TYPE, VER, LEN, CRC and the reserved byte are in order. -/
def readRec (bs : List Byte) : Option (ARec × Nat) :=
  let n := recNum bs 4 4
  let type := recNum bs 0 2
  if bs.length < 16 ∨ n < 16 ∨ n % 16 ≠ 0 ∨ bs.length < n ∨ recNum bs 2 1 ≠ 1 ∨ recNum bs 3 1 ≠ 0 ∨ type = 0 ∨ 10 < type then none
  else
    let r := bs.take n
    if crc32c (r.take 8 ++ zeros 4 ++ r.drop 12) ≠ recNum r 8 4 then none
    else some (⟨type, recNum r 12 2, recNum r 14 2, r⟩, n)

/-- The records of an image up to END. -/
def readRecs : Nat → List Byte → Option (List ARec)
  | 0, _ => none
  | n + 1, bs =>
    match readRec bs with
    | none => none
    | some (r, k) => if r.type = 10 then some [r] else (readRecs n (bs.drop k)).map (r :: ·)

/-- Bytes that are all 0. -/
def ARec.zero (r : ARec) (i n : Nat) : Bool := decide (r.num i n = 0)

/-- LEN and the reserved fields of a record; `lr` is the launch record of its team. -/
def ARec.ok (r : ARec) (lr : Rec) : Bool :=
  let len := r.bytes.length
  match r.type with
  | 8 => decide (len = 416) && decide (r.num 28 1 < 8) && r.zero 29 3
  | 1 => decide (len = 192) && decide (r.num 153 1 < 16) && decide (r.num 154 1 < 64) && r.zero 155 1 && r.zero 158 2 && r.zero 170 2 &&
      r.zero 176 16 && decide (r.num 164 1 % 4 ≠ 3) && decide (r.num 169 1 % 2 = 0) && decide (r.num 169 1 < 16) &&
      recOk ((r.bytes.drop 16).take 128)
  | 2 => decide (len = 2800 + 132 * lr.regs) && decide (bits (r.num 16 4) 7 5 = 0) && decide (r.num 16 4 / 256 = lr.regs / 8) && r.zero 28 4 &&
      r.zero 156 4 && r.zero 208 128 && (List.range 32).all (fun l => pcOk (BitVec.ofNat 64 (r.num (496 + 8 * l) 8))) &&
      (List.range 32).all (fun l => decide (bits (r.num (336 + 4 * l) 4) 15 9 = 0) && decide (bits (r.num (336 + 4 * l) 4) 3 0 ≤ 10) &&
        decide (bits (r.num (336 + 4 * l) 4) 3 0 ≠ 9) && decide (r.num (464 + l) 1 < 128) &&
        decide (r.num (752 + 64 * l + 24) 4 < 2 ^ 16) && decide (r.num (752 + 64 * l + 28) 4 < 2 ^ 5))
  | 3 => let z := lr.spad * 1024; decide (len = 32 + z + z / 64) && decide (r.num 16 4 = z) && r.zero 20 12
  | 7 => decide (len = 151584 + 67584 * lr.qb) && decide (bits (r.num 16 4) 31 12 = 0) && decide (bits (r.num 16 4) 5 4 ≠ 3) &&
      decide (bits (r.num 16 4) 9 8 ≠ 3) && r.zero 20 12
  | 4 => decide (len = 32) && decide (r.num 28 1 < 32) && decide (r.num 29 1 < 8) && r.zero 30 2
  | 5 => let k := r.num 24 1; (decide (k = 3) || decide (k = 6) || decide (k = 7)) && decide (len = if k = 7 then 176 else 48) &&
      decide (r.num 25 1 < 32) && decide (r.num 26 1 < 32) && r.zero 27 21
  | 6 => decide (len = 688) && decide (bits (r.num 16 4) 7 6 = 0) && decide (bits (r.num 16 4) 31 20 = 0) && decide (bits (r.num 16 4) 1 0 ≠ 3) &&
      decide (bits (r.num 16 4) 5 4 ≠ 3) && decide (r.num 300 1 < 8) && r.zero 301 3
  | 9 => let n := lr.tags; decide (len = 32 + (4 * n + 15) / 16 * 16) && decide (r.num 17 1 = n) && r.zero 18 14 &&
      (List.range n).all (fun i => decide (bits (r.num (32 + 4 * i) 4) 7 3 = 0) && decide (bits (r.num (32 + 4 * i) 4) 31 16 = 0)) &&
      r.zero (32 + 4 * n) (len - 32 - 4 * n)
  | 10 => decide (len = 32) && r.zero 24 8
  | _ => false

/-- The place of a record's type in the order of R369, after its TEAM. -/
def typeRank (t : Nat) : Nat := match t with | 2 => 1 | 3 => 2 | 7 => 3 | 4 => 4 | 5 => 4 | 6 => 5 | 9 => 6 | _ => 0

/-- The records of a team stand in order and are all there. -/
def teamOrder (lr : Rec) (l : List ARec) : Bool :=
  let ranks := l.map (fun r => typeRank r.type)
  let count (t : Nat) : Nat := (l.filter (fun r => decide (r.type = t))).length
  (List.zip ranks (ranks.drop 1)).all (fun (a, b) => decide (a ≤ b)) && ranks.all (fun k => decide (k ≠ 0)) &&
  ((l.filter (fun r => decide (r.type = 2))).map (fun r => r.num 16 4 % 32) == List.range lr.gpt) &&
  decide (count 3 = if lr.spad = 0 then 0 else 1) && decide (count 7 = if lr.qb = 0 then 0 else 1) &&
  decide (count 9 = if lr.tags = 0 then 0 else 1) &&
  ((l.filter (fun r => decide (r.type = 6))).map (fun r => r.num 24 4) == List.range (count 6))

/-- The records of a team are those after it up to the next TEAM or END. -/
def takeTeam : List ARec → List ARec × List ARec
  | [] => ([], [])
  | r :: rest => if r.type = 1 ∨ r.type = 10 then ([], r :: rest) else let (a, b) := takeTeam rest; (r :: a, b)

/-- An image that R370 accepts: its ring and its teams. -/
def teamsOf : Nat → List ARec → Option (List (ARec × List ARec))
  | 0, _ => none
  | n + 1, l =>
    match l with
    | [] => none
    | r :: rest =>
      let lr := recFields ((r.bytes.drop 16).take 128)
      if r.type = 10 then (if rest = [] ∧ r.ok {} = true then some [] else none)
      else if r.type ≠ 1 ∨ r.ok lr = false then none
      else
        let (mine, more) := takeTeam rest
        if !(mine.all (fun x => x.ok lr) && teamOrder lr mine) then none
        else (teamsOf n more).map ((r, mine) :: ·)

/-- The ring record and the teams of an image, or `none` where R370 refuses it. -/
def readImage (bs : List Byte) : Option (ARec × List (ARec × List ARec)) :=
  match readRecs (bs.length / 16 + 1) bs with
  | some (r :: rest) => if r.type = 8 ∧ r.ok {} = true then (teamsOf (rest.length + 1) rest).map (fun l => (r, l)) else none
  | some [] | none => none

/-- The instruction at a PC, as the device reads it. -/
def State.instrAt (s : State) (func : Nat) (pc : DWord) : Option Instr :=
  match s.xlDirect func .fetch (pc.toNat / 64 * 64) with
  | .ok t => (match decode (slotWord (s.homeBytes t.tgt 64) (pc.toNat % 8)) with
    | .ok i => some i
    | .error _ => none)
  | .page1 | .access1 | .page2 _ | .access2 | .moving _ | .miss | .unbacked _ => none

end Sys2Proof.Machine
end

