-- ==== Sys2Proof/Machine/Context.lean ====
section
/-!
DEFINITION. Saving, dumping and restoring a plane (21 R363 to R368).
-/
namespace Sys2Proof.Machine

/-! ### The halt (R364 steps 1 to 5) -/

/-- A lane stops at its instruction boundary: a sleep ends, and waits that the save does not record are taken up again by the
same instruction later (R342, R364, R366). -/
def Lane.halt (x : Lane) : Lane :=
  match x.wait with
  | .sleep _ => { x with wait := .none, pc := x.resume, fline := none }
  | .fetch _ | .pri _ | .moving _ | .walk _ => { x with wait := .none, fline := none }
  | .none | .k _ | .acq .. | .bar .. | .tags .. | .launch .. | .cjoin | .chan .. | .woken | .satisfied .. => x

/-- Recorded wakes of halted lanes are taken as a save begins: the lanes are saved as woken (R366). -/
def Group.takeWakes (g : Group) (clock : Nat) : Group :=
  (List.range 32).foldl (fun g l => match (g.lane l).wait with
    | .satisfied .. => (g.takeWake clock l).modLane l (fun x => { x with wait := .woken })
    | .acq .. | .bar .. | .chan .. | .none | .k _ | .tags .. | .launch .. | .cjoin | .sleep _ | .fetch _ | .pri _ | .moving _ 
    | .walk _ | .woken => g) g

/-- The groups of a plane stop, and checkpoints that the plane holds are rolled back (R343, R364). A wait at a peer that has not left is
deregistered (R366). -/
def State.haltPlane (s : State) (pl : Nat) : State :=
  let k := s.core (pl / 3)
  let mine (gk : Nat) : Bool := (s.plane pl).teams.contains (gk / 32)
  let s := s.setCore (pl / 3) { k with later := k.later.filter (fun r => match r.what with
    | .watch gk .. => !mine gk
    | .load .. | .op .. | .fetch .. | .pref .. | .recd .. | .dev .. | .card .. | .cardCtr .. => true) }
  let s := match (s.plane pl).func with | some f => s.forgetWalks (pl / 3) f | none => s
  { s with groups := s.groups.map (fun (e : Nat × Group) => match s.team? (e.1 / 32) with
           | none => e
           | some t =>
             let here := decide (3 * t.core + t.plane = pl)
             let held := match e.2.ra with | some r => decide (t.core = pl / 3) && decide (r.plane = pl % 3) | none => false
             let g := if here || held then e.2.restore else e.2
             (e.1, if here then { g.takeWakes (s.cycle t.core) with lanes := (g.takeWakes (s.cycle t.core)).lanes.map Lane.halt, upper := 0 } else g)) }

/-- The cards of a plane's teams stand at a segment boundary (R365). -/
def State.cardsQuiet (s : State) (tids : List Nat) : Bool :=
  s.allCards.all (fun c => !tids.contains c.team || (decide (c.outq = []) && c.tok.isNone && (match c.st with
    | .finished _ => false
    | .running _ => !c.inseg
    | .formed | .waiting | .ready _ | .paused .. => true)))

/-- Every outstanding register write lands (02 R39). -/
def Group.landEverything (g : Group) : Group :=
  let g : Group := g.sLandAux (fun _ => true) [] g.sflights
  { g with lanes := g.lanes.map Lane.landAll, sb := [], outs := [] }

/-- The plane's groups, landed. -/
def State.landPlane (s : State) (tids : List Nat) : State :=
  { s with groups := s.groups.map (fun (e : Nat × Group) => if tids.contains (e.1 / 32) then (e.1, e.2.landEverything) else e) }

/-! ### The image (R363, R364 steps 6 and 7) -/

/-- The A operand of the instruction at a PC of a function. -/
def State.srcAt (s : State) (func : Nat) (pc : DWord) : RegCode :=
  match s.instrAt func pc with
  | some i => (match i.info with
    | some f => ((f.opnds.find? (fun o => !o.write)).map (fun o => o.code)).getD 255
    | none => 255)
  | none => 255

/-- The lowest place in the save area for an image of `n` bytes. -/
def State.savePlace (s : State) (func n : Nat) : Option Nat :=
  let f := s.func func
  let held := s.saved.filter (fun x => decide (x.func = func))
  let free (a : Nat) : Bool := decide (a + n ≤ f.savebase + f.savelen * 65536) &&
    held.all (fun x => decide (a + n ≤ x.va) || decide (x.va + x.len ≤ a))
  ((f.savebase :: held.map (fun x => x.va + x.len)).filter free).foldl (fun (m : Option Nat) a => match m with
    | none => some a
    | some b => some (min a b)) none

/-- Some live lane of a team waits as `p` says. -/
def State.teamWaits (s : State) (tid : Nat) (p : Wait → Bool) : Bool :=
  (s.groupsOf tid).any (fun gk => (lanesOf (s.group gk).live).any (fun l => p ((s.group gk).lane l).wait))

/-- What the Keystone pair keeps of an image. -/
def State.savedOf (s : State) (func pl va len batch : Nat) (why : SaveWhy) : Saved :=
  let p := s.plane pl
  let ts := p.teams.filterMap (fun t => (s.team? t).map (fun x => (t, x)))
  { func := func, va := va, len := len, teams := ts.map (fun (t, x) => (t, x.grid)), core := pl / 3, plane := pl % 3, batch := batch,
    blocked := decide (why = .swap) && p.teams.all s.teamBlocked, eff := (s.planePri p).getD 0,
    kids := ts.map (fun (t, x) => (t, x.children)),
    waits := ts.map (fun (t, _) => (t, s.teamWaits t (fun w => match w with
        | .launch .. => true
        | .acq .. | .bar .. | .chan .. | .none | .k _ | .tags .. | .cjoin | .sleep _ | .fetch _ | .pri _ | .moving _ | .walk _ | .woken
        | .satisfied .. => false), s.teamWaits t (fun w => decide (w = .cjoin)))),
    gangs := ts.map (fun (_, x) => (x.grid, x.idx, x.rank, x.gang)), lps := ts.filterMap (fun (_, x) => x.lpslot),
    cards := p.teams.flatMap s.cardsOf }

/-- Cards leave with their plane: engine cards and cards that have not started are gone, and a collective card that runs keeps
receiving (26 R449). No other card waits for one that has left (21 R365). -/
def State.cardsOut (s : State) (tids : List Nat) : State :=
  let keep (c : Card) : Bool := !tids.contains c.team || (decide (0xE0 ≤ c.maj) && decide (1 ≤ c.phase))
  let (gone, _) := s.allCards.partition (fun c => !keep c)
  let s := gone.foldl (fun s c => s.removeCard c) s
  let s := (s.allCards.filter (fun c => tids.contains c.team)).foldl (fun s c => s.freeEdges c) s
  s.mapCards (fun c => if tids.contains c.team then { c with out := true } else c)

/-- The teams of a plane leave it, and it is cleared. -/
def State.emptyPlane (s : State) (pl : Nat) (tids : List Nat) : State :=
  let s := s.cardsOut tids
  { s.setPlane pl {} with
    teams := s.teams.filter (fun (e : Nat × Team) => !tids.contains e.1),
    groups := s.groups.filter (fun (e : Nat × Group) => !tids.contains (e.1 / 32)) }

/-- The save of a plane is over. -/
def State.endSave (s : State) (pl : Nat) : State := { s with saving := s.saving.filter (fun j => j.plane ≠ pl) }.finishRecalls

/-- An image that is wholly written: the teams of a dumped plane end, and a saved plane is empty. -/
def State.imageDone (s : State) (pl : Nat) (j : SaveJob) (func va len : Nat) : State :=
  let p := s.plane pl
  if j.why = .dump then (p.teams.foldl (fun s t => s.endTeam t 0 0 0 0) s).endSave pl
  else
    let x := s.savedOf func pl va len j.batch j.why
    ({ s.emptyPlane pl p.teams with saved := s.saved ++ [x] }).endSave pl

/-- Writing the image of a halted plane, one plane of a core at a time. A page that is moving is waited for (20 R361); any fault or
refusal is a violation (R363). -/
def State.writeImage (s : State) (pl : Nat) (j : SaveJob) : State :=
  let p := s.plane pl
  match p.func with
  | none => s.endSave pl
  | some func =>
    match j.out with
    | some (tok, va, len) => if s.devBusy (pl / 3) ⟨saveKey, tok, 0⟩ then s else s.imageDone pl j func va len
    | none =>
      if (List.range 3).any (fun q => s.streams (pl / 3 * 3 + q)) then s else
      let landed := s.landPlane p.teams
      let bytes := landed.imageOf pl (landed.srcAt func)
      let lost (s : State) : State := (s.freeze func 6 (s.func func).savebase 0 (whereOf (pl / 3) 0)).endSave pl
      match s.savePlace func bytes.length with
      | none => lost landed
      | some va =>
        match { landed with nextTok := s.nextTok + 1 }.devPut (pl / 3) func ⟨saveKey, s.nextTok, 0⟩ va bytes with
        | .stop _ a => lost (match { landed with nextTok := s.nextTok + 1 }.devPut (pl / 3) func ⟨saveKey, s.nextTok, 0⟩ va (bytes.take (a - va)) with
          | .ok s' _ | .wait s' => s'
          | .stop .. => landed)
        | .wait _ => s
        | .ok s' _ =>
          if s'.devBusy (pl / 3) ⟨saveKey, s.nextTok, 0⟩ then
            { s' with saving := s'.saving.map (fun x => if x = j then { j with out := some (s.nextTok, va, bytes.length) } else x) }.notLive pl
          else s'.imageDone pl j func va bytes.length

/-- One attempt of a save: the plane halts, and its image is written once what has issued is complete. -/
def State.saveStep (s : State) (pl : Nat) : State :=
  match s.saving.find? (fun j => decide (j.plane = pl)) with
  | none => s
  | some j =>
    let p := s.plane pl
    let busy := match s.cur with | some cu => p.teams.contains (cu.gk / 32) | none => false
    if busy then s else
    let s := s.haltPlane pl
    let core := pl / 3
    let quiet := decide (p.matq = []) && decide (s.rowsOut p.teams.contains = []) &&
      s.planes.all (fun (e : Nat × Plane) => !e.2.sends p.teams.contains) && s.groupsQuiet pl && s.cardsQuiet p.teams
    if p.teams = [] then s.endSave pl
    else if !quiet then s
    else match s.drain core (fun e => decide (some e.func = p.func)) with
      | .error s => s
      | .ok s => s.writeImage pl j

def execContextSave (core plane : Nat) (s : State) : Host.Outcome State Fault Refusal :=
  let pl := 3 * core + plane
  .next (if s.saving.any (fun j => decide (j.plane = pl)) then s.saveStep pl else s.startSave pl .slice)

/-- A dump is requested, or goes on (R363). -/
def execContextDump (core plane : Nat) (s : State) : Host.Outcome State Fault Refusal :=
  let pl := 3 * core + plane
  .next (if s.saving.any (fun j => decide (j.plane = pl)) then s.saveStep pl
    else if (s.plane pl).teams = [] then s
    else { s with saving := s.saving ++ [{ plane := pl, batch := s.nextBatch, why := .dump }], nextBatch := s.nextBatch + 1 })

/-! ### Restoring (R367, R370) -/

/-- A gang state from GANG and GRANKS. -/
def gangOf (r : ARec) : Gang :=
  let g := r.num 164 1
  let rk (i : Nat) : Option Nat := let v := r.num (166 + i) 1; if v = 255 then none else some v
  match g % 4 with
  | 1 => .lead [rk 0, rk 1, rk 2] (bitOf g 2)
  | 2 => .member (r.num 165 1) (bits g 5 4) (!bitOf g 3)
  | _ => .none

/-- One lane of a GROUP record; `cell` gives a CELL record by index, `dest` the D operand at a PC. DESIGN CHOICE: a lane that comes back in
LAUNCH.wait offers its record before lanes parked earlier, and among those that come back in group and lane order (its `wtok` is 0; 17 R308 and
R367 give no order; log entry 61). -/
def laneOf (r : ARec) (n l : Nat) (cell : Nat → Option ARec) (dest : DWord → RegCode) : Lane :=
  let w := r.num (336 + 4 * l) 4
  let pc := BitVec.ofNat 64 (r.num (496 + 8 * l) 8)
  let x := 752 + 64 * l
  let wait : Wait := match bits w 3 0 with
    | 1 => .k (bits w 7 4)
    | 7 => (match cell (bits w 31 16) with
      | some c => .launch ((c.bytes.drop 48).take 128) (dest pc)
      | none => .none)
    | _ => .none
  { g := (List.range n).foldl (fun t k => tput 0 t k (BitVec.ofNat 32 (r.num (2800 + 4 * n + 128 * k + 4 * l) 4))) [],
    p := BitVec.ofNat 7 (r.num (464 + l) 1), pc := pc,
    xpc := BitVec.ofNat 64 (r.num x 8), xnpc := BitVec.ofNat 64 (r.num (x + 8) 8), xaddr := BitVec.ofNat 64 (r.num (x + 16) 8),
    xcause := BitVec.ofNat 32 (r.num (x + 24) 4), xstate := BitVec.ofNat 32 (r.num (x + 28) 4),
    xsave := (List.range 4).foldl (fun t k => tput 0 t k (BitVec.ofNat 64 (r.num (x + 32 + 8 * k) 8))) [],
    wait := wait, resume := if wait = .none then 0 else nextPc pc,
    marks := (List.range n).foldl (fun t k => if bitOf (r.num (2800 + 4 * k) 4) l then tset t k (Config.markAddr l k) else t) [] }

/-- A team's group from its record. -/
def State.groupOfRec (s : State) (func n : Nat) (rs : List ARec) (r : ARec) : Group :=
  let gid := r.num 16 4 % 32
  let cells := rs.filter (fun x => decide (x.type = 5))
  let dest (pc : DWord) : RegCode := match s.instrAt func pc with
    | some i => (match i.info with
      | some f => ((f.opnds.find? (fun o => o.write)).map (fun o => o.code)).getD 255
      | none => 255)
    | none => 255
  { lanes := (List.range 32).map (fun l => laneOf r n l (fun i => cells[i]?) dest),
    s := (List.range 31).foldl (fun t k => tput 0 t k (BitVec.ofNat 32 (r.num (32 + 4 * k) 4))) [],
    k := (List.range 12).foldl (fun t k => tput 0 t k (BitVec.ofNat 32 (r.num (160 + 4 * k) 4))) [],
    live := BitVec.ofNat 32 (r.num 20 4), halted := BitVec.ofNat 32 (r.num 24 4), 
    members := (sortBy (fun (x : ARec) => 7 - x.num 29 1) (rs.filter (fun x => decide (x.type = 4) && decide (x.num 28 1 = gid)))).filterMap (fun x =>
      match s.xlDirect func .read (x.num 16 8) with
      | .ok t => some ⟨BitVec.ofNat 64 (x.num 16 8), t.tgt, BitVec.ofNat 32 (x.num 24 4), s.clock + 7 - x.num 29 1⟩
      | .page1 | .access1 | .page2 _ | .access2 | .moving _ | .miss | .unbacked _ => none) }

/-- An array plane from its block. -/
def wplaneOf (r : ARec) (at' code : Nat) : WPlane :=
  let w := r.num at' 69632
  let md := r.num (at' + 69632) 4096
  { w := (List.range 16384).foldl (fun t i => tput 0 t i (w / 2 ^ (34 * i) % 2 ^ 34)) [],
    md := (List.range 8192).foldl (fun t i => tput 0 t i (md / 16 ^ i % 16)) [],
    cls := match code % 4 with | 0 => 16 | 1 => 8 | _ => 4, sparse := bitOf code 2, int := bitOf code 3,
    marks := setBits ((r.bytes.drop (at' + 73728)).take 2048) }

/-- MATRIX put back into its plane. -/
def Plane.withMatrix (p : Plane) (r : ARec) : Plane :=
  let c := r.num 16 4
  let bs := (List.range 4).filter (fun b => bitOf c b)
  let p := { p with liveW := wplaneOf r 32 (bits c 7 4), shadowW := wplaneOf r 75808 (bits c 11 8) }
  bs.zipIdx.foldl (fun p (b, i) =>
    let a := 151584 + 67584 * i
    { p with banks := (List.range 16384).foldl (fun t k => tput 0 t (b * 16384 + k) (BitVec.ofNat 32 (r.num (a + 4 * k) 4))) p.banks,
             bankMarks := addMarks p.bankMarks ((setBits ((r.bytes.drop (a + 65536)).take 2048)).map (· + b * 16384)) }) p

/-- TAGS put back into its plane. -/
def Plane.withTags (p : Plane) (r : ARec) : Plane :=
  (List.range (r.num 17 1)).foldl (fun p i =>
    let e := r.num (32 + 4 * i) 4
    let k := r.num 16 1 + i
    { p with tagReady := if bitOf e 0 then p.tagReady ||| (1#64 <<< k) else p.tagReady &&& ~~~(1#64 <<< k),
             tagStatus := tput 0 p.tagStatus k (bits e 2 1), tagCount := tput 0 p.tagCount k (bits e 15 8) }) p

/-- The ring of a restored plane, or of a restored card: slots whose epochs lie outside the window are cleared (14 R262, R263). -/
def restoredRing (epoch : Nat) (l : List RSlot) : List RSlot :=
  (List.range 3).map (fun k =>
    let r := ringSlot l k
    if epochDiff epoch r.epoch ≤ 2 then r else { epoch := windowEpoch epoch k })

/-- A card from its JOB record, over what the Keystone pair kept of it (its number and mode, and for a collective card what
has landed meanwhile). -/
def cardOf (epoch : Nat) (r : ARec) (base : Card) : Card :=
  let c := r.num 16 4
  let maj := bits c 15 8
  let running := decide (0xE0 ≤ maj) && decide (1 ≤ base.phase)
  let (first, second) := ((r.bytes.drop 96).take 64, (r.bytes.drop 160).take 64)
  let x : Card := { base with
    maj := maj, started := decide (bits c 1 0 ≠ 0), fn := bits c 19 16, imm := r.num 20 4, counter := r.num 32 8, pattern := BitVec.ofNat 64 (r.num 40 8),
    slot := BitVec.ofNat 64 (r.num 48 8), srec := if maj = 0xC5 then [] else first, drec := if maj = 0xC5 then first else second,
    xrec := (r.bytes.drop 224).take 64, st := (match base.st with
      | .finished e => if running then .finished e else .formed
      | .formed | .waiting | .ready _ | .running _ | .paused .. => .formed), edges := [], tok := none, ctrDone := none, out := false,
    inseg := false, todo := [], scales := [], wrote := [], outq := [], ending := false, again := false }
  if running then x
  else
    let n := r.num 28 4
    let orig := (List.range 10).map (fun k => sextN 32 (r.num (56 + 4 * k) 4))
    { x with
      phase := if 0xE1 ≤ maj ∧ 0 < n then 2 else if maj = 0xE0 ∧ x.started = true then (if x.fn = 1 ∧ n = 0 then 1 else 2) else base.phase,
      done := if maj = 0xE0 then (if 0 < n then 3 else 0) else n, status := bits c 3 2,
      orig := if maj = 0xE0 then [(orig[0]?).getD 0, (n : Int), (orig[2]?).getD 0] else orig, buf := [],
      sig := restoredRing epoch (ringOf r 288) }

/-- A card that holds its place on its engine while its plane is out, taken off its die. -/
def State.takeOut (s : State) (id : Nat) : State × Option Card :=
  ({ s with dies := s.dies.map (fun (e : Nat × Die) => (e.1, { e.2 with cards := e.2.cards.filter (fun c => !(c.out && decide (c.id = id))) })) },
   s.allCards.find? (fun c => c.out && decide (c.id = id)))

/-- A team put back on a plane. DESIGN CHOICE: the teams of one image get one age, and among groups of equal cluster rank and %gid those of
the lower team number are older (12 R208 names no order for them; log entry 60). -/
def State.restoreTeam (s : State) (x : Saved) (core plane : Nat) (tid gid : Nat) (r : ARec) (rs : List ARec) : State :=
  let lr := recFields ((r.bytes.drop 16).take 128)
  let groups := (rs.filter (fun y => decide (y.type = 2))).map (fun y => (y.num 16 4 % 32, s.groupOfRec x.func lr.regs rs y))
  let anyHalted := groups.any (fun (e : Nat × Group) => decide (e.2.halted ≠ 0))
  let spad : Table Byte × List Nat := match rs.find? (fun y => decide (y.type = 3)) with
    | some y => let z := lr.spad * 1024; (writeBytes [] 0 ((y.bytes.drop 32).take z), setBits (y.bytes.drop (32 + z)))
    | none => ([], [])
  let t : Team := {
    func := x.func, grid := gid, idx := r.num 144 8, rank := r.num 152 1, core := core, plane := plane, lrec := lr, spad := spad.1,
    spadMarks := spad.2, qmask := BitVec.ofNat 4 (r.num 153 1), tagBase := r.num 154 1,
    lpslot := if (s.func x.func).lpteams = 0 then none else some (r.num 156 2),
    children := match x.kids.find? (fun (k : Nat × Nat) => decide (k.1 = tid)) with | some k => k.2 | none => r.num 160 4,
    gang := gangOf r, order := s.nextBatch,
    halter := if anyHalted then (groups.find? (fun (e : Nat × Group) => decide (e.2.live &&& ~~~e.2.halted ≠ 0))).map (·.1) else none }
  let s := groups.foldl (fun s (e : Nat × Group) => s.setGroup (32 * tid + e.1) e.2) (s.setTeam tid t)
  let pl := 3 * core + plane
  let p := s.plane pl
  let p := { p with teams := p.teams ++ [tid] }
  let p := match rs.find? (fun y => decide (y.type = 7)) with | some y => p.withMatrix y | none => p
  let p := match rs.find? (fun y => decide (y.type = 9)) with | some y => p.withTags y | none => p
  let s := s.setPlane pl p
  let kept := x.cards.filter (fun c => decide (c.team = tid))
  (rs.filter (fun y => decide (y.type = 6))).zipIdx.foldl (fun s (y, i) =>
    let fresh : Card := { id := s.nextCard, func := x.func, team := tid, tidx := t.idx, plane := pl, core := core, maj := 0, fn := 0, imm := 0, sup := false }
    let s := if (kept[i]?).isNone then { s with nextCard := s.nextCard + 1 } else s
    let base := (kept[i]?).getD fresh
    let (s, out) := s.takeOut base.id
    let c := { cardOf s.epoch y (out.getD base) with plane := pl, core := core }
    let d := s.die (core / 160)
    s.setDie (core / 160) { d with cardQ := d.cardQ ++ [c] }) s

/-- An image that has been read is restored on its plane. -/
def State.restore (s : State) (x : Saved) (core plane : Nat) (ring : ARec) (teams : List (ARec × List ARec)) : State :=
  let pl := 3 * core + plane
  let s := s.setPlane pl { func := some x.func, cleared := false, ring := restoredRing s.epoch (ringOf ring 16) }
  let s := { s with saved := s.saved.filter (fun y => !(decide (y.func = x.func) && decide (y.va = x.va))) }
  let s := (List.zip x.teams teams).foldl (fun s (e : (Nat × Nat) × ARec × List ARec) =>
    s.restoreTeam x core plane e.1.1 e.1.2 e.2.1 e.2.2) s
  let acq := teams.any (fun (_, rs) => rs.any (fun r => decide (r.type = 2) && (List.range 32).any (fun l => bitOf (r.num (336 + 4 * l) 4) 8)))
  let s := if acq || decide (core ≠ x.core) then s.fullInval core x.func pl else s
  let tids := x.teams.map (·.1)
  { s with groups := s.groups.map (fun (e : Nat × Group) => if tids.contains (e.1 / 32) then (e.1, e.2.kEval false) else e) }

/-- The images of one decision with the places that a decision of the dispatcher has given them; `none` where one has none. -/
def State.placedBatch (s : State) (x : Saved) : Option (List (Saved × Nat × Nat)) :=
  (s.saved.filter (fun y => decide (y.batch = x.batch))).foldr (fun y r => match r, y.place with
    | some l, some (c, p) => some ((y, c, p) :: l)
    | _, _ => none) (some [])

/-- The images of a batch read one after another; `none` in the list for one that cannot be used. -/
def State.readBatch : State → List (Saved × Nat × Nat) → Except State (State × List (Saved × Nat × Nat × Option (ARec × List (ARec × List ARec))))
  | s, [] => .ok (s, [])
  | s, (x, c, p) :: r =>
    match s.devRead c x.func true x.va x.len with
    | .wait s => .error s
    | .stop .. => (s.readBatch r).map (fun (s, l) => (s, (x, c, p, none) :: l))
    | .ok s bs => (s.readBatch r).map (fun (s, l) =>
        (s, (x, c, p, (readImage bs).bind (fun i => if i.2.length = x.teams.length then some i else none)) :: l))

/-- The cards of an image that its die does not hold already. -/
def Saved.newCards (x : Saved) (teams : List (ARec × List ARec)) : Nat :=
  (teams.flatMap (fun t => t.2.filter (fun r => decide (r.type = 6)))).length - (x.cards.filter (fun c => decide (0xE0 ≤ c.maj) && decide (1 ≤ c.phase))).length

/-- The dies of the batch have room for its cards (17 R299). -/
def State.cardsFit (s : State) (l : List (Saved × Nat × Nat × Option (ARec × List (ARec × List ARec)))) : Bool :=
  (List.range 2).all (fun d =>
    let here := l.filter (fun e => decide (e.2.1 / 160 = d))
    let n : Nat := here.foldl (fun (n : Nat) e => n + (match e.2.2.2 with | some i => e.1.newCards i.2 | none => 0)) 0
    let held (f : Option Nat) : Nat := (((s.die d).cardQ ++ (s.die d).cards).filter (fun c => f.all (fun f => decide (c.func = f)))).length
    decide (n = 0) || (decide (held none + n ≤ 1024) && here.all (fun e => decide (held (some e.1.func) + n ≤ 256))))

/-- An image of a function, named by its address, comes back on a core with the other images of its decision, all at once (R363, R367): on the
planes that the dispatcher has given them, which they keep while their bytes are waited for, while another plane of a core streams, and
while a die has no room for their cards. -/
def execContextResume (func image core : Nat) (s : State) : Host.Outcome State Fault Refusal :=
  .next (if (s.func func).frozen || s.stopping func then
      { s with saved := s.saved.map (fun (x : Saved) => if x.func = func ∧ x.va = image then { x with place := none } else x) }
    else
    match s.saved.find? (fun x => decide (x.func = func) && decide (x.va = image)) with
    | none => s
    | some x =>
      match s.placedBatch x with
      | none => s
      | some l =>
        if x.place.map (fun p => p.1) ≠ some core ∨
           l.any (fun e => (List.range 3).any (fun q => s.streams (3 * e.2.1 + q))) = true then s else
        match s.readBatch l with
        | .error s => s
        | .ok (s, l) =>
          match l.find? (fun e => e.2.2.2.isNone) with
          | some e => s.freeze func 7 e.1.va 0 (whereOf e.2.1 0)
          | none =>
            if !s.cardsFit l then s else
            let s := l.foldl (fun s e => match e.2.2.2 with
              | some i => s.restore e.1 e.2.1 e.2.2.1 i.1 i.2
              | none => s) s
            ({ s with nextBatch := s.nextBatch + 1 }).wakeLaunch)

end Sys2Proof.Machine
end

