-- ==== Sys2Proof/Machine/Fabric.lean ====
section
/-!
DEFINITION. Fabric requests as the device serves them and responses as its cores take them (25 R418 to R426, 23 R405), the
time limits of slots, and what the fabric manager writes (R419 to R421; packet payloads: log entry 20).
-/
namespace Sys2Proof.Machine

/-! ### Serving requests (R421, R425) -/

/-- The answer to a request, on the response channel, sealed under the key of the request (27 R454). Its type is 0x10 for a LOAD,
0x11 for a STORE, 0x12 for an ATOMIC and 0x13 for a RED (Table 25-2). -/
def answer (p : Packet) (stat : Nat) (payload : List Byte) : Packet :=
  { dst := p.src, src := p.dst, type := p.type + 15, vc := 1, stat := stat, rid := p.rid, addr := p.addr, broken := false,
    sealed := p.sealed, genuine := true, payload := payload }

/-- The answer is that of a request. -/
def answers (p q : Packet) : Bool :=
  decide (p.src = q.dst) && decide (p.dst = q.src) && decide (p.rid = q.rid) && decide (p.addr = q.addr) && decide (p.type = q.type + 15)

/-- The redirect entry that covers a request (R421). -/
def State.redirectOf (s : State) (p : Packet) : Option RedEnt :=
  (s.redirect.find? (fun (e : Nat × RedEnt) => e.2.valid && decide (e.2.vdn = p.dst) && decide (e.2.old * 65536 ≤ p.addr) &&
    decide (p.addr < (e.2.old + e.2.len) * 65536))).map (fun (e : Nat × RedEnt) => e.2)

/-- The local machine address at which a request is performed; `none` where it is refused. -/
def State.servedAt (s : State) (p : Packet) : Option Nat :=
  match s.redirectOf p with
  | none => none
  | some e => if (if p.type = 1 then e.r else e.w) then some (p.addr - e.old * 65536 + e.new * 65536) else none

/-- The bytes of a STORE under its mask; a whole sector is written as one. Bytes that it marks are marked (13 R231). -/
def State.storeMasked (s : State) (ma : Nat) (payload : List Byte) : State :=
  let m := ofLE ((payload.drop 128).take 16)
  let bad := ofLE ((payload.drop 144).take 16)
  let s := (List.range 4).foldl (fun s i =>
    let part := (payload.drop (32 * i)).take 32
    if m / 2 ^ (32 * i) % 2 ^ 32 = 0xFFFFFFFF then s.homeWrite (.loc (ma + 32 * i)) part
    else (part.zipIdx).foldl (fun s (x : Byte × Nat) =>
      if bitOf m (32 * i + x.2) then s.homeWrite (.loc (ma + 32 * i + x.2)) [x.1] else s) s) s
  { s with memMarks := addMarks s.memMarks (((List.range 128).filter (fun i => bitOf bad i && bitOf m i)).map (· + ma)) }

/-- One operation of a packet at its home: the state, and its bytes of the response. -/
def State.serveOp (s : State) (ma : Nat) (x : Nat × HomeOp) : State × List Byte :=
  let t : Tgt := .loc (ma + x.1)
  let (s, v, ok) := s.homeOp t x.2 none
  let s := match x.2 with
    | .barInit _ => s.wakeBroken t
    | .atom .. | .barArrive _ | .barTest _ | .barExpect _ | .barDrop _ | .barBreak _ | .rngInit .. | .rngNext | .gridDone => s
  let v := match x.2 with
    | .barArrive _ => v + 2 ^ 32 * s.barMgen t
    | .atom .. | .barInit _ | .barTest _ | .barExpect _ | .barDrop _ | .barBreak _ | .rngInit .. | .rngNext | .gridDone => v
  (s, match x.2 with
    | .atom _ size _ _ _ => leBytes v size
    | .barInit _ | .barArrive _ | .barTest _ | .barExpect _ | .barDrop _ | .barBreak _ | .rngInit .. | .rngNext | .gridDone =>
      leBytes v 16 ++ leBytes (if ok then 1 else 0) 1)

/-- An operation reads bytes that an uncorrectable error has marked (R422). -/
def State.opMarked (s : State) (ma : Nat) (x : Nat × HomeOp) : Bool :=
  match x.2 with
  | .atom _ size _ _ _ => s.homeMarked (.loc (ma + x.1)) size
  | .rngNext => s.homeMarked (.loc (ma + x.1)) 16
  | .barInit _ | .barArrive _ | .barTest _ | .barExpect _ | .barDrop _ | .barBreak _ | .rngInit .. | .gridDone => false

/-- A request that its VDN accepts is performed at the home and answered; a write of a line that the host holds waits for the host (29
R466), and what comes for the line meanwhile waits behind it (R426). -/
def State.serveRequest (s : State) (p : Packet) : Host.Outcome State Fault Refusal :=
  match s.servedAt p with
  | none => .next (s.send (answer p 2 []))
  | some ma =>
    if !maBacked ma then .fault (.unbacked ma)
    else if s.netWait.any (fun q => decide (q.dst = p.dst) && decide ((s.servedAt q).map (fun a => a / 512) = some (ma / 512))) then
      .next { s with netWait := s.netWait ++ [p] }
    else if p.type = 1 then
      let marked := (List.range 128).any (fun i => s.memMarks.contains (ma + i))
      .next (s.send (answer p (if marked then 3 else 0) (readBytes s.mem ma 128)))
    else if s.snooped (.loc ma) then .next { s.biSend (.loc ma) with netWait := s.netWait ++ [p] }
    else if p.type = 2 then .next ((s.storeMasked ma p.payload).wakeMem.send (answer p 0 []))
    else
      let ma := ma / 128 * 128
      let (s, out, marked) := (opsOf p.payload).foldl (fun (r : State × List Byte × Bool) x =>
        let m := r.1.opMarked ma x
        let (s, b) := r.1.serveOp ma x
        (s, r.2.1 ++ b, r.2.2 || m)) (s, [], false)
      .next (s.wakeMem.send (answer p (if marked && decide (p.type = 3) then 3 else 0) (if p.type = 3 then out else [])))

/-- A request reaches the device (R418, R421). -/
def execRemoteRequestReceive (p : Packet) (s : State) : Host.Outcome State Fault Refusal :=
  if pktSound p = false ∨ p.type = 0 ∨ 4 < p.type ∨ p.stat ≠ 0 then .next (s.countErr p)
  else match s.funcOfVdn p.dst with
    | none =>
      .next (if s.forwards p.dst then s.forward p
        else s.send (answer p (if s.movedVdns.contains p.dst then 1 else 2) []))
    | some f =>
      match (s.countFabric p.dst (16 + p.payload.length)).verify f p with
      | (.drop, s) => .next s
      | (.denied, s) => .next (s.send (answer p 2 []))
      | (.ok, s) =>
        if !(tget {} s.vdnTable p.src).accept then .next (s.send (answer p 2 []))
        else match s.holdBack f p with
          | some (s, true) => .next s
          | some (s, false) => .next (s.send (answer p 1 []))
          | none => s.serveRequest p

/-! ### Responses (R422 to R424) -/

/-- The core, the peer entry and the slot of a RID (Table 25-2). -/
def ridCore (rid : Nat) : Nat := bits rid 15 15 * 160 + bits rid 14 7
def ridPeer (rid : Nat) : Nat := bits rid 6 3
def ridSlot (rid : Nat) : Nat := bits rid 2 0

/-- A peer entry is freed when nothing of it is outstanding (R423). -/
def State.setPeer (s : State) (core i : Nat) (p : Peer) : State :=
  let k := s.core core
  s.setCore core { k with peers := if p.slots = [] ∧ p.stores = [] then tdel k.peers i else tset k.peers i p }

/-- A violation of an access to a peer, with its address in the peer's map. -/
def State.remoteViol (s : State) (core func code addr : Nat) : State := s.freeze func code addr 0 (whereOf core 0)

/-- The lanes have the results of an outstanding instruction. -/
def State.remoteDone (s : State) (gk tok : Nat) (lanes : List Nat) : State := s.finishToks [⟨gk, tok, maskOf lanes⟩]

/-- Values of an outstanding instruction come for a group. -/
def State.supplyAll (s : State) (gk tok : Nat) (ws : List Wr) : State :=
  s.setGroup gk ((s.group gk).withCkpt (fun g => ws.foldl (fun g w => g.supply tok w.lane w.dest w.val w.mark) g))

/-- The acquire of a load or an update of a fabric line (R426). -/
def State.remoteAcquire (s : State) (gk : Nat) (acq : Option Scope) (va : Nat) (t : Tgt) : State :=
  match acq, s.homeOf gk with
  | some sc, some (tm, pl, core) => s.acquire core tm.func pl ⟨sc, va, 0, t⟩
  | _, _ => s

/-- A block of a peer enters L1 where its fill is still wanted. -/
def State.installFab (s : State) (core : Nat) (f : Fill) (p : Packet) : State :=
  if f.len = 0 then s else
  s.setCore core ((s.core core).fill s.epoch (f.lineOf p.payload (if p.stat = 3 then (List.range f.len).map (· + f.off) else [])))

/-- What a wait on a fabric line finds in the 128 bytes of its block. `broken`: its cell is BROKEN, or has been made so by this wait. -/
def fabWait (w : Wait) (bs : List Byte) (broken : Bool) (l : Nat) : Option (List Wr × Option Acq) :=
  match w with
  | .acq _ va fpa (.fab v ma) cmp wide b sc d c cell =>
    let o := ma % 128
    if cell && broken then some (statusWr l d c 1, none)
    else
      let ok := if wide then cmpHolds cmp (BitVec.ofNat 64 (numAt bs o 8)) b else cmpHolds cmp (BitVec.ofNat 32 (numAt bs o 4)) (b.setWidth 32)
      if ok then some (statusWr l d c 0, some ⟨sc, va.toNat, fpa, .fab v ma⟩) else none
  | .bar va fpa (.fab v ma) tok sc d c =>
    if barPassed (numAt bs 28 4) tok.toNat then some (statusWr l d c 0, some ⟨sc, va.toNat, fpa, .fab v ma⟩)
    else if broken then some (statusWr l d c 1, none) else none
  | .chan va fpa (.fab v ma) inst sc d c =>
    let o := ma % 128
    let k := (numAt bs (o + 4) 4 + 2 ^ 32 - inst.toNat) % 2 ^ 32
    if 1 ≤ k ∧ k < 2 ^ 31 then
      let st := numAt bs (o + 8) 4 % 4
      some (wr1 l d (BitVec.ofNat 32 (st * 256)) ++ wrP l c (decide (st = 0)), some ⟨sc, va.toNat + 4, fpa + 4, .fab v (ma + 4)⟩)
    else none
  | .acq .. | .bar .. | .chan .. | .none | .k _ | .tags .. | .launch .. | .cjoin | .sleep _ | .fetch _ | .pri _ | .moving _ | .walk _
  | .woken | .satisfied .. => none

/-- A wait whose request has arrived at a peer's cell: whether it watches a sync cell's VALUE is decided then, by KIND (14 R257). -/
def Wait.arrived (w : Wait) (bs : List Byte) : Wait :=
  match w with
  | .acq cnt va fpa t cmp wide b sc d c _ => .acq cnt va fpa t cmp wide b sc d c (isCellAddr va.toNat && !bitOf (numAt bs 12 2) 8)
  | .none | .k _ | .bar .. | .chan .. | .tags .. | .launch .. | .cjoin | .sleep _ | .fetch _ | .pri _ | .moving _ | .walk _ | .woken
  | .satisfied .. => w

/-- One lane's watch of a peer's block is answered. At the arrival of a BARWT the group's membership entry is refreshed, and a cell whose
KIND is 0 becomes BROKEN (14 R257, 15 R278, R279). -/
def State.watchedLane (s : State) (gk l : Nat) (bs : List Byte) (first : Bool) : State :=
  let g := s.group gk
  let w := if first then ((g.lane l).wait).arrived bs else (g.lane l).wait
  let s := s.setGroup gk (g.withCkpt (fun g => g.modLane l (fun x => { x with wait := w })))
  let (s, unset) := match w, first with
    | .bar va _ t _ _ _ _, true =>
      let s := s.setGroup gk ((s.group gk).touchMember s.clock va t (numAt bs 40 4))
      if bitOf (numAt bs 12 2) 8 then (s, false) else (s.breakAway gk t.block 12 (.atom 6 4 1 0 false), true)
    | _, _ => (s, false)
  match fabWait w bs (unset || bitOf (numAt bs 12 2) 0) l with
  | some (ws, acq) =>
    let s := match acq, s.homeOf gk with
      | some a, some (tm, pl, core) => s.acquire core tm.func pl a
      | _, _ => s
    s.wakeLane gk l ws
  | none => s

/-- The watches of an instruction in one block are answered: each lane of it that still waits there wakes or waits on, and the request is
made again for those that do, unless their plane is being saved (21 R366). -/
def State.watched (s : State) (core func gk tok : Nat) (lanes : List Nat) (first : Bool) (vdn base : Nat) (bs : List Byte) : State :=
  let here (s : State) (l : Nat) : Bool :=
    let x := (s.group gk).lane l
    decide (x.wtok = tok) && (match x.wait.target with | some (.fab v ma) => decide (v = vdn) && decide (ma / 128 * 128 = base) | _ => false)
  let s := lanes.foldl (fun s l => if here s l then s.watchedLane gk l bs first else s) s
  let left := lanes.filter (here s)
  if left = [] ∨ (s.team? (gk / 32)).any s.savingTeam then s
  else s.requestLater core func vdn 1 base [] (.watch gk tok left false)

/-- The old values and results of the operations of a request come for the lanes that made them (R269, R277, R278). -/
def State.opsCame (s : State) (gk tok size : Nat) (d : RegCode) (cc : Option RegCode) (lanes : List (Nat × Nat))
    (acq : Option Scope) (ops : List HomeOp) (va : DWord) (p : Packet) : State :=
  let len := match ops with | op :: _ => op.answerLen | [] => 17
  let res (i : Nat) : Nat × Bool := (numAt p.payload (len * i) (min len 16), decide (numAt p.payload (len * i + 16) 1 = 1))
  let ls := lanes.map (fun (x : Nat × Nat) => x.1)
  let t : Tgt := .fab p.src p.addr
  if size = 0 then
    let (v, ok) := res 0
    let ws := match cc with
      | some c => ls.flatMap (fun l => wr1 l d (BitVec.ofNat 32 v) ++ wrP l c ok)
      | none => []
    let s := s.supplyAll gk tok ws
    let s := if ok then s.remoteAcquire gk acq va.toNat t else s
    let s := match ops with
      | [.barArrive _] => s.setGroup gk ((s.group gk).touchMember s.clock va (.fab p.src (p.addr + va.toNat % 128)) (v / 2 ^ 32))
      | [.barInit _] => s.wakeBroken (.fab p.src (p.addr + va.toNat % 128))
      | _ => s
    s.remoteDone gk tok ls
  else
    let ws := (lanes.zipIdx).flatMap (fun (x : (Nat × Nat) × Nat) => sizedWrites size x.1.1 d (res x.2).1
      (if p.stat = 3 then some (va + BitVec.ofNat 64 x.1.2) else none))
    let s := (s.supplyAll gk tok ws).remoteAcquire gk acq va.toNat t
    s.remoteDone gk tok ls

/-- A peer refuses the increment of a grid's counter: it is lost (08 R143). `x` names the grid's function, its queue and its
counter. -/
def State.gridRefused (s : State) (x : Nat) : State :=
  let f := x % 128
  let q := x / 128 % 64
  (s.setErr f q 7).post f q 0x14 [(16, 8, x / 8192), (24, 1, 3)]

/-- A response completes the request of a slot, which is free already: `p` carries what all its packets were answered. -/
def State.complete (s : State) (core : Nat) (r : RReq) (p : Packet) : State :=
  let there (gk : Nat) : Bool := (tfind s.groups gk).isSome
  match r.what with
  | .load gk tok sz d lanes va acq fill =>
    if !there gk then s else
    let n := ldBytes sz
    let ws := lanes.flatMap (fun (x : Nat × Nat) =>
      ldWrites sz x.1 d (ofLE ((p.payload.drop x.2).take n)) (if p.stat = 3 then some (va + BitVec.ofNat 64 x.2) else none))
    let s := s.supplyAll gk tok ws
    let s := match fill with | some f => s.installFab core f p | none => s
    let s := s.remoteAcquire gk acq va.toNat (.fab p.src p.addr)
    s.remoteDone gk tok (lanes.map (fun (x : Nat × Nat) => x.1))
  | .op gk tok size d cc lanes acq ops va => if !there gk then s else s.opsCame gk tok size d cc lanes acq ops va p
  | .watch gk tok lanes first => if !there gk then s else s.watched core r.func gk tok lanes first p.src p.addr p.payload
  | .fetch func line =>
    (match (s.core core).fetches.find? (fun f => decide (f.func = func) && decide (f.line = line)) with
     | none => s
     | some f =>
       let off := match f.tgt with | .fab _ ma => ma % 128 | .loc _ | .host _ | .notify .. => 0
       let s := s.lineCame core f ((p.payload.drop off).take 64)
       if (s.core core).fetches.any (fun g => decide (g.func = func) && decide (g.line = line)) then
         s.requestLater core func p.src 1 p.addr [] (.fetch func line)
       else s)
  | .pref _ _ f => s.installFab core f p
  | .recd gk vdn ma =>
    if !there gk then s else
    let g := s.group gk
    s.setGroup gk { g with rbuf := g.rbuf ++ [(vdn, ma, p.payload)] }
  | .dev func vdn ma =>
    let f := s.func func
    s.setFunc func { f with devBuf := f.devBuf ++ [(vdn, ma, p.payload)] }
  | .card _ id vdn ma =>
    s.mapCards (fun c => if c.id = id then
      { c with buf := tput 0 (writeBytes c.buf (bufKey vdn ma) p.payload) (bufKey vdn ma + 2 ^ 80) (if p.stat = 3 then 2 else 1) } else c)
  | .cardCtr die id => if die < 2 then s.mapCards (fun c => if c.id = id then { c with ctrDone := some (ofLE (p.payload.take 16)) } else c) else s

/-- A request is sent again after MOVED, under the sender's current epoch (R422, 27 R459). -/
def State.resend (s : State) (p : Packet) : State × Packet := s.emit { p with sealed := none, stat := 0 }

/-- The answer to a packet of the request of a slot: once every packet is answered the slot is free and the request complete. After MOVED
the packet is sent again, where the VDN table, read anew, still routes it (R420, R422). -/
def State.slotAnswer (s : State) (core : Nat) (p : Packet) : State :=
  let i := ridPeer p.rid
  let j := ridSlot p.rid
  match tfind (s.core core).peers i with
  | none => s
  | some e =>
    match tfind e.slots j with
    | none => s
    | some r =>
      let n := p.addr % 128
      match tfind r.pkts n with
      | none => s
      | some pkt =>
        let put (s : State) (r : RReq) : State := s.setPeer core i { e with slots := tset e.slots j r }
        let free (s : State) : State := s.setPeer core i { e with slots := tdel e.slots j }
        if e.vdn ≠ p.src ∨ pkt.addr ≠ p.addr then s
        else if p.stat = 1 ∧ s.routes e.vdn then
          let (s, q) := s.resend pkt
          put s { r with pkts := tset r.pkts n q, since := s.clock, movedAt := some (r.movedAt.getD s.clock) }
        else if p.stat = 1 ∨ p.stat = 2 then
          let s := free s
          (match r.what with
           | .cardCtr 2 x => (s.gridRefused x).sendLater core
           | .load .. | .op .. | .watch .. | .fetch .. | .pref .. | .recd .. | .dev .. | .card .. | .cardCtr .. => s.remoteViol core r.func 8 pkt.addr)
        else
          let r := { r with pkts := tdel r.pkts n, got := tset r.got n p.payload, marked := r.marked || decide (p.stat = 3) }
          if r.pkts ≠ [] then put s r else
          let all := { p with addr := p.addr / 128 * 128, stat := if r.marked then 3 else 0,
                              payload := (List.range r.got.length).flatMap (fun k => tget [] r.got k) }
          (((free s).complete core r all).sendLater core).fencesDone core

/-- The acknowledgement of a store: that of the oldest one to its block. -/
def State.storeAnswer (s : State) (core : Nat) (p : Packet) : State :=
  let i := ridPeer p.rid
  match tfind (s.core core).peers i with
  | none => s
  | some e =>
    match findIdx (fun (r : RStore) => decide (r.pkt.addr = p.addr)) e.stores with
    | none => s
    | some (k, r) =>
      if e.vdn ≠ p.src then s
      else if p.stat = 1 ∧ s.routes e.vdn then
        let (s, q) := s.resend r.pkt
        s.setPeer core i { e with stores := updAt (fun _ => { r with pkt := q, movedAt := some (r.movedAt.getD s.clock) }) e.stores k }
      else
        let s := s.setPeer core i { e with stores := delAt e.stores k }
        let s := s.sendLater core
        if p.stat = 1 ∨ p.stat = 2 then s.remoteViol core r.func 8 r.pkt.addr
        else if r.what.gk = fqKey then s.fqAcked r.func r.what.tok
        else (if (tfind s.groups r.what.gk).isSome then s.finishToks [r.what] else s).fencesDone core

/-- The answer to a migration copy (23 R396): the copy is acknowledged, or the migration fails before step 6, or a reset of the function at the
destination abandons it (R406). -/
def State.copyAnswer (s : State) (p : Packet) : State :=
  match s.migs.find? (fun (e : Nat × Mig) => decide (e.2.peer = p.src) && decide (1 ≤ e.2.st) && decide (e.2.st ≤ 4) &&
      decide ((match e.2.vdn with | some v => v | none => ((s.func e.2.func).vdn).getD 0) = p.dst)) with
  | none => s
  | some (m, x) =>
    if p.stat = 0 then { s with migs := tput {} s.migs m { x with unacked := x.unacked - 1, last := s.clock } }
    else
      { s with migs := tput {} s.migs m { x.quiet with st := 7 },
               wins := s.wins.filter (fun w => w.func ≠ x.func) }.post 0 0xFF 0x50 [(16, 1, m), (17, 1, 7)]

/-- A response reaches the device (R422 to R425); one for a requester elsewhere passes through the source of a migration (23
R405). -/
def execRemoteResponseReceive (p : Packet) (s : State) : Host.Outcome State Fault Refusal :=
  .next (if pktSound p = true ∧ p.type = 0x31 then s.copyAnswer p
    else if pktSound p = false ∨ p.type < 0x10 ∨ 0x13 < p.type ∨ 3 < p.stat then s.countErr p
    else match s.funcOfVdn p.dst with
      | none => (match s.fwd.find? (answers p) with
        | some q => { s.out { p with vc := 3 } with fwd := s.fwd.erase q }
        | none => s.countErr p)
      | some f =>
        let s := match s.fwd.find? (answers p) with | some q => { s with fwd := s.fwd.erase q } | none => s
        match (s.countFabric p.dst (16 + p.payload.length)).verify f p with
        | (.drop, s) => s
        | (.denied, s) => s
        | (.ok, s) => if p.type = 0x11 then s.storeAnswer (ridCore p.rid) p else s.slotAnswer (ridCore p.rid) p)

/-! ### Time limits (R422, R426) -/

/-- The address of a request, that of its first packet that is not answered. -/
def RReq.addr (r : RReq) : Nat := match r.pkts with | (_, p) :: _ => p.addr | [] => 0

/-- MOVED for longer than 1 ms: the slot `i` of the core, by 8 × entry + slot, or 128 + entry for its stores. -/
def execMovedTimeout (core i : Nat) (s : State) : Host.Outcome State Fault Refusal :=
  let k := s.core core
  let late (m : Option Nat) : Bool := match m with | some t => decide (t + 4000000 ≤ s.clock) | none => false
  .next (if 128 ≤ i then
      match tfind k.peers (i - 128) with
      | none => s
      | some e => match e.stores.find? (fun r => late r.movedAt) with
        | some r => s.remoteViol core r.func 9 r.pkt.addr
        | none => s
    else
      match (tfind k.peers (i / 8)).bind (fun e => tfind e.slots (i % 8)) with
      | some r => if late r.movedAt then s.remoteViol core r.func 9 r.addr else s
      | none => s)

/-- A slot held for 2 ms with no response: a violation, and the slot is free. -/
def execResponseSlotTimeout (core i : Nat) (s : State) : Host.Outcome State Fault Refusal :=
  .next (match tfind (s.core core).peers (i / 8) with
    | none => s
    | some e => match tfind e.slots (i % 8) with
      | none => s
      | some r =>
        if r.since + 8000000 ≤ s.clock then
          ((s.setPeer core (i / 8) { e with slots := tdel e.slots (i % 8) }).remoteViol core r.func 10 r.addr).sendLater core
        else s)

/-! ### The fabric manager (R419 to R421) and the ports (R416, R420) -/

/-- FM_VDN_BIND: a VDN names one function; a bound VDN is no longer one that has moved away. -/
def execFmVdnBind (func vdn : Nat) (s : State) : Host.Outcome State Fault Refusal :=
  .next (if 127 < func ∨ 4095 < vdn ∨ s.funcs.any (fun (e : Nat × Func) => decide (e.2.vdn = some vdn) && decide (e.1 ≠ func)) = true then s
    else
      let f := s.func func
      { s.setFunc func { f with vdn := some vdn } with movedVdns := s.movedVdns.filter (fun v => v ≠ vdn) })

/-- FM_VDN_TABLE_WRITE: one whole entry of Table 25-3. -/
def execFmVdnTableWrite (vdn v : Nat) (s : State) : Host.Outcome State Fault Refusal :=
  .next (if 4095 < vdn then s else
    { s with vdnTable := tput {} s.vdnTable vdn { ports := BitVec.ofNat 64 (bits v 127 64), valid := bitOf v 63, accept := bitOf v 62 } })

/-- FM_REDIRECT_WRITE: one entry of Table 25-4. -/
def execFmRedirectWrite (i v : Nat) (s : State) : Host.Outcome State Fault Refusal :=
  .next (if 1023 < i then s else
    { s with redirect := tput {} s.redirect i { vdn := bits v 127 116, w := bitOf v 113, r := bitOf v 112, old := bits v 111 76,
                                                new := bits v 75 40, len := bits v 39 8, valid := bitOf v 0 } })

/-- AIRAN_PORT_CHANGE: a port works or does not. -/
def execAiranPortChange (port : Nat) (up : Bool) (s : State) : Host.Outcome State Fault Refusal :=
  .next (if 63 < port then s else
    { s with ports := if up then s.ports ||| (1#64 <<< port) else s.ports &&& ~~~(1#64 <<< port) })

end Sys2Proof.Machine
end

