-- ==== Sys2Proof/Machine/Domain.lean ====
section
/-!
DEFINITION. Attested trust domains as a device takes part in them (27 R450, R451, R455, R457 to R460). The exchanges between
Keystone pairs are its events: admission, the keys of a rekey, arrivals at its barrier, DONE.
-/
namespace Sys2Proof.Machine

def State.domAt (s : State) (dom : Nat) : Dom := tget {} s.doms dom
def State.setDom (s : State) (dom : Nat) (d : Dom) : State := { s with doms := tput {} s.doms dom d }

/-- DOMSTAT of a function (Table 27-4). -/
def State.domstat (s : State) (func : Nat) : Nat :=
  let f := s.func func
  let d := s.domAt f.dom
  f.domState * 65536 + (if d.rekey.isSome then 32768 else 0) + d.epoch % 4 * 4096 + f.dom % 4096

/-- DOMSTAT.STATE of a function becomes `st`, with the event of a change (R460). -/
def State.domMove (s : State) (func dom st : Nat) : State :=
  let f := s.func func
  let s' := s.setFunc func { f with domState := st, dom := dom }
  if f.domState = st then s' else s'.post func 0xFF 0x51 [(16, 4, s'.domstat func)]

/-- DOMAIN_JOIN: the outcome of R451 for a function, with the domain's members as the leader gives them and the epoch of the key
that comes with it. -/
def execDomainJoin (func dom epoch : Nat) (ok pre leads : Bool) (members : List Nat) (s : State) :
    Host.Outcome State Fault Refusal :=
  let f := s.func func
  let other := (decide (f.domState = 1) || decide (f.domState = 2)) && decide (f.dom ≠ dom)
  .next (if other || decide (127 < func) || decide (4095 < dom) || decide (512 < members.length) then s
    else if !ok then s.domMove func dom 3
    else
      let known := (tfind s.doms dom).isSome
      let d := s.domAt dom
      let s := s.setDom dom { d with members := members, leader := leads, epoch := if known then d.epoch else epoch }
      if pre then s.domMove func dom 1
      else
        let s := s.domMove func dom 2
        let s := if f.domState = 2 then s else
          let x := s.func func
          s.setFunc func { x with seqs := [], replay := [] }
        { s with agenda := s.agenda ++ [.rekeyStart dom] })

/-- DOMAIN_LEAVE: a function leaves its domain; a device with no member left leads no more (R450). -/
def execDomainLeave (func : Nat) (s : State) : Host.Outcome State Fault Refusal :=
  let f := s.func func
  let d := s.domAt f.dom
  let others (p : Func → Bool) : Bool := s.funcs.any (fun (e : Nat × Func) => decide (e.1 ≠ func) && decide (e.2.dom = f.dom) && p e.2)
  let rest := others (fun x => decide (x.domState = 2))
  let held := others (fun x => decide (x.domState = 1) || decide (x.domState = 2))
  .next (if f.domState = 0 then s
    else
      let s := if f.domState ≠ 2 then s else
        { s.setDom f.dom { d with members := d.members.filter (fun v => some v ≠ f.vdn) } with agenda := s.agenda ++ [.rekeyStart f.dom] }
      let s := if !rest && d.leader && decide (f.domState = 2) then
          let x := s.domAt f.dom
          s.setDom f.dom { x with leader := false } else s
      let s := s.domMove func f.dom 0
      if held then s else { s with doms := tdel s.doms f.dom })

/-- REKEY_START: the leader begins a rekey, or lets one follow that which is in progress (R458). -/
def execRekeyStart (dom : Nat) (s : State) : Host.Outcome State Fault Refusal :=
  let d := s.domAt dom
  .next (if !d.leader then s
    else if d.rekey.isSome then s.setDom dom { d with again := true }
    else { s.setDom dom { d with rekey := some [] } with agenda := s.agenda ++ [.keyInstall dom] })

/-- The member functions of a domain on this device. -/
def State.localMembers (s : State) (dom : Nat) : List Nat :=
  (s.funcs.filter (fun (e : Nat × Func) => decide (e.2.domState = 2) && decide (e.2.dom = dom))).map (fun (e : Nat × Func) => e.1)

/-- What a collective card has sent that is not answered: a request for a slot, and pushes that have not come back as results. -/
def Card.pushesOut (c : Card) : Bool × Nat :=
  if c.maj = 0xE0 then (decide (c.done = 1), if c.done = 3 then c.tile0 + 1 else 0)
  else (decide (c.phase = 1), if c.got.length < c.done then c.done else 0)

/-- One of those that a domain waits for is still unanswered. -/
def State.pushOut (s : State) (e : Nat × Bool × Nat) : Bool :=
  match s.allCards.find? (fun c => decide (c.id = e.1)) with
  | none => false
  | some c => (match c.st with
    | .finished _ => false
    | .formed | .waiting | .ready _ | .running _ | .paused .. =>
      (e.2.1 && c.pushesOut.1) ||
        (if c.maj = 0xE0 then decide (e.2.2 ≠ 0) && decide (c.pushesOut.2 = e.2.2) else (c.range.take e.2.2).any (fun k => !c.got.contains k)))

/-- KEY_INSTALL: the key of the next epoch is installed, and every sender switches to it (R455, R458): its counters are 0, and
what waited to be sealed leaves. -/
def execKeyInstall (dom : Nat) (s : State) : Host.Outcome State Fault Refusal :=
  let d := s.domAt dom
  .next (if d.switched || decide (s.localMembers dom = []) then s
    else
      let mine := s.allCards.filter (fun c => decide (0xE0 ≤ c.maj) && (s.localMembers dom).contains c.func)
      let s := { s.setDom dom { d with rekey := some (d.rekey.getD []), switched := true,
                                       pushes := (mine.map (fun c => (c.id, c.pushesOut))).filter (fun e => e.2.1 || decide (e.2.2 ≠ 0)) } with
        sw := { s.sw with seq := tput 0 s.sw.seq dom 0 } }
      let s := (s.localMembers dom).foldl (fun s f => let x := s.func f; s.setFunc f { x with seqs := [] }) s
      let wait := s.sealWait
      wait.foldl (fun (s : State) p => s.send p) { s with sealWait := [] })

/-- Packets that a function sealed under an epoch have no answer yet. -/
def State.sealedOut (s : State) (func epoch : Nat) : Bool :=
  let old (p : Packet) : Bool := match p.sealed with | some (k, _) => decide (k = epoch % 4) | none => false
  s.cores.any (fun (c : Nat × Core) => c.2.peers.any (fun (e : Nat × Peer) =>
    e.2.slots.any (fun (q : Nat × RReq) => decide (q.2.func = func) && q.2.pkts.any (fun (k : Nat × Packet) => old k.2)) ||
    e.2.stores.any (fun r => decide (r.func = func) && old r.pkt)))

/-- Whether a member may arrive at the rekey barrier (R458 step 3): one of this device when it has switched and nothing of it is
out under the old epoch; one whose traffic this device forwards not before the window ends. -/
def State.mayArrive (s : State) (dom member : Nat) : Bool :=
  let d := s.domAt dom
  d.switched && !s.forwards member && !s.fwd.any (fun p => decide (p.dst = member)) && (match s.funcOfVdn member with
    | some f => !s.sealedOut f d.epoch && !d.pushes.any (fun e => s.pushOut e && s.allCards.any (fun c => decide (c.id = e.1) && decide (c.func = f)))
    | none => true)

/-- Every member has arrived. -/
def Dom.allHere (d : Dom) : Bool := match d.rekey with | some l => d.members.all (fun v => l.contains v) | none => false

/-- REKEY_BARRIER_ARRIVAL. -/
def execRekeyBarrierArrival (dom member : Nat) (s : State) : Host.Outcome State Fault Refusal :=
  let d := s.domAt dom
  .next (match d.rekey with
    | none => s
    | some l =>
      if !d.members.contains member || l.contains member || !s.mayArrive dom member then s
      else s.setDom dom { d with rekey := some (l ++ [member]) })

/-- REKEY_DONE: the old epoch is retired with its replay windows (R458 step 4). The leader sends it when every member has
arrived. -/
def execRekeyDone (dom : Nat) (s : State) : Host.Outcome State Fault Refusal :=
  let d := s.domAt dom
  .next (if d.rekey.isNone || !d.switched || (d.leader && !d.allHere) then s
    else
      let s := s.setDom dom { d with epoch := d.epoch + 1, rekey := none, switched := false, again := false, pushes := [] }
      let s := { s with sw := { s.sw with replay := s.sw.replay.filter (fun (w : Nat × Nat × Nat) =>
                          !(decide (w.1 / 16384 = d.epoch) && d.members.contains (w.1 % 4096))) } }
      let s := (s.localMembers dom).foldl (fun s f =>
        let x := s.func f
        s.setFunc f { x with replay := x.replay.filter (fun (w : Nat × Nat × Nat) => decide (w.1 / 16384 ≠ d.epoch)) }) s
      if d.again then { s with agenda := s.agenda ++ [.rekeyStart dom] } else s)

/-- SEQ_EXHAUSTED: the Keystone pair asks the leader for a rekey (R455). -/
def execSeqExhausted (dom : Nat) (s : State) : Host.Outcome State Fault Refusal :=
  let out := (s.localMembers dom).any (fun f => (s.func f).seqs.any (fun (e : Nat × Nat) => decide (2 ^ 63 ≤ e.2)))
  if out then execRekeyStart dom s else .next s

end Sys2Proof.Machine
end

