-- ==== Sys2Proof/Machine/Int.lean ====
section
/-!
DEFINITION. Integer, logical and address instructions (03, MAJ 0x01 to 0x2D). Each value is a function of the operands;
none of them traps on a value (R53).
-/
namespace Sys2Proof.Machine

/-- s32, u32, s64, u64 of R52 are `BitVec.toInt` and `BitVec.toNat`; `clampI` is clamp. -/
def clampI (x lo hi : Int) : Int := if x < lo then lo else if hi < x then hi else x

def w32 (x : Int) : Word := BitVec.ofInt 32 x

/-! ### Moves (R57, R58) -/

def execMov (h : Hdr) (wide : Bool) (d : RegCode) (a : Src) (s : State) : Host.Outcome State Fault Refusal :=
  alu (.mov h wide d a) (fun c l => if wide then wr64 l d (c.src2 l a) else wr1 l d (c.src l a)) s

/-- MOVS and MOVSW read a special register once for the whole cohort (08 R144); an unassigned code is ILLEGAL. -/
def execMovs (h : Hdr) (d : RegCode) (code : BitVec 12) (s : State) : Host.Outcome State Fault Refusal :=
  issueI (.movs h d code) { ill := fun _ => !specialAssigned code.toNat } (fun inf c =>
    .ok { s := c.s, wr := c.lanes.flatMap (fun l => wr1 l d ((c.special code.toNat l).setWidth 32)), mode := .fixed inf.lat }) s

def execMovsw (h : Hdr) (d : RegCode) (code : BitVec 12) (s : State) : Host.Outcome State Fault Refusal :=
  issueI (.movsw h d code) { ill := fun _ => !specialAssigned code.toNat } (fun inf c =>
    .ok { s := c.s, wr := c.lanes.flatMap (fun l => wr64 l d (c.special code.toNat l)), mode := .fixed inf.lat }) s

/-! ### Addition and subtraction (R59, R60) -/

/-- IADD (R59). -/
def iaddVal (m : SatMode) (a b : Word) : Word :=
  match m with
  | .wrap => a + b
  | .sat => w32 (clampI (a.toInt + b.toInt) (-2 ^ 31) (2 ^ 31 - 1))
  | .usat => w32 (clampI ((a.toNat : Int) + b.toNat) 0 (2 ^ 32 - 1))

/-- ISUB (R59). -/
def isubVal (m : SatMode) (a b : Word) : Word :=
  match m with
  | .wrap => a - b
  | .sat => w32 (clampI (a.toInt - b.toInt) (-2 ^ 31) (2 ^ 31 - 1))
  | .usat => w32 (clampI ((a.toNat : Int) - b.toNat) 0 (2 ^ 32 - 1))

def execIadd (h : Hdr) (m : SatMode) (d a : RegCode) (b : Src) (s : State) : Host.Outcome State Fault Refusal :=
  alu (.iadd h m d a b) (fun c l => wr1 l d (iaddVal m (c.r1 l a) (c.src l b))) s

def execIsub (h : Hdr) (m : SatMode) (d a : RegCode) (b : Src) (s : State) : Host.Outcome State Fault Refusal :=
  alu (.isub h m d a b) (fun c l => wr1 l d (isubVal m (c.r1 l a) (c.src l b))) s

/-- IADDX (R60): the sum and the carry out, with the carry in that FN selects. -/
def iaddxVal (m : CarryMode) (cin : Bool) (a b : Word) : Word × Bool :=
  match m with
  | .add => addCarry false a b false
  | .addc _ => addCarry false a b cin
  | .sub => addCarry true a b true
  | .subc _ => addCarry true a b cin

/-- P[C], where the variant reads it. -/
def carryIn (m : CarryMode) (c : Ctx) (l : Nat) : Bool :=
  match m with
  | .addc p | .subc p => c.rp l p
  | .add | .sub => false

def execIaddx (h : Hdr) (m : CarryMode) (d a b : RegCode) (pout : BitVec 3) (s : State) : Host.Outcome State Fault Refusal :=
  alu (.iaddx h m d a b pout) (fun c l =>
    let r := iaddxVal m (carryIn m c l) (c.r1 l a) (c.r1 l b)
    wr1 l d r.1 ++ wrP l (pout.setWidth 8) r.2) s

/-! ### Multiplication and division (R61, R62) -/

def execImul (h : Hdr) (d a : RegCode) (b : Src) (s : State) : Host.Outcome State Fault Refusal :=
  alu (.imul h d a b) (fun c l => wr1 l d (c.r1 l a * c.src l b)) s

/-- Bits [63:32] of the exact product (R61). -/
def imulhVal (m : HiMode) (a b : Word) : Word :=
  match m with
  | .s => w32 (a.toInt * b.toInt / 2 ^ 32)
  | .u => BitVec.ofNat 32 (a.toNat * b.toNat / 2 ^ 32)
  | .su => w32 (a.toInt * b.toNat / 2 ^ 32)

def execImulh (h : Hdr) (m : HiMode) (d a : RegCode) (b : Src) (s : State) : Host.Outcome State Fault Refusal :=
  alu (.imulh h m d a b) (fun c l => wr1 l d (imulhVal m (c.r1 l a) (c.src l b))) s

def execImad (h : Hdr) (d a : RegCode) (b : Src) (cc : RegCode) (s : State) : Host.Outcome State Fault Refusal :=
  alu (.imad h d a b cc) (fun c l => wr1 l d (c.r1 l a * c.src l b + c.r1 l cc)) s

/-- IMADW (R61): the exact product plus the pair C, modulo 2^64. -/
def imadwVal (sg : Bool) (a b : Word) (c : DWord) : DWord :=
  (if sg then BitVec.ofInt 64 (a.toInt * b.toInt) else BitVec.ofNat 64 (a.toNat * b.toNat)) + c

def execImadw (h : Hdr) (sg : Bool) (d a : RegCode) (b : Src) (cc : RegCode) (s : State) : Host.Outcome State Fault Refusal :=
  alu (.imadw h sg d a b cc) (fun c l => wr64 l d (imadwVal sg (c.r1 l a) (c.src l b) (c.r2 l cc))) s

/-- IDIV (R62): truncation towards zero, with the special cases for B = 0 and for overflow. -/
def idivVal (sg : Bool) (a b : Word) : Word :=
  if b = 0 then 0xFFFFFFFF
  else if sg then w32 (a.toInt.tdiv b.toInt) else BitVec.ofNat 32 (a.toNat / b.toNat)

/-- IREM (R62). -/
def iremVal (sg : Bool) (a b : Word) : Word :=
  if b = 0 then a
  else if sg then w32 (a.toInt.tmod b.toInt) else BitVec.ofNat 32 (a.toNat % b.toNat)

/-- A division issues: its result is computed from the operands read now, and lands at DIVISION_COMPLETE (R55). -/
def divide (i : Instr) (f : Ctx → Nat → List Wr) (s : State) : Host.Outcome State Fault Refusal :=
  issueI i {} (fun _ c =>
    .ok { s := (c.s.setGroup c.gk { c.g with divs := if c.act = 0 then c.g.divs else c.g.divs ++ [c.s.nextTok] }).newTok,
          wr := c.lanes.flatMap (f c), mode := .pend c.s.nextTok true,
          out := if c.act = 0 then none else some (c.s.nextTok, c.act) }) s

def execIdiv (h : Hdr) (sg : Bool) (d a : RegCode) (b : Src) (s : State) : Host.Outcome State Fault Refusal :=
  divide (.idiv h sg d a b) (fun c l => wr1 l d (idivVal sg (c.r1 l a) (c.src l b))) s

def execIrem (h : Hdr) (sg : Bool) (d a : RegCode) (b : Src) (s : State) : Host.Outcome State Fault Refusal :=
  divide (.irem h sg d a b) (fun c l => wr1 l d (iremVal sg (c.r1 l a) (c.src l b))) s

/-! ### Minimum, maximum, absolute value (R63) -/

def iminVal (sg : Bool) (a b : Word) : Word := if (if sg then a.sle b else a.ule b) then a else b
def imaxVal (sg : Bool) (a b : Word) : Word := if (if sg then b.sle a else b.ule a) then a else b

def execImin (h : Hdr) (sg : Bool) (d a : RegCode) (b : Src) (s : State) : Host.Outcome State Fault Refusal :=
  alu (.imin h sg d a b) (fun c l => wr1 l d (iminVal sg (c.r1 l a) (c.src l b))) s

def execImax (h : Hdr) (sg : Bool) (d a : RegCode) (b : Src) (s : State) : Host.Outcome State Fault Refusal :=
  alu (.imax h sg d a b) (fun c l => wr1 l d (imaxVal sg (c.r1 l a) (c.src l b))) s

def iabsVal (sat : Bool) (a : Word) : Word :=
  let x : Int := if a.toInt < 0 then -a.toInt else a.toInt
  if sat then w32 (clampI x 0 (2 ^ 31 - 1)) else w32 x

def execIabs (h : Hdr) (sat : Bool) (d a : RegCode) (s : State) : Host.Outcome State Fault Refusal :=
  alu (.iabs h sat d a) (fun c l => wr1 l d (iabsVal sat (c.r1 l a))) s

/-! ### Logic (R64, R65) -/

def execAnd (h : Hdr) (d a : RegCode) (b : Src) (s : State) : Host.Outcome State Fault Refusal :=
  alu (.and h d a b) (fun c l => wr1 l d (c.r1 l a &&& c.src l b)) s

def execOr (h : Hdr) (d a : RegCode) (b : Src) (s : State) : Host.Outcome State Fault Refusal :=
  alu (.or h d a b) (fun c l => wr1 l d (c.r1 l a ||| c.src l b)) s

def execXor (h : Hdr) (d a : RegCode) (b : Src) (s : State) : Host.Outcome State Fault Refusal :=
  alu (.xor h d a b) (fun c l => wr1 l d (c.r1 l a ^^^ c.src l b)) s

def execAndn (h : Hdr) (d a : RegCode) (b : Src) (s : State) : Host.Outcome State Fault Refusal :=
  alu (.andn h d a b) (fun c l => wr1 l d (c.r1 l a &&& ~~~(c.src l b))) s

/-- D[j] = lut[A[j] + 2 B[j] + 4 C[j]] for every bit (R65). -/
def lop3Val (lut : BitVec 8) (a b c : Word) : Word :=
  BitVec.ofBoolListLE ((List.range 32).map (fun j => lutBit lut (a.getLsbD j) (b.getLsbD j) (c.getLsbD j)))

def execLop3 (h : Hdr) (d a b cc : RegCode) (lut : BitVec 8) (s : State) : Host.Outcome State Fault Refusal :=
  alu (.lop3 h d a b cc lut) (fun c l => wr1 l d (lop3Val lut (c.r1 l a) (c.r1 l b) (c.r1 l cc))) s

/-! ### Shifts (R66 to R68) -/

/-- SAR by n: ⌊s32(A) / 2^n⌋ mod 2^32; a shift of 32 or more gives the sign in every bit. -/
def sarVal (a b : Word) : Word := a.sshiftRight (min b.toNat 32)

def execShl (h : Hdr) (d a : RegCode) (b : Src) (s : State) : Host.Outcome State Fault Refusal :=
  alu (.shl h d a b) (fun c l => wr1 l d (c.r1 l a <<< (min (c.src l b).toNat 32))) s

def execShr (h : Hdr) (d a : RegCode) (b : Src) (s : State) : Host.Outcome State Fault Refusal :=
  alu (.shr h d a b) (fun c l => wr1 l d (c.r1 l a >>> (min (c.src l b).toNat 32))) s

def execSar (h : Hdr) (d a : RegCode) (b : Src) (s : State) : Host.Outcome State Fault Refusal :=
  alu (.sar h d a b) (fun c l => wr1 l d (sarVal (c.r1 l a) (c.src l b))) s

def execRol (h : Hdr) (d a : RegCode) (b : Src) (s : State) : Host.Outcome State Fault Refusal :=
  alu (.rol h d a b) (fun c l => wr1 l d ((c.r1 l a).rotateLeft ((c.src l b).toNat % 32))) s

/-- The shift, position or selector operand: a register masked to `n` bits in FORM 00, the field of IMM in FORM 11. -/
def Ctx.sel {n : Nat} (c : Ctx) (l : Nat) (x : Sel n) : Nat :=
  match x with
  | .reg r => (c.r1 l r).toNat % 2 ^ n
  | .imm v => v.toNat

/-- FSHF on V = B:A (R67). -/
def fshfVal (right : Bool) (a b : Word) (n : Nat) : Word :=
  let v := b.toNat * 2 ^ 32 + a.toNat
  if right then BitVec.ofNat 32 (v / 2 ^ n) else BitVec.ofNat 32 (v * 2 ^ n / 2 ^ 32)

def execFshf (h : Hdr) (right : Bool) (d a b : RegCode) (n : Sel 5) (s : State) : Host.Outcome State Fault Refusal :=
  alu (.fshf h right d a b n) (fun c l => wr1 l d (fshfVal right (c.r1 l a) (c.r1 l b) (c.sel l n))) s

/-! ### Bit counts and fields (R69 to R71) -/

def popcVal (a : Word) : Word := BitVec.ofNat 32 (popAux 32 a.toNat)

/-- Zero bits above the highest 1 bit; 32 for 0. -/
def clzVal (a : Word) : Word :=
  BitVec.ofNat 32 (match (List.range 32).find? (fun j => a.getLsbD (31 - j)) with | some j => j | none => 32)

def brevVal (a : Word) : Word := BitVec.ofBoolListLE ((List.range 32).map (fun j => a.getLsbD (31 - j)))

def execPopc (h : Hdr) (d a : RegCode) (s : State) : Host.Outcome State Fault Refusal :=
  alu (.popc h d a) (fun c l => wr1 l d (popcVal (c.r1 l a))) s

def execClz (h : Hdr) (d a : RegCode) (s : State) : Host.Outcome State Fault Refusal :=
  alu (.clz h d a) (fun c l => wr1 l d (clzVal (c.r1 l a))) s

def execBrev (h : Hdr) (d a : RegCode) (s : State) : Host.Outcome State Fault Refusal :=
  alu (.brev h d a) (fun c l => wr1 l d (brevVal (c.r1 l a))) s

/-- The effective length e of R70. -/
def effLen (pos len : Nat) : Nat := if pos < 32 then min len (32 - pos) else 0

/-- BFX (R70), `f` holding pos in bits [7:0] and len in bits [15:8]. -/
def bfxVal (sg : Bool) (a : Word) (f : Nat) : Word :=
  let pos := f % 256
  let e := effLen pos (f / 256 % 256)
  let x := a.toNat / 2 ^ pos % 2 ^ e
  if sg && decide (0 < e) && decide (2 ^ (e - 1) ≤ x) then w32 ((x : Int) - 2 ^ e) else BitVec.ofNat 32 x

/-- BFI (R70). -/
def bfiVal (a b : Word) (f : Nat) : Word :=
  let pos := f % 256
  let e := effLen pos (f / 256 % 256)
  let m : Word := BitVec.ofNat 32 ((2 ^ e - 1) * 2 ^ pos)
  (b &&& ~~~m) ||| (BitVec.ofNat 32 (a.toNat * 2 ^ pos) &&& m)

def execBfx (h : Hdr) (sg : Bool) (d a : RegCode) (f : Sel 16) (s : State) : Host.Outcome State Fault Refusal :=
  alu (.bfx h sg d a f) (fun c l => wr1 l d (bfxVal sg (c.r1 l a) (c.sel l f))) s

def execBfi (h : Hdr) (d a b : RegCode) (f : Sel 16) (s : State) : Host.Outcome State Fault Refusal :=
  alu (.bfi h d a b f) (fun c l => wr1 l d (bfiVal (c.r1 l a) (c.r1 l b) (c.sel l f))) s

def brev8 (v : Nat) : Nat := (List.range 8).foldl (fun x k => x + (if bitOf v k then 2 ^ (7 - k) else 0)) 0

/-- One byte of PRMT by its selector field (Table 3-6). -/
def prmtByte (v f : Nat) : Nat :=
  let b := v / 256 ^ (f % 8) % 256
  match f / 8 with
  | 0 => b
  | 1 => if 128 ≤ b then 255 else 0
  | 2 => 0
  | _ => brev8 b

/-- PRMT (R71). -/
def prmtVal (a b : Word) (sel : Nat) : Word :=
  let v := b.toNat * 2 ^ 32 + a.toNat
  BitVec.ofNat 32 ((List.range 4).foldl (fun x i => x + prmtByte v (sel / 32 ^ i % 32) * 256 ^ i) 0)

def execPrmt (h : Hdr) (d a b : RegCode) (f : Sel 20) (s : State) : Host.Outcome State Fault Refusal :=
  alu (.prmt h d a b f) (fun c l => wr1 l d (prmtVal (c.r1 l a) (c.r1 l b) (c.sel l f))) s

/-! ### Comparison, selection, predicates (R72 to R75) -/

def execSel (h : Hdr) (wide : Bool) (d a : RegCode) (b : Src) (cc : RegCode) (s : State) : Host.Outcome State Fault Refusal :=
  alu (.sel h wide d a b cc) (fun c l =>
    if wide then wr64 l d (if c.rp l cc then c.r2 l a else c.src2 l b)
    else wr1 l d (if c.rp l cc then c.r1 l a else c.src l b)) s

def execIsetp (h : Hdr) (m : Cmp) (d a : RegCode) (b : Src) (s : State) : Host.Outcome State Fault Refusal :=
  alu (.isetp h m d a b) (fun c l => wrP l d (cmpHolds m (c.r1 l a) (c.src l b))) s

def execIcmps (h : Hdr) (m : Cmp) (d a : RegCode) (b : Src) (s : State) : Host.Outcome State Fault Refusal :=
  alu (.icmps h m d a b) (fun c l => wr1 l d (if cmpHolds m (c.r1 l a) (c.src l b) then 0xFFFFFFFF else 0)) s

def execPlop (h : Hdr) (d a b cc : RegCode) (lut : BitVec 8) (s : State) : Host.Outcome State Fault Refusal :=
  alu (.plop h d a b cc lut) (fun c l => wrP l d (lutBit lut (c.rp l a) (c.rp l b) (c.rp l cc))) s

/-- The predicates of a lane as P2G writes them (R75): bit 7 is P7. -/
def predWord (g : Group) (l : Nat) : Word :=
  BitVec.ofNat 32 ((List.range 8).foldl (fun x k => x + (if g.rdP l (BitVec.ofNat 8 k) then 2 ^ k else 0)) 0)

def execP2g (h : Hdr) (d : RegCode) (s : State) : Host.Outcome State Fault Refusal :=
  alu (.p2g h d) (fun c l => wr1 l d (predWord c.g l)) s

def execG2p (h : Hdr) (a : RegCode) (mask : BitVec 7) (s : State) : Host.Outcome State Fault Refusal :=
  alu (.g2p h a mask) (fun c l => ((List.range 7).filter (fun k => mask.getLsbD k)).flatMap (fun k =>
    wrP l (BitVec.ofNat 8 k) ((c.r1 l a).getLsbD k))) s

/-! ### 64-bit arithmetic (R68, R72, R76, R77) -/

def execIadd64 (h : Hdr) (d a : RegCode) (b : Src) (s : State) : Host.Outcome State Fault Refusal :=
  alu (.iadd64 h d a b) (fun c l => wr64 l d (c.r2 l a + c.src2 l b)) s

def execIsub64 (h : Hdr) (d a : RegCode) (b : Src) (s : State) : Host.Outcome State Fault Refusal :=
  alu (.isub64 h d a b) (fun c l => wr64 l d (c.r2 l a - c.src2 l b)) s

/-- LEA (R77). -/
def leaVal (sg : Bool) (a : DWord) (b : Word) (sh : BitVec 3) : DWord :=
  a + ((if sg then b.signExtend 64 else b.setWidth 64) <<< sh.toNat)

def execLea (h : Hdr) (sg : Bool) (d a b : RegCode) (sh : BitVec 3) (s : State) : Host.Outcome State Fault Refusal :=
  alu (.lea h sg d a b sh) (fun c l => wr64 l d (leaVal sg (c.r2 l a) (c.r1 l b) sh)) s

def execIsetp64 (h : Hdr) (m : Cmp) (d a : RegCode) (b : Src) (s : State) : Host.Outcome State Fault Refusal :=
  alu (.isetp64 h m d a b) (fun c l => wrP l d (cmpHolds m (c.r2 l a) (c.src2 l b))) s

def execShl64 (h : Hdr) (d a : RegCode) (b : Src) (s : State) : Host.Outcome State Fault Refusal :=
  alu (.shl64 h d a b) (fun c l => wr64 l d (c.r2 l a <<< (min (c.src l b).toNat 64))) s

/-- SHR64 and SHR64.a (R68). -/
def shr64Val (arith : Bool) (a : DWord) (n : Nat) : DWord :=
  if arith then a.sshiftRight (min n 64) else a >>> (min n 64)

def execShr64 (h : Hdr) (arith : Bool) (d a : RegCode) (b : Src) (s : State) : Host.Outcome State Fault Refusal :=
  alu (.shr64 h arith d a b) (fun c l => wr64 l d (shr64Val arith (c.r2 l a) (c.src l b).toNat)) s

/-! ### Dot products (R78) -/

/-- Part `i` of width `w` of a word, signed or not. -/
def dotPart (w : Nat) (sg : Bool) (x : Word) (i : Nat) : Int :=
  let p := x.toNat / 2 ^ (w * i) % 2 ^ w
  if sg then sextN w p else p

/-- IDP4 with w = 8, IDP2 with w = 16. -/
def dotVal (w : Nat) (asg bsg sat : Bool) (a b c : Word) : Word :=
  let sum := (List.range (32 / w)).foldl (fun x i => x + dotPart w asg a i * dotPart w bsg b i) c.toInt
  if sat then w32 (clampI sum (-2 ^ 31) (2 ^ 31 - 1)) else w32 sum

def execIdp4 (h : Hdr) (asg bsg sat : Bool) (d a : RegCode) (b : Src) (cc : RegCode) (s : State) : Host.Outcome State Fault Refusal :=
  alu (.idp4 h asg bsg sat d a b cc) (fun c l => wr1 l d (dotVal 8 asg bsg sat (c.r1 l a) (c.src l b) (c.r1 l cc))) s

def execIdp2 (h : Hdr) (asg bsg sat : Bool) (d a : RegCode) (b : Src) (cc : RegCode) (s : State) : Host.Outcome State Fault Refusal :=
  alu (.idp2 h asg bsg sat d a b cc) (fun c l => wr1 l d (dotVal 16 asg bsg sat (c.r1 l a) (c.src l b) (c.r1 l cc))) s

/-! ### The end of a division -/

/-- DIVISION_COMPLETE: outstanding instruction `i` of the group, a division, writes its destination and its scoreboard
falls (R55, 02 R37). -/
def execDivisionComplete (gk i : Nat) (s : State) : Host.Outcome State Fault Refusal :=
  let g := s.group gk
  match g.divs[i]? with
  | none => .next s
  | some tok => .next (s.setGroup gk (g.withCkpt (fun g =>
      { (g.landTok tok 0xFFFFFFFF).finish tok 0xFFFFFFFF with divs := g.divs.filter (fun t => t ≠ tok) })))

end Sys2Proof.Machine
end

