-- ==== Sys2Proof/Machine/Sys.lean ====
section
/-!
DEFINITION. The system instructions (19, MAJ 0xD0 to 0xD8). Each of them stops run-ahead and raises ILLEGAL in user mode.
-/
namespace Sys2Proof.Machine

/-- RTE (R346): every lane to its own target; what is outstanding lands first (02 R39). -/
def execRte (h : Hdr) (s : State) : Host.Outcome State Fault Refusal :=
  issueI (.rte h) { ra := .stop, ill := fun c => c.lanes.any (fun l => !pcOk (c.g.lane l).rteTarget) } (fun _ c =>
    if c.g.writing c.act then .hold c.s
    else .ok { s := c.s.setGroup c.gk ((c.g.modLanes c.act (fun _ x => x.rte)).sSee c.act),
               jumps := c.lanes.map (fun l => (l, (c.g.lane l).rteTarget)) }) s

/-! ### Supervisor registers (R333, R334, R347) -/

/-- The value of a register of Table 19-1 in lane `l`, with its width. -/
def Ctx.xreg (c : Ctx) (code l : Nat) : Option (Nat × DWord) :=
  let x := c.g.lane l
  let f := c.fn
  match code with
  | 0x000 => some (64, f.xvec)
  | 0x001 => some (64, x.xpc)
  | 0x002 => some (64, x.xnpc)
  | 0x003 => some (64, x.xaddr)
  | 0x004 => some (32, x.xcause.setWidth 64)
  | 0x005 => some (32, x.xstate.setWidth 64)
  | 0x008 => some (64, tget 0 x.xsave 0)
  | 0x009 => some (64, tget 0 x.xsave 1)
  | 0x00A => some (64, tget 0 x.xsave 2)
  | 0x00B => some (64, tget 0 x.xsave 3)
  | 0x010 => some (64, f.lpbase)
  | 0x011 => some (32, BitVec.ofNat 64 f.lpsize)
  | 0x012 => some (32, BitVec.ofNat 64 f.lpteams)
  | 0x018 => some (64, f.fqbase)
  | 0x019 => some (32, BitVec.ofNat 64 f.fqlen)
  | 0x01A => some (32, f.fqhead.setWidth 64)
  | 0x01B => some (32, f.fqtail.setWidth 64)
  | _ => none

/-- The registers that a lane may write, with their widths. -/
def xregRw (code : Nat) : Option Nat :=
  match code with
  | 0x001 | 0x002 | 0x003 | 0x008 | 0x009 | 0x00A | 0x00B => some 64
  | 0x004 | 0x005 => some 32
  | _ => none

/-- A lane's register written: reserved bits are discarded, and XSTATE keeps NEST and SUP. -/
def Lane.setXreg (x : Lane) (code : Nat) (v : DWord) : Lane :=
  let w := v.setWidth 32
  match code with
  | 0x001 => { x with xpc := v }
  | 0x002 => { x with xnpc := v }
  | 0x003 => { x with xaddr := v }
  | 0x004 => { x with xcause := w &&& 0xFFFF }
  | 0x005 => { x with xstate := mkXstate x.sup (w.getLsbD 1) (w.getLsbD 2) x.nest (w.getLsbD 4) }
  | 0x008 => { x with xsave := tput 0 x.xsave 0 v }
  | 0x009 => { x with xsave := tput 0 x.xsave 1 v }
  | 0x00A => { x with xsave := tput 0 x.xsave 2 v }
  | 0x00B => { x with xsave := tput 0 x.xsave 3 v }
  | _ => x

/-- Reads of a register by the active lanes. -/
def Ctx.readX (c : Ctx) (code lat : Nat) (wrOf : Nat → DWord → List Wr) : Res :=
  .ok { s := c.s, mode := .fixed lat, wr := c.lanes.flatMap (fun l => match c.xreg code l with
    | some (_, v) => wrOf l v
    | none => []) }

/-- The options of an access to a register, ILLEGAL where `bad` says so of its code. -/
def xregOpts (bad : Ctx → Bool) : Opts := { ra := .stop, ill := bad }

/-- Writes of a register of width `w` by the active lanes. -/
def Ctx.writeX (c : Ctx) (code : Nat) (val : Nat → DWord) : Res :=
  .ok { s := c.s.setGroup c.gk (c.g.modLanes c.act (fun l x => x.setXreg code (val l))) }

def execMovx (h : Hdr) (d : RegCode) (code : BitVec 12) (s : State) : Host.Outcome State Fault Refusal :=
  issueI (.movx h d code) (xregOpts fun c => (c.xreg code.toNat 0).isNone) (fun inf c => c.readX code.toNat inf.lat (fun l v => wr1 l d (v.setWidth 32))) s

def execMovxw (h : Hdr) (d : RegCode) (code : BitVec 12) (s : State) : Host.Outcome State Fault Refusal :=
  issueI (.movxw h d code) (xregOpts fun c => (c.xreg code.toNat 0).isNone) (fun inf c => c.readX code.toNat inf.lat (fun l v => wr64 l d v)) s

def execMovxW (h : Hdr) (a : RegCode) (code : BitVec 12) (s : State) : Host.Outcome State Fault Refusal :=
  issueI (.movxW h a code) (xregOpts fun _ => decide (xregRw code.toNat ≠ some 32))
    (fun _ c => c.writeX code.toNat (fun l => (c.r1 l a).setWidth 64)) s

def execMovxwW (h : Hdr) (a : RegCode) (code : BitVec 12) (s : State) : Host.Outcome State Fault Refusal :=
  issueI (.movxwW h a code) (xregOpts fun _ => (xregRw code.toNat).isNone) (fun _ c => c.writeX code.toNat (fun l => c.r2 l a)) s

/-! ### Translations (R348) -/

/-- Cached stage-1 translations of a function that `p` selects, and the walks that found none, go everywhere. -/
def State.dropS1 (s : State) (func : Nat) (p : Nat → Nat → Bool) : State :=
  let t (x : Tlb) : Tlb := { x with s1 := x.s1.filter (fun e => !(decide (e.func = func) && p e.base e.len)) }
  let w (l : List NoLeaf) : List NoLeaf := l.filter (fun e => !(decide (e.func = func) && p e.page 1))
  { s with
    cores := s.cores.map (fun (e : Nat × Core) => (e.1, { e.2 with tlb := t e.2.tlb, wfail := w e.2.wfail })),
    dies := s.dies.map (fun (e : Nat × Die) => (e.1, { e.2 with tlb := t e.2.tlb, wfail := w e.2.wfail })) }

/-- The wait for the lanes' earlier stores, then the invalidation. -/
def Ctx.tlbInval (c : Ctx) (p : Nat → Nat → Bool) : Res :=
  if c.act = 0 then .ok { s := c.s } else
  match c.s.releaseWait c.core c.t.func .peer with
  | .error s => .hold s
  | .ok s => .ok { s := s.dropS1 c.t.func p }

def execTlbiv (h : Hdr) (a : RegCode) (off : Word) (s : State) : Host.Outcome State Fault Refusal :=
  issueI (.tlbiv h a off) stopRa (fun _ c =>
    c.tlbInval (fun base len => c.lanes.any (fun l =>
      let page := bits (c.addr a off l).toNat 54 16
      decide (base ≤ page) && decide (page < base + len)))) s

def execTlbia (h : Hdr) (s : State) : Host.Outcome State Fault Refusal :=
  issueI (.tlbia h) stopRa (fun _ c => c.tlbInval (fun _ _ => true)) s

/-! ### Halting a team (R349) -/

def execHalttOthers (h : Hdr) (s : State) : Host.Outcome State Fault Refusal :=
  issueI (.halttOthers h) stopRa (fun _ c =>
    if c.act = 0 then .ok { s := c.s } else
    let s := (c.s.groupsOf c.tid).foldl (fun s gk =>
      let g := s.group gk
      if gk = c.gk then s.setGroup gk { g with halted := g.halted ||| (g.live &&& ~~~c.cohort) }
      else
        let g := g.restore
        s.setGroup gk { g with halted := g.live }) c.s
    let s := s.forgetWalks c.core c.t.func
    .ok { s := match s.team? c.tid with | some t => s.setTeam c.tid { t with halter := some c.gid } | none => s }) s

def execHalttRelease (h : Hdr) (s : State) : Host.Outcome State Fault Refusal :=
  issueI (.halttRelease h) stopRa (fun _ c =>
    if c.act = 0 then .ok { s := c.s } else
    let s := (c.s.groupsOf c.tid).foldl (fun s gk =>
      let g := s.group gk
      s.setGroup gk ((lanesOf g.halted).foldl (fun g l => g.takeWake (s.cycle c.core) l) { g with halted := 0 })) c.s
    .ok { s := match s.team? c.tid with | some t => s.setTeam c.tid { t with halter := none } | none => s }) s

/-! ### Cards of the team (R350) and the fault queue (R351) -/

/-- The wait for every card that the team has formed so far. -/
def Ctx.xdrain (c : Ctx) (s : State) : Res :=
  let tok : Token := ⟨c.gk, s.nextTok, c.act⟩
  match s.team? c.tid with
  | none => .ok { s := s }
  | some t =>
    if s.allCards.any (fun x => x.team = c.tid) then
      .ok { s := (s.setTeam c.tid { t with drains := t.drains ++ [(tok, s.nextCard)] }).newTok, out := some (tok.tok, c.act) }
    else .ok { s := s }

def execXdrainWait (h : Hdr) (s : State) : Host.Outcome State Fault Refusal :=
  issueI (.xdrainWait h) stopRa (fun _ c => if c.act = 0 then .ok { s := c.s } else c.xdrain c.s) s

def execXdrainCancel (h : Hdr) (s : State) : Host.Outcome State Fault Refusal :=
  issueI (.xdrainCancel h) stopRa (fun _ c =>
    if c.act = 0 then .ok { s := c.s } else
    c.xdrain ((c.s.allCards.filter (fun x => x.team = c.tid)).foldl (fun s x => s.endCard x 2 true) c.s)) s

def execFltqAck (h : Hdr) (a : RegCode) (s : State) : Host.Outcome State Fault Refusal :=
  issueI (.fltqAck h a) stopRa (fun _ c =>
    if c.act = 0 then .ok { s := c.s }
    else if !c.uniform1 a then .trap 8 0
    else
      let f := c.fn
      let n := min (c.u1 a).toNat (f.fqtail - f.fqhead).toNat
      .ok { s := (c.s.setFunc c.t.func { f with fqhead := f.fqhead + BitVec.ofNat 32 n }).writeHeld c.t.func }) s

/-- `k` on every paused card of the function. -/
def Ctx.paused (c : Ctx) (k : State → Card → Nat → State) : Res :=
  if c.act = 0 then .ok { s := c.s } else
  .ok { s := c.s.allCards.foldl (fun s x => match x.st with
      | .paused e _ _ => if x.func = c.t.func then k s x e else s
      | .formed | .waiting | .ready _ | .running _ | .finished _ => s) c.s }

/-- FLTQ.resume (R351): paused cards retry. One whose record is still held goes on when it is written (R338), and one that had ended and
paused at its completion completes. -/
def execFltqResume (h : Hdr) (s : State) : Host.Outcome State Fault Refusal :=
  issueI (.fltqResume h) stopRa (fun _ c => c.paused (fun s x e => s.setCard (match x.st with
    | .paused _ _ true => { x with again := true }
    | .formed | .waiting | .ready _ | .running _ | .paused _ _ false | .finished _ =>
      { x with st := if 2 ≤ x.status then .finished e else .running e }))) s

def execFltqFail (h : Hdr) (s : State) : Host.Outcome State Fault Refusal :=
  issueI (.fltqFail h) stopRa (fun _ c => c.paused (fun s x _ => s.endCard x 2 false)) s

/-! ### DUMPR (R352) -/

/-- The selector of DUMPR: lane, group, item; `none` where R352 refuses it. -/
def Ctx.dumpSel (c : Ctx) (v : Word) : Option (Nat × Nat × Nat) :=
  let lane := bits v.toNat 4 0
  let gid := bits v.toNat 9 5
  let item := bits v.toNat 27 16
  let ok := decide (item < 0xE0) || (decide (0xE0 ≤ item) && decide (item ≤ 0xFE)) || (decide (0x100 ≤ item) && decide (item ≤ 0x105)) ||
    (decide (0x110 ≤ item) && decide (item ≤ 0x11B)) || (decide (0x120 ≤ item) && decide (item ≤ 0x125))
  if bits v.toNat 15 10 ≠ 0 ∨ bits v.toNat 31 28 ≠ 0 ∨ !ok ∨ c.t.lrec.gpt ≤ gid ∨ (gid ≠ c.gid ∧ c.t.halter.isNone) then none
  else some (lane, gid, item)

/-- The soft-error mark of an item; a register that reads 0 because its lane is not live or it lies at or above the register count has
none. -/
def Ctx.dumpMark (c : Ctx) (lane gid item : Nat) : Option DWord :=
  let g := c.s.group (32 * c.tid + gid)
  if item < 0xE0 ∧ (c.t.lrec.regs ≤ item ∨ !g.live.getLsbD lane) then none
  else if item < 0xFF then g.markLast (c.s.cycle c.core) lane item else none

/-- The item's value. -/
def Ctx.dumpVal (c : Ctx) (lane gid item : Nat) : Word :=
  let g := c.s.group (32 * c.tid + gid)
  let x := g.lane lane
  let live := g.live.getLsbD lane
  if item < 0xFF then
    if (item < 0xE0 ∧ c.t.lrec.regs ≤ item) ∨ (item < 0xE0 ∧ !live) then 0 else g.rdLast (c.s.cycle c.core) lane (BitVec.ofNat 8 item)
  else match item with
    | 0x100 => if live then x.pc.extractLsb' 0 32 else 0
    | 0x101 => if live then x.pc.extractLsb' 32 32 else 0
    | 0x102 => if live then BitVec.ofNat 32 ((List.range 7).foldl (fun v k =>
        v + (if flightLast x.flights (256 + k) (if x.p.getLsbD k then 1 else 0) = 1 then 2 ^ k else 0)) 0x80) else 0
    | 0x103 => g.live
    | 0x104 => if live then BitVec.ofNat 32 (waitCode x.wait) else 0
    | 0x105 => if live then x.xstate else 0
    | n => if n < 0x120 then tget 0 g.k (n - 0x110) else BitVec.ofNat 32 (tget 0 g.sb (n - 0x120))

def execDumpr (h : Hdr) (d a : RegCode) (s : State) : Host.Outcome State Fault Refusal :=
  issueI (.dumpr h d a) { ra := .stop, ill := fun c => c.lanes.any (fun l => (c.dumpSel (c.r1 l a)).isNone) } (fun inf c =>
    let xs := c.lanes.filterMap (fun l => (c.dumpSel (c.r1 l a)).map (fun x => (l, x)))
    let other (x : Nat × Nat × Nat × Nat) : Group := c.s.group (32 * c.tid + x.2.2.1)
    if xs.any (fun x => (other x).writing (1#32 <<< x.2.1)) then .hold c.s
    else match xs.findSome? (fun x => c.dumpMark x.2.1 x.2.2.1 x.2.2.2) with
      | some m => .trap 0x0E m
      | none => .ok { s := c.s, mode := .fixed inf.lat,
                      wr := xs.flatMap (fun x => wr1 x.1 d (c.dumpVal x.2.1 x.2.2.1 x.2.2.2)) }) s

end Sys2Proof.Machine
end

