-- ==== Sys2Proof/Machine/Host.lean ====
section
/-!
DEFINITION. The function host interface (22): submission and notify pages, the register page, the event ring, the commands of the
physical function, usage meters, gang launch, the disabling of functions and the reset ladder; the bind table (12 R200, R201)
and the grant of chip scratchpad (13 R219, R220).
-/
namespace Sys2Proof.Machine

/-! ### Submission (R379, R380) -/

/-- A queue that takes no record now (R379, 23 R399). -/
def State.queueBusy (s : State) (func q : Nat) : Bool :=
  let f := s.func func
  decide (256 ≤ (tget [] f.queues q).length) || (tget 0 f.err q).getLsbD 5 || f.frozen || s.stopping func

/-- A record joins a queue. -/
def State.enqueue (s : State) (func q : Nat) (rec : List Byte) : State :=
  let f := s.func func
  s.setFunc func { f with queues := tput [] f.queues q (tget [] f.queues q ++ [rec]) }

/-- QUEUE_SUBMIT: Unsupported Request, Request Retry, or Successful. A function that exists no longer is not frozen (R389). -/
def execQueueSubmit (func queue : Nat) (pasid : Bool) (rec : List Byte) (s : State) : Host.Outcome State Fault Refusal :=
  .next (if !s.isReady || s.recovery then s
    else if !(s.func func).exist then (if (s.func func).gone ∨ 127 < func then s else s.freeze func 5 0 0 0)
    else if rec.length ≠ 128 ∨ 63 < queue ∨ pasid = false then s.freeze func 5 0 0 0
    else if s.queueBusy func queue then s
    else s.enqueue func queue rec)

/-- NOTIFY: the ST.32 at the head of the list posts its event. -/
def execNotify (s : State) : Host.Outcome State Fault Refusal :=
  .next (match s.notifyQ with
    | [] => s
    | n :: rest =>
      if n.bytes.length ≠ 4 then s
      else { s with notifyQ := rest }.post n.func 0xFF 0x20 [(16, 4, ofLE n.bytes), (20, 1, (n.off - 512) / 4), (21, 1, n.page)])

/-- NOTIFY_ENQUEUE: the record at the stored address, read as a release of the writing lane at PART scope, joins queue q; a
record that cannot be taken or read is dropped with BUSY; a page that the writer's stage 2 does not hold is asked of the host, and a refusal
of stage 2 is a violation of the writer's (20 R357). One that does not lie at a multiple of 128 is read where it lies (log entry 39). -/
def execNotifyEnqueue (s : State) : Host.Outcome State Fault Refusal :=
  .next (match s.notifyQ with
    | [] => s
    | n :: rest =>
      if n.bytes.length ≠ 8 then s else
      match s.releaseWait n.core n.writer .part with
      | .error s => s
      | .ok s =>
        let va := ofLE n.bytes
        let q := n.off / 8
        let done (s : State) : State := { s with notifyQ := rest }
        let drop (s : State) : State := ((done s).setErr n.func q 1).post n.func q 0x11 [(16, 8, va)]
        if s.queueBusy n.func q then drop s
        else match s.devRead n.core n.writer n.sup va 128 with
          | .ok s rec => (done s).enqueue n.func q rec
          | .wait s => s
          | .stop (.page2 f) _ => (s.pageToHost n.writer f).1
          | .stop .access2 a => (done s).freeze n.writer 8 a 0 (whereOf n.core 0)
          | .stop .. => drop s)

/-! ### The register page (R378) -/

/-- A team of the function is resident or saved. -/
def State.hasTeams (s : State) (func : Nat) : Bool :=
  s.teams.any (fun (e : Nat × Team) => decide (e.2.func = func)) || s.saved.any (fun x => decide (x.func = func))

/-- A power of two. -/
def isPow2 (n : Nat) : Bool := (List.range 64).any (fun k => decide (n = 2 ^ k))

/-- The function has a register page to write: it exists (R377, R378). -/
def State.hasPage (s : State) (func : Nat) : Bool := decide (func = 0) || (decide (func < 128) && (s.func func).exist)

def lpOffset : LpReg → Nat
  | .lpbase => 0x010 | .lpsize => 0x018 | .lpteams => 0x01C | .savebase => 0x038 | .savelen => 0x040

/-- LP_SAVE_REG_WRITE. LPBASE and SAVEBASE are aligned to 64 KiB (Table 22-1). -/
def execLpSaveRegWrite (func : Nat) (r : LpReg) (v : Nat) (s : State) : Host.Outcome State Fault Refusal :=
  let f := s.func func
  .next (if !s.hasPage func then s
    else if s.hasTeams func then (s.setErr func 0 6).post func 0 0x15 [(16, 4, (lpOffset r))]
    else s.setFunc func (match r with
      | .lpbase => { f with lpbase := BitVec.ofNat 64 (v / 65536 * 65536) }
      | .lpsize => { f with lpsize := if isPow2 v && decide (1024 ≤ v) && decide (v ≤ 262144) then v else 0 }
      | .lpteams => { f with lpteams := v % 65536 }
      | .savebase => { f with savebase := v % 2 ^ 64 / 65536 * 65536 }
      | .savelen => { f with savelen := v % 2 ^ 32 }))

/-- FQ_SETUP_WRITE: a write to FQBASE, or to FQLEN when `isLen`. -/
def execFqSetupWrite (func : Nat) (isLen : Bool) (v : Nat) (s : State) : Host.Outcome State Fault Refusal :=
  let f := s.func func
  let f := { f with fqhead := 0, fqtail := 0, fqOut := [] }
  let len := v % 2 ^ 32
  let f := if isLen then { f with fqlen := if isPow2 len && decide (16 ≤ len) && decide (len ≤ 4096) then len else 0 }
    else { f with fqbase := BitVec.ofNat 64 (v / 65536 * 65536) }
  .next (if s.hasPage func then (s.setFunc func f).writeHeld func else s)

/-- ERR_WORD_CLEAR: 1 bits clear the W1C bits of an error word (Table 22-2). -/
def execErrWordClear (func i v : Nat) (s : State) : Host.Outcome State Fault Refusal :=
  let f := s.func func
  .next (if 63 < i ∨ s.hasPage func = false then s
    else s.setFunc func { f with err := tput 0 f.err i (tget 0 f.err i &&& ~~~(BitVec.ofNat 32 v &&& 0xDF)) })

/-- A register of a migration block may be written (23 R391). -/
def Mig.idle (m : Mig) : Bool := decide (m.st = 0) || decide (m.st = 5) || decide (m.st = 6) || decide (m.st = 7) || decide (m.st = 9)

/-- The DONE or FAIL event of a command. -/
def State.cmdEvent (s : State) (code seq : Nat) (fail : Option Nat) : State :=
  s.post 0 0xFF (if fail.isSome then 2 else 1) [(16, 1, code), (17, 1, fail.getD 0), (20, 4, seq % 2 ^ 32)]

/-- The walkers of a die that the functions other than one have reserved (20 R360). -/
def State.wrsvOthers (s : State) (func die : Nat) : Nat :=
  (List.range 128).foldl (fun n f => if f = func then n else n + tget 0 (s.func f).wrsv die) 0

/-- REGISTER_WRITE. A page of a function that does not exist takes no write. Codes that Table 22-3 lists come to the doorbell as commands of
their own; every other one fails. -/
def execRegisterWrite (r : HostReg) (v : Nat) (s : State) : Host.Outcome State Fault Refusal :=
  let mig (m : Nat) (f : Mig → Mig) : State :=
    let x := tget {} s.migs m
    if 7 < m ∨ x.idle = false then s else { s with migs := tput {} s.migs m (f x) }
  let page (f : Nat) (k : Func → Func) : State := if s.hasPage f then s.setFunc f (k (s.func f)) else s
  .next (match r with
    | .xvec f => page f (fun x => { x with xvec := BitVec.ofNat 64 (v / 64 * 64) })
    | .s1root f => page f (fun x => { x with s1root := BitVec.ofNat 64 v })
    | .priAlloc f => page f (fun x => { x with priMax := min v 512 })
    | .ats f => page f (fun x => { x with ats := bitOf v 0, atc := if bitOf v 0 then x.atc else [] })
    | .pasid f => page f (fun x => { x with pasid := v % 2 ^ 20 })
    | .wrsv f die =>
      if 127 < f ∨ 1 < die ∨ 64 < v + s.wrsvOthers f die then s
      else let x := s.func f; s.setFunc f { x with wrsv := tput 0 x.wrsv die v }
    | .wmax f die =>
      if 127 < f ∨ 1 < die ∨ v < 1 ∨ 64 < v then s else let x := s.func f; s.setFunc f { x with wmax := tput 64 x.wmax die v }
    | .doorbell =>
      if 1 ≤ v ∧ v ≤ 10 then s
      else { s with cmdSeq := s.cmdSeq + 1 }.cmdEvent (v % 256) s.cmdSeq (some (if s.recovery then 3 else 1))
    | .mfunc m => mig m (fun x => { x with func := v % 128 })
    | .mpeer m => mig m (fun x => { x with peer := v % 4096 })
    | .mbudget m => mig m (fun x => { x with budget := v % 2 ^ 32 })
    | .mbw m => mig m (fun x => { x with bw := v % 2 ^ 32 }))

/-! ### The event ring (R383, R384) -/

/-- RINGHEAD_WRITE. -/
def execRingheadWrite (v : Nat) (s : State) : Host.Outcome State Fault Refusal :=
  let w := BitVec.ofNat 32 v
  .next (if s.ringLen < (s.ringTail - w).toNat then s else { s with ringHead := w })

/-- OVERFLOW_CLEAR. -/
def execOverflowClear (s : State) : Host.Outcome State Fault Refusal := .next { s with ringOverflow := false }

/-- DOMFAIL_CLEAR (27 R460). -/
def execDomfailClear (func : Nat) (s : State) : Host.Outcome State Fault Refusal :=
  let f := s.func func
  .next (if 127 < func then s else s.setFunc func { f with domFail := 0 })

/-! ### Commands of the physical function (R385) -/

/-- A command: its FAIL by reason, or its effect and DONE. In recovery every command fails (29 R472). -/
def State.command (s : State) (code : Nat) (bad : Option Nat) (k : State → State) : Host.Outcome State Fault Refusal :=
  let seq := s.cmdSeq
  let s := { s with cmdSeq := seq + 1 }
  .next (match (if s.recovery then some 3 else bad) with
    | some r => s.cmdEvent code seq (some r)
    | none => (k s).cmdEvent code seq none)

/-- Reason 2, operand out of range, unless `ok`. -/
def inRange (ok : Bool) : Option Nat := if ok then none else some 2

/-- S2INV. -/
def execS2inv (func fpa len : Nat) (s : State) : Host.Outcome State Fault Refusal :=
  s.command 1 (inRange (decide (func < 128))) (fun s => s.s2inv func fpa (fpa + len))

/-- PART: a function or cores go to a partition (R377). -/
def execPart (t : PartTarget) (p : Nat) (s : State) : Host.Outcome State Fault Refusal :=
  match t with
  | .func f =>
    s.command 3 (inRange (decide (p < 32) && decide (f < 128))) (fun s => let x := s.func f; s.setFunc f { x with part := some p })
  | .cores cs =>
    let bad := if !(decide (p < 32) && cs.all (fun c => decide (c < 320))) then some 2
      else if cs.any (fun c => (s.core c).lentTo.isSome) then some 3 else none
    s.command 3 bad (fun s => cs.foldl (fun s c => let k := s.core c; s.setCore c { k with part := some p }) s)

/-- LEND. -/
def execLend (core src dst : Nat) (s : State) : Host.Outcome State Fault Refusal :=
  let k := s.core core
  let bad := if !(decide (core < 320) && decide (src < 32) && decide (dst < 32)) then some 2
    else if k.part ≠ some src ∨ k.lentTo.isSome = true then some 3 else none
  s.command 4 bad (fun s => s.setCore core { k with lentTo := some dst })

/-- The bit of a core is cleared in every bind record of a partition (21 R368, 29 R471). -/
def State.dropCoreBit (s : State) (part core : Nat) : State :=
  let p := s.prt part
  let slots : Table Nat := p.slots.map (fun (e : Nat × Nat) => (e.1, if bindCore e.2 core then e.2 - 2 ^ (136 + core) else e.2))
  s.setPrt part (p.rebind (slots.filter (fun (e : Nat × Nat) => decide (e.2 ≠ 0)))
    ((p.slots.filter (fun (e : Nat × Nat) => bindCore e.2 core)).map (fun (e : Nat × Nat) => bindFunc e.2)))

/-- RECALL (21 R368): the core leaves the borrower's bind records, the borrower's planes on it are saved, and it is the
owner's again. -/
def execRecall (core src dst : Nat) (s : State) : Host.Outcome State Fault Refusal :=
  let k := s.core core
  let bad := if !(decide (core < 320) && decide (src < 32) && decide (dst < 32)) then some 2
    else if k.part ≠ some dst ∨ k.lentTo ≠ some src then some 3 else none
  match (if s.recovery then some 3 else bad) with
  | some r => s.command 5 (some r) id
  | none =>
    let seq := s.cmdSeq
    let s := { s with cmdSeq := seq + 1, recalls := s.recalls ++ [(core, src, seq)] }.dropCoreBit src core
    let s := (s.borrowed core src).foldl (fun s pl => s.startSave pl .slice) s
    .next s.finishRecalls

/-- QTHAW. -/
def execQthaw (func queue : Nat) (s : State) : Host.Outcome State Fault Refusal :=
  s.command 7 (inRange (decide (func < 128) && decide (queue < 64))) (fun s =>
    let f := s.func func
    s.setFunc func { f with err := tput 0 f.err queue (tget 0 f.err queue &&& ~~~0x20#32) })

/-- RINGSET (R384). -/
def execRingset (base len : Nat) (s : State) : Host.Outcome State Fault Refusal :=
  s.command 8 (inRange (isPow2 len && decide (16 ≤ len) && decide (len ≤ 65536))) (fun s =>
    let held := s.held
    held.foldl (fun (s : State) e => s.postEntry (ofLE (e.take 1)) (ofLE ((e.drop 1).take 1)) e)
      { s with ringBase := base, ringLen := len, ringHead := 0, ringTail := 0, held := [] })

/-- The entry of a walker's memo for a function-physical page that the device itself reaches without stage 1. -/
def fpaPage (fpa : Nat) : Nat := 2 ^ 50 + fpa / 65536

/-- Stage 2 of `n` bytes of one page that firmware reads (`rd`) and writes at a function-physical address: R and W, and what the target
refuses (R357, 13 R234, 25 R419, R420). A page that it has found moving is walked again after an S2INV (20 R361). -/
def State.fpaXl (s : State) (func fpa n : Nat) (rd : Bool) : XRes :=
  match (s.die 0).wfail.find? (fun w => decide (w.func = func) && decide (w.page = fpaPage fpa)) with
  | some w => w.why.res
  | none =>
    match walk2 s.mem (s.func func).s2root fpa with
    | .leaf e =>
      if !bitOf e 2 || (rd && !bitOf e 1) then .access2 else
      let t := leaf2Target e (fpa / 65536) fpa
      (match t with
       | .loc ma => if maBacked ma then .ok ⟨fpa, t, 0, bitOf e 4⟩ else .unbacked ma
       | .host _ => if s.hostTaken func t n then .access2 else .ok ⟨fpa, t, 0, bitOf e 4⟩
       | .fab .. => s.refine func (.ok ⟨fpa, t, 0, bitOf e 4⟩)
       | .notify .. => .access2)
    | .fail x => x.res
    | .unbacked ma => .unbacked ma

/-- A move that `fpaXl` has met is remembered until an S2INV of the page. -/
def State.fpaKeep (s : State) (func fpa : Nat) : State :=
  let d := s.die 0
  match walk2 s.mem (s.func func).s2root fpa with
  | .fail (.moving f) => if (d.wfail.any (fun w => decide (w.func = func) && decide (w.page = fpaPage fpa))) then s
      else s.setDie 0 { d with wfail := d.wfail ++ [⟨func, fpaPage fpa, .moving f⟩] }
  | .leaf _ | .fail _ | .unbacked _ => s

/-- Bytes that firmware writes at a target; a peer's leave as stores of core 0. -/
def State.firmWrite (s : State) (func : Nat) (t : Tgt) (bs : List Byte) : State :=
  match t with
  | .loc _ | .host _ => (s.devWrite func t bs).wakeMem
  | .fab v ma => { s with nextTok := s.nextTok + 1 }.devStore 0 func v ⟨saveKey, s.nextTok, 0⟩ (bs.length + 1) [(ma, bs)]
  | .notify .. => s

/-- METRD: a finalised report goes to a buffer of the physical function. A buffer whose page stage 2 does not hold, or that is moving or held by the host, fails
the command in its present state, once the page is asked of the host; a refusal of stage 2 is a violation too (20 R357; log entry 55). -/
def execMetrd (func fpa : Nat) (s : State) : Host.Outcome State Fault Refusal :=
  if 127 < func ∨ fpa % 512 ≠ 0 then s.command 9 (some 2) id
  else if (s.func func).meter.final.isNone ∨ s.recovery then s.command 9 (some 3) id
  else
    let s := s.fpaKeep 0 fpa
    match s.fpaXl 0 fpa 512 false with
    | .ok t =>
      match s.biSpan t.tgt 512 with
      | some s => s.command 9 (some 3) id
      | none => s.command 9 none (fun s => s.firmWrite 0 t.tgt ((s.func func).meter.final.getD []))
    | .page2 f => ((s.pageToHost 0 f).1).command 9 (some 3) id
    | .access2 => (s.freeze 0 8 fpa 0 0).command 9 (some 3) id
    | .page1 | .access1 | .moving _ | .miss | .unbacked _ => s.command 9 (some 3) id

/-- S2SET. -/
def execS2set (func root : Nat) (s : State) : Host.Outcome State Fault Refusal :=
  s.command 0x0A (inRange (decide (func < 128))) (fun s => let f := s.func func; s.setFunc func { f with s2root := root % 2 ^ 64 })

/-! ### Meters (R387) -/

/-- The report of a function, 512 bytes. -/
def State.report (s : State) (func : Nat) (nonce : List Byte) (final : Bool) : List Byte :=
  let m := (s.func func).meter
  let body := nonce ++ leBytes func 1 ++ leBytes (if final then 1 else 0) 1 ++ zeros 6 ++ leBytes (m.seq + 1) 8 ++
    leBytes ((s.clock : Int) + (s.func func).clockOff).toNat 8 ++ leBytes m.ccyc 8 ++
    (List.range 6).flatMap (fun i => leBytes (tget 0 m.mac i) 8) ++ leBytes m.ebytes 8 ++
    leBytes m.hbmbs 8 ++ leBytes m.fbytes 8 ++ zeros 296
  body ++ (Config.meterSig body ++ zeros 96).take 96

/-- The meters of a function are finalised. -/
def State.finalise (s : State) (func : Nat) : State :=
  let r := s.report func (zeros 16) true
  let f := s.func func
  s.setFunc func { f with meter := { f.meter with seq := f.meter.seq + 1, final := some r } }

/-- METREQ_WRITE. -/
def execMetreqWrite (func v : Nat) (s : State) : Host.Outcome State Fault Refusal :=
  let f := s.func func
  .next (if s.hasPage func then s.setFunc func { f with metreq := some (v / 512 * 512), metstat := f.metstat / 2 * 2 + 1 } else s)

/-- METER_REPORT: the Keystone pair reads the nonce and writes the report that is asked for. A page that stage 2 does not hold is asked of the
host first, and a refusal of stage 2 is a violation (20 R357). -/
def execMeterReport (func : Nat) (s : State) : Host.Outcome State Fault Refusal :=
  let f := s.func func
  .next (match f.metreq with
    | none => s
    | some fpa =>
      let s := s.fpaKeep func fpa
      match s.fpaXl func fpa 512 true with
      | .ok t =>
        (match s.devParts 0 func [(fpa, 16, .ok t)] with
         | .wait s => s
         | .stop .. => s
         | .ok s nonce =>
           match s.biSpan t.tgt 512 with
           | some s => s
           | none =>
             let s := s.firmWrite func t.tgt (s.report func nonce false)
             let f := s.func func
             s.setFunc func { f with metreq := none, metstat := 2, meter := { f.meter with seq := f.meter.seq + 1 } })
      | .page2 p => (s.pageToHost func p).1
      | .access2 =>
        let f := s.func func
        (s.setFunc func { f with metreq := none, metstat := f.metstat / 2 * 2 }).freeze func 8 fpa 0 0
      | .page1 | .access1 | .moving _ | .miss | .unbacked _ => s)

/-! ### Gang launch (R386) -/

/-- A record of a gang's parts is waited for: its page moves or is asked of the host, or a peer has not answered. -/
def State.gangWait (s : State) (parts : List (Nat × Nat × Nat)) : Option State :=
  parts.findSome? (fun p => match s.devRead 0 p.1 true p.2.2 128 with
    | .wait s => some s
    | .stop (.page2 f) _ => some (s.pageToHost p.1 f).1
    | .ok .. | .stop .. => none)

/-- A record of a gang's parts that stage 2 refuses freezes its function (20 R357). -/
def State.gangRefused (s : State) (parts : List (Nat × Nat × Nat)) : State :=
  parts.foldl (fun s p => match s.devRead 0 p.1 true p.2.2 128 with
    | .stop .access2 a => s.freeze p.1 8 a 0 0
    | .ok .. | .wait _ | .stop .. => s) s

/-- The records of a gang's parts; `none` where one cannot be read or fails R140. -/
def State.gangRecs (s : State) (parts : List (Nat × Nat × Nat)) : Option (List (Nat × Nat × List Byte)) :=
  parts.foldr (fun p l => match l, (s.devRead 0 p.1 true p.2.2 128).bytes? with
    | some l, some r => if recOk r then some ((p.1, p.2.1, r) :: l) else none
    | _, _ => none) (some [])

def execGang (l : List (Nat × Nat × Nat)) (s : State) : Host.Outcome State Fault Refusal :=
  let seq := s.cmdSeq
  let parts := l.map (fun p => (s.func p.1).part)
  let bad := if l.length < 2 ∨ 8 < l.length ∨ parts.eraseDups.length ≠ l.length ∨ parts.contains none = true ∨
      l.any (fun p => decide (127 < p.1) || decide (63 < p.2.1)) = true then some 2
    else if s.recovery || ((s.gangWait l).isNone && (s.gangRecs l).isNone) then some 3 else none
  match bad with
  | some r => (if r = 3 ∧ s.recovery = false then s.gangRefused l else s).command 6 (some r) id
  | none => .next { s with cmdSeq := seq + 1, gangs := s.gangs ++ [⟨seq, l, s.clock⟩], agenda := s.agenda ++ [.gangAttempt] }

/-- One part of an attempt: its grid is accepted and its first unit takes the place R204 gives, regardless of level. -/
def State.gangPart (s : State) (func queue : Nat) (rec : List Byte) : Option State :=
  let r := recFields rec
  match (if s.stopping func then none else (s.func func).part) with
  | none => none
  | some p =>
    match (s.prt p).bind func with
    | none => none
    | some b =>
      let id := s.nextGrid
      let s := s.acceptGrid func queue r none
      (List.range 2).findSome? (fun die =>
        let first := if s.effOf func r.prio = 23 then s.placeUnit p die func b s.yieldsTo23 (.grid id) else none
        match (match first with | some l => some l | none => s.placeUnit p die func b (fun _ => true) (.grid id)) with
        | some l => (s.grid? id).map (fun g => s.placeGrid p id g l)
        | none => none)

/-- One attempt of the oldest gang: every part finds its place and all start, or none does and the next attempt waits 1 µs. -/
def State.gangTry (s : State) (g : GangCmd) : State :=
  let rest := s.gangs.filter (fun x => x ≠ g)
  if g.parts.any (fun p => (s.func p.1).frozen || !(s.func p.1).exist) then { s with gangs := rest }.cmdEvent 6 g.seq (some 3) else
  let later (s : State) : State := { s with gangs := s.gangs.map (fun x => if x = g then { x with next := s.clock + s.bound 4000 } else x) }
  match s.gangWait g.parts with
  | some s => later s
  | none =>
  match s.gangRecs g.parts with
  | none => ({ s with gangs := rest }.gangRefused g.parts).cmdEvent 6 g.seq (some 3)
  | some recs =>
    match recs.foldl (fun (r : Option State) p => r.bind (fun s => s.gangPart p.1 p.2.1 p.2.2)) (some s) with
    | some s => { s with gangs := rest }.cmdEvent 6 g.seq none
    | none => later s

def execGangAttempt (s : State) : Host.Outcome State Fault Refusal :=
  .next (match s.gangs.find? (fun g => decide (g.next ≤ s.clock)) with
    | some g => s.gangTry g
    | none => s)

/-! ### The bind table and the chip scratchpad -/

/-- The mask of cores of retired regions (29 R471). -/
def State.retiredCores (s : State) : List Nat :=
  (List.range 20).flatMap (fun r => if bitOf s.agestat r then (List.range 16).map (fun x => 160 * (r / 10) + 16 * (r % 10) + x) else [])

/-- BIND_RECORD_WRITE: one 64-byte record, whose function's running values return to 0. The record written is reported if it is
disregarded, and so are the records that become so by it (R201). -/
def execBindRecordWrite (part slot : Nat) (rec : List Byte) (s : State) : Host.Outcome State Fault Refusal :=
  let r := s.retiredCores.foldl (fun r c => if bindCore r c then r - 2 ^ (136 + c) else r) (ofLE rec)
  .next (if 31 < part ∨ 127 < slot ∨ rec.length ≠ 64 then s else
    let p := s.prt part
    let q := p.rebind (tput 0 p.slots slot r) [bindFunc r]
    let now := (List.range 128).filterMap (fun k => match q.disregards k with
      | some x => if k = slot ∨ p.disregards k ≠ some x then some (k, x) else none
      | none => none)
    now.foldl (fun (s : State) (e : Nat × Nat) => s.post (bindFunc (tget 0 q.slots e.1)) 0xFF 0x40 [(16, 1, e.1), (17, 1, part), (18, 1, e.2)])
      (s.setPrt part q))

/-- CHIP_SCRATCHPAD_GRANT: the granules of a function in order; those it gains or loses read 0. -/
def execChipScratchpadGrant (func : Nat) (granules : List Nat) (s : State) : Host.Outcome State Fault Refusal :=
  let f := s.func func
  let others := s.funcs.flatMap (fun (e : Nat × Func) => if e.1 = func then [] else e.2.grant)
  let moved (g : Nat) : Bool := f.grant.contains g != granules.contains g
  .next (if 64 < granules.length ∨ granules.eraseDups.length ≠ granules.length ∨ granules.any (fun g => decide (63 < g) || others.contains g) = true
    then s
    else { s.setFunc func { f with grant := granules } with
           chip := s.chip.filter (fun (e : Nat × Byte) => !moved (e.1 / 2 ^ 20)),
           chipMarks := s.chipMarks.filter (fun w => !moved (w / 2 ^ 17)) })

/-! ### Kills, and grids that never complete (R389, R390) -/

/-- A grid is abandoned: GRIDLOST to its queue, and nothing of it is placed any more; it is gone when no team of it is left. -/
def State.abandon (s : State) (rung gid : Nat) : State :=
  match s.grid? gid with
  | none => s
  | some g =>
    if g.abandoned then s else
    let s := s.post g.func g.queue 0x16 [(16, 1, rung), (24, 8, g.lrec.ccnt)]
    let s := { s with parts := s.parts.map (fun (e : Nat × Part) => (e.1, { e.2 with pool := e.2.pool.filter (fun x => x ≠ gid) })) }
    let left := s.teams.any (fun (e : Nat × Team) => decide (e.2.grid = gid)) || s.saved.any (fun x => x.teams.any (fun t => decide (t.2 = gid)))
    (if left then s.setGrid gid { g with abandoned := true } else { s with grids := tdel s.grids gid }).wakeLaunch

/-- A team is killed without a save; `brk`: its cells and barriers break (14 R257). -/
def State.killTeam (s : State) (brk : Bool) (tid : Nat) : State :=
  match s.team? tid with
  | none => s
  | some t =>
    let s := if brk then (s.groupsOf tid).foldl (fun s gk => s.breakCells gk) s else s
    s.dropTeam tid t

/-- Cards that `p` selects go with no completion. -/
def State.killCards (s : State) (brk : Bool) (p : Card → Bool) : State :=
  (s.allCards.filter p).foldl (fun s c => ((if brk then s.breakCard c else s).forgetEng c.die c.func).removeCard c) s

/-- The teams that `p` selects are killed with the cards, and their grids abandoned. -/
def State.killTeams (s : State) (rung : Nat) (brk : Bool) (p : Team → Bool) (cards : Card → Bool) : State :=
  let ts := s.teams.filter (fun (e : Nat × Team) => p e.2)
  let s := s.killCards brk cards
  let s := ts.foldl (fun s (e : Nat × Team) => s.killTeam brk e.1) s
  let s := (ts.map (fun (e : Nat × Team) => e.2.grid)).eraseDups.foldl (fun s g => s.abandon rung g) s
  ({ s with cur := none, biGo := [] }).wakeMem.wakeLaunch.finishRecalls

/-- The register page of a function returns to Reset (Table 22-1). -/
def Func.pageReset (f : Func) : Func :=
  { f with fqOut := [], xvec := 0, s1root := 0, lpbase := 0, lpsize := 0, lpteams := 0, fqbase := 0, fqlen := 0, fqhead := 0, fqtail := 0, fqLost := 0,
           savebase := 0, savelen := 0, metreq := none, metstat := 0, err := [] }

/-- L1 lines, instruction lines and requests of a function go from a core. -/
def Core.dropFunc (k : Core) (func : Nat) : Core :=
  let k := k.dropLines (fun l => decide (l.func = func))
  let peers : Table Peer := k.peers.map (fun (q : Nat × Peer) =>
    let slots : Table RReq := q.2.slots.filter (fun (z : Nat × RReq) => decide (z.2.func ≠ func))
    (q.1, { q.2 with slots := slots, stores := q.2.stores.filter (fun z => decide (z.func ≠ func)) }))
  { k with later := k.later.filter (fun r => r.func ≠ func), icache := k.icache.filter (fun l => l.func ≠ func), fetches := k.fetches.filter (fun f => f.func ≠ func),
           peers := peers.filter (fun (q : Nat × Peer) => !(decide (q.2.slots = []) && decide (q.2.stores = []))) }

/-- The caches of every core lose a function, and its translations go. -/
def State.dropCaches (s : State) (func : Nat) : State :=
  let s := { s with cores := s.cores.map (fun (e : Nat × Core) => (e.1, e.2.dropFunc func)) }
  let s := { s with dies := s.dies.map (fun (e : Nat × Die) => (e.1, { e.2 with
    walkq := e.2.walkq.filter (fun r => r.func ≠ func), walking := e.2.walking.filter (fun r => r.func ≠ func) })) }
  (s.dropS1 func (fun _ _ => true)).dropS2 func 0 (2 ^ 64)

/-- A management packet of a migration (23 R396). -/
def State.migPacket (s : State) (x : Mig) (type stat : Nat) (payload : List Byte) : Packet :=
  { dst := x.peer, src := ((s.func x.func).vdn).getD 0, type := type, vc := 3, stat := stat, rid := 0, addr := 0, broken := false,
    sealed := none, genuine := true, payload := payload }

/-- The other device hears that a migration is off (R406): from the source a packet of kind 2, from the destination a refusal. -/
def State.migOff (s : State) (x : Mig) : State :=
  match x.st with
  | 1 | 2 | 3 => s.send (s.migPacket x 0x30 0 (leBytes 2 1))
  | 4 => s.send { s.migPacket x 0x30 0 (leBytes 2 1) with src := x.vdn.getD 0 }
  | 8 => s.send (s.migPacket x 0x31 2 [])
  | _ => s

/-- What a destination has received before step 6 is discarded (R406). -/
def State.migDiscard (s : State) (x : Mig) : State :=
  if x.st ≠ 8 ∨ x.phase ≠ 0 then s else
  (x.recv.foldl (fun (s : State) a =>
    let bs (a : Nat) : List Byte := (List.range 128).map (fun i => Config.discarded s.freeCtr (a + i))
    if 2 ^ 60 ≤ a then s.padWrite .chip ((a - 2 ^ 60) * 128) (bs (a * 128)) else s.homeWrite (.loc (a * 128)) (bs (a * 128))) s).useFree.wakeMem

/-- A migration of the function is abandoned on both devices (23 R406): its windows go, and its block is FAILED. -/
def State.dropMig (s : State) (func : Nat) : State :=
  let hit := s.migs.filter (fun (e : Nat × Mig) => decide (e.2.func = func) && !e.2.idle)
  hit.foldl (fun s (e : Nat × Mig) =>
      { (s.migOff e.2).migDiscard e.2 with migs := tput {} s.migs e.1 { e.2.quiet with st := 7 } }.post 0 0xFF 0x50 [(16, 1, e.1), (17, 1, 7)])
    { s with wins := s.wins.filter (fun w => w.func ≠ func) }

/-- The reset of one function (R389). -/
def State.resetFunc (s : State) (rung func : Nat) : State :=
  let s := { s with saved := s.saved.filter (fun x => x.func ≠ func), saving := s.saving.filter (fun j => (s.plane j.plane).func ≠ some func) }
  let s := s.killTeams rung false (fun t => decide (t.func = func)) (fun c => decide (c.func = func))
  let s := (s.grids.filter (fun (e : Nat × Grid) => decide (e.2.func = func))).foldl (fun s (e : Nat × Grid) => s.abandon rung e.1) s
  let s := { s with breaks := s.breaks.filter (fun b => decide (b.func ≠ func)) }
  let gone := s.gangs.filter (fun g => g.parts.any (fun p => decide (p.1 = func)))
  let s := gone.foldl (fun s g => { s with gangs := s.gangs.filter (fun x => x ≠ g) }.cmdEvent 6 g.seq (some 3)) s
  let s := (((s.dropCaches func).dropMig func).memberLost func).dropMember func
  let s := s.finalise func
  let f := s.func func
  s.setFunc func { f.pageReset with frozen := false, queues := [], pri := [], priWait := [], atc := [], devBuf := [], hsets := [], meter := { seq := f.meter.seq, final := f.meter.final } }

/-- VF_FLR. -/
def execVfFlr (func : Nat) (s : State) : Host.Outcome State Fault Refusal :=
  .next (if func = 0 ∨ !(s.func func).exist then s else s.resetFunc 0 func)

/-- The VFs that exist are those that VF Enable and NumVFs give (R377), once the device is ready. -/
def State.setVfs (s : State) : State :=
  (List.range 128).foldl (fun s n =>
    let f := s.func n
    let e := s.isReady && !s.recovery && (decide (n = 0) || (s.vfEnable && decide (n ≤ s.numVFs)))
    if f.exist = e then s
    else s.setFunc n (if e then { f.pageReset with exist := true, gone := false, frozen := false, meter := {} }
      else { f with exist := false, gone := true })) s

/-- VF_ENABLE_CLEAR: every VF that it removes is reset. -/
def execVfEnableClear (s : State) : Host.Outcome State Fault Refusal :=
  let vfs := (List.range 128).filter (fun n => decide (n ≠ 0) && (s.func n).exist)
  let s := vfs.foldl (fun s n => s.resetFunc 0 n) s
  .next { s with vfEnable := false }.setVfs

/-- VF_ENABLE_SET. -/
def execVfEnableSet (n : Nat) (s : State) : Host.Outcome State Fault Refusal :=
  .next { s with vfEnable := true, numVFs := min n 127 }.setVfs

/-! ### The reset ladder (R390) -/

/-- RESET QUEUE. -/
def execResetQueue (func queue : Nat) (s : State) : Host.Outcome State Fault Refusal :=
  s.command 2 (inRange (decide (func < 128) && decide (queue < 64))) (fun s =>
    let f := s.func func
    s.setFunc func { f with queues := tput [] f.queues queue [], err := tput 0 f.err queue 0 })

def engCls : EngCls → Nat | .copy => 0 | .comp => 1 | .coll => 2

/-- RESET ENGINE: its cards end as XDRAIN.cancel ends them. -/
def execResetEngine (die : Nat) (cls : EngCls) (i : Nat) (s : State) : Host.Outcome State Fault Refusal :=
  s.command 2 (inRange (decide (die < 2) && decide (i < engines (engCls cls)))) (fun s =>
    ((s.die die).cards.filter (fun c => decide (c.st.engine = some (64 * engCls cls + i)))).foldl (fun s c => s.endCard c 2 true) s)

/-- The cells and barriers that the groups of a saved image still name break (14 R257): its CELL records of ACQWT and CNTWT, and its
BARRIER records whose MGEN is still the cell's. -/
def State.breakSaved (s : State) (x : Saved) : State :=
  let at' (s : State) (va : Nat) (mgen : Option Nat) : State := s.breakAt ⟨x.core % 320, x.func, (s.func x.func).s1root, va, mgen⟩
  match (s.devRead 0 x.func true x.va x.len).bytes?.bind readImage with
  | none => s
  | some (_, teams) =>
    (teams.flatMap (fun t => t.2)).foldl (fun s r =>
      if r.type = 4 then at' s (r.num 16 8) (some (r.num 24 4))
      else if r.type = 5 ∧ (r.num 24 1 % 16 = 3 ∨ r.num 24 1 % 16 = 6) then at' s (r.num 16 8) none
      else s) s

/-- A rung of R390 ends a function's freeze (19 R353). -/
def State.thaw (s : State) (func : Nat) : State := s.setFunc func { s.func func with frozen := false }

/-- The PARTITION rung. -/
def State.rungPart (s : State) (part : Nat) : State :=
  let fs := (List.range 128).filter (fun f => (s.func f).exist && decide ((s.func f).part = some part))
  let s := { s with saving := s.saving.filter (fun j => match (s.plane j.plane).func with | some f => !fs.contains f | none => true) }
  let s := (s.saved.filter (fun x => fs.contains x.func)).foldl State.breakSaved s
  let lost := (s.saved.filter (fun x => fs.contains x.func)).flatMap (fun x => x.teams.map (·.2))
  let s := { s with saved := s.saved.filter (fun x => !fs.contains x.func) }
  let s := s.killTeams 3 true (fun t => fs.contains t.func) (fun c => fs.contains c.func)
  let s := lost.eraseDups.foldl (fun s g => s.abandon 3 g) s
  fs.foldl (fun s f => let s := ((s.dropMember f).finalise f).thaw f; let x := s.func f; s.setFunc f x.pageReset) s

def execResetPartition (part : Nat) (s : State) : Host.Outcome State Fault Refusal :=
  s.command 2 (inRange (decide (part < 32))) (fun s => s.rungPart part)

/-- Lines that the L2 slices of a die held dirty and could not write back are marked (25 R415); which ones is a free value. -/
def State.loseLines (s : State) (die : Nat) : State :=
  let (mine, rest) := s.l2Dirty.partition (fun l => decide (homeDie (l * 512) = die))
  let lost := mine.filter (fun l => Config.lineLost s.freeCtr l)
  { s with l2Dirty := rest, memMarks := addMarks s.memMarks (lost.flatMap (fun l => (List.range 512).map (· + 512 * l))) }.useFree

/-- The DIE rung: the die's teams and cards go, its caches are empty, and its L2 is written back where it can be. -/
def State.rungDie (s : State) (die : Nat) : State :=
  let fs := (((s.teams.filter (fun (e : Nat × Team) => decide (e.2.core / 160 = die))).map (fun (e : Nat × Team) => e.2.func)) ++
    ((s.allCards.filter (fun c => decide (c.die = die))).map (fun c => c.func))).eraseDups
  let s := { s with saving := s.saving.filter (fun j => decide (j.plane / 480 ≠ die)) }
  let s := s.killTeams 4 true (fun t => decide (t.core / 160 = die)) (fun c => decide (c.die = die))
  let s := { s with cores := s.cores.map (fun (e : Nat × Core) =>
                    if e.1 / 160 = die then (e.1, { part := e.2.part, lentTo := e.2.lentTo, wtb := e.2.wtb }) else e) }
  let d := s.die die
  let s := (s.setDie die { d with tlb := {}, walkq := [], walking := [], wfail := [] }).loseLines die
  fs.foldl (fun s f => ((s.dropMember f).finalise f).thaw f) s

def execResetDie (die : Nat) (s : State) : Host.Outcome State Fault Refusal :=
  s.command 2 (inRange (decide (die < 2))) (fun s => s.rungDie die)

/-- The FLR rung: every function, its pages, the event ring and the migration blocks. -/
def State.rungFlr (s : State) : State :=
  let fs := (List.range 128).filter (fun f => (s.func f).exist)
  let s := fs.foldl (fun s f => s.resetFunc 5 f) s
  let busy := s.migs.filter (fun (e : Nat × Mig) => decide (e.2.st ≠ 0))
  let s := { s with ringBase := 0, ringLen := 0, ringHead := 0, ringTail := 0, migs := [], wins := [], cmdSeq := 0, agenda := [], afterBi := [], cur := none }
  busy.foldl (fun s (e : Nat × Mig) => s.post 0 0xFF 0x50 [(16, 1, e.1), (17, 1, 0)]) s

/-- The module as power-on leaves it: the host's memory, the switch, what has left on the fabric and the flash are outside it. -/
def State.powerUp (s : State) : State :=
  { State.reset with hostMem := s.hostMem, sw := s.sw, netOut := s.netOut, agestat := s.agestat, agehrs := s.agehrs, plan := s.plan, flashMeters := s.flashMeters,
                     minVer := s.minVer, flashVer := s.flashVer, flashOk := s.flashOk, freeCtr := s.freeCtr }

/-- The DEVICE rung: the last reports go to flash, and the module is as after power-on. -/
def State.rungDevice (s : State) : State :=
  let fs := (List.range 128).filter (fun f => (s.func f).exist)
  let s := fs.foldl (fun s f =>
    let s := (s.dropMember f).finalise f
    match (s.func f).meter.final with
    | some r => { s with flashMeters := tset s.flashMeters f r }
    | none => s) s
  (s.migs.foldl (fun s (e : Nat × Mig) => s.migOff e.2) s).powerUp

/-- RESET FLR: its DONE is held for the next ring. -/
def execResetFlr (s : State) : Host.Outcome State Fault Refusal :=
  let seq := s.cmdSeq
  if s.recovery then s.command 2 (some 3) id else .next (s.rungFlr.cmdEvent 2 seq none)

/-- RESET DEVICE. -/
def execResetDevice (s : State) : Host.Outcome State Fault Refusal :=
  let seq := s.cmdSeq
  if s.recovery then s.command 2 (some 3) id else .next (s.rungDevice.cmdEvent 2 seq none)

/-- MODULE_RESET_PIN. -/
def execModuleResetPin (s : State) : Host.Outcome State Fault Refusal := .next s.rungDevice

/-! ### The Keystone pair (R388) -/

/-- KEYSTONE_RESTART: a mismatch restarts the pair; a second one within a second, or a failed restart, applies the DEVICE
rung. -/
def execKeystoneRestart (failed : Bool) (s : State) : Host.Outcome State Fault Refusal :=
  let again := match s.ksLast with | some t => decide (s.clock < t + 4000000000) | none => false
  .next (if failed || again then s.rungDevice.post 0 0xFF 0x62 [(16, 1, 2)]
    else { s with ksLast := some s.clock }.post 0 0xFF 0x62 [(16, 1, 1)])

end Sys2Proof.Machine
end

