-- ==== Sys2Proof/Machine/HostMem.lean ====
section
/-!
DEFINITION. What the host and the module do to memory and to the machine as a whole (29): CXL.mem and back-invalidation, snoops and
ATS invalidations, soft errors (01 R23, 10 R184, 13 R216, R227, R231), power and ageing, bring-up.
-/
namespace Sys2Proof.Machine

/-! ### Host accesses to device memory (R465, R466) -/

/-- The bytes that a host access names. -/
def accRange (a : HostAcc) : Nat × Nat :=
  match a with
  | .read ma n => (ma, n)
  | .write ma bs => (ma, bs.length)
  | .cas ma _ _ => (ma, 8)
  | .hold ma => (ma, 1)

/-- A device write to a line of the access is on its way behind a BISnpInv. -/
def State.hostWaits (s : State) (a : HostAcc) : Bool :=
  let (ma, n) := accRange a
  let hit (l : Nat) : Bool := decide (ma / 512 ≤ l) && decide (l * 512 < ma + n)
  s.biPend.any hit || s.biGo.any hit

/-- The host writes behind the final sweep of a migration: its value is not copied (23 R400). -/
def State.keepSwept (s : State) (ma n : Nat) : State :=
  { s with migs := s.migs.map (fun (e : Nat × Mig) =>
      if e.2.st = 3 ∧ e.2.phase = 1 then
        let now := (linesOf ma n).filter (fun b => e.2.todo.contains b && !e.2.kept.any (fun k => decide (k.1 = b)))
        (e.1, { e.2 with kept := e.2.kept ++ now.map (fun b => (b, readBytes s.mem (b * 512) 512)) })
      else e) }

/-- A write of the host to device memory: bytes of a dirty map are those of its window (23 R393). -/
def State.hostStore (s : State) (ma : Nat) (bs : List Byte) : State :=
  let s := (s.keepSwept ma bs.length).homeWrite (.loc ma) bs
  { s with wins := s.wins.map (fun w => (bs.zipIdx).foldl (fun w (b, i) => w.putByte (ma + i) b) w) }.wakeMem

/-- A host access at the home. -/
def State.hostAccess (s : State) (a : HostAcc) : State :=
  let (ma, n) := accRange a
  if !maBacked ma || !maBacked (ma + (n - 1)) || decide (ma / 2 ^ 40 ≠ (ma + (n - 1)) / 2 ^ 40) then s else
  match a with
  | .read .. => s
  | .write ma bs => s.hostStore ma bs
  | .cas ma old new =>
    if readLE s.mem ma 8 = old.toNat then s.hostStore ma (leBytes new.toNat 8) else s
  | .hold ma => { s with snoop := insNat (ma / 512) s.snoop }

/-- HOST_MEM_ACCESS: in the order of arrival, behind a device write that waits for the same line. -/
def execHostMemAccess (a : HostAcc) (s : State) : Host.Outcome State Fault Refusal :=
  .next (if s.hostWaits a then { s with hostWait := s.hostWait ++ [a] } else s.hostAccess a)

/-- The host accesses that wait no longer, in order. -/
def State.hostGo (s : State) : State :=
  let w := s.hostWait
  w.foldl (fun (s : State) a => if s.hostWaits a then { s with hostWait := s.hostWait ++ [a] } else s.hostAccess a) { s with hostWait := [] }

/-- Requests of peers that waited for a line. -/
def serveAll : List Packet → State → Host.Outcome State Fault Refusal
  | [], s => .next s
  | p :: r, s => match s.serveRequest p with
    | .next s => serveAll r s
    | .fault f => .fault f
    | .refused x => .refused x

/-- BIRSP: the host gives a line back. Its dirty bytes are performed, then the requests of peers that waited; device writes of this
device are made again, and moves that waited for a line (R466). -/
def execBirsp (ma : Nat) (bytes : List Byte) (s : State) : Host.Outcome State Fault Refusal :=
  let l := ma / 512
  if !s.biPend.contains l then .next s else
  let s := if bytes = [] then s else s.hostStore (l * 512) (bytes.take 512)
  let s := { s with snoop := s.snoop.filter (fun x => x ≠ l), biPend := s.biPend.filter (fun x => x ≠ l), biGo := insNat l s.biGo }
  let (mine, rest) := s.netWait.partition (fun p => decide ((s.servedAt p).map (fun a => a / 512) = some l))
  serveAll mine { s.leafBack l with netWait := rest, agenda := s.agenda ++ s.afterBi, afterBi := [] }

/-- HOST_SNOOP: the device's L2 line of host memory goes, with its marks (R467). -/
def execHostSnoop (ha : Nat) (s : State) : Host.Outcome State Fault Refusal :=
  .next { s with hostLines := tdel s.hostLines (ha / 512), hostMarks := s.hostMarks.filter (fun a => decide (a / 512 ≠ ha / 512)) }

/-- ATS_INVALIDATION: every access of the function to the host range is accepted by the host, and the device keeps no translation of
the range (20 R358). -/
def execAtsInvalidation (func va len : Nat) (s : State) : Host.Outcome State Fault Refusal :=
  let hit (t : Tgt) : Bool := match t with
    | .host ha => decide (va ≤ ha + 31) && decide (ha < va + len)
    | .loc _ | .fab .. | .notify .. => false
  let isHost (t : Tgt) : Bool := match t with
    | .host _ => true
    | .loc _ | .fab .. | .notify .. => false
  let s := (s.cores.filter (fun (c : Nat × Core) => c.2.wtb.any (fun e => decide (e.func = func) && hit e.tgt))).foldl (fun s c =>
    match s.drain c.1 (fun e => decide (e.func = func) && isHost e.tgt) with
    | .ok s => s
    | .error s => s) s
  let f := s.func func
  .next (s.setFunc func { f with atc := f.atc.filter (fun p => decide (p * 4096 + 4096 ≤ va) || decide (va + len ≤ p * 4096)) })

/-! ### Soft errors -/

/-- The die where an error strikes: of a granule of the chip scratchpad, the one where it lies (log entry 46). -/
def State.errDie (s : State) (p : ErrPlace) : Nat :=
  let core (t : Nat) : Nat := match s.team? t with | some t => t.core | none => 0
  match p with
  | .reg gk _ _ => core (gk / 32) / 160
  | .weight pl _ _ | .bank pl _ => pl / 480
  | .scratch t _ => core t / 160
  | .l1 c .. => c / 160
  | .chip w => if granuleDie (w / 2 ^ 17) then 1 else 0
  | .mem a => homeDie a
  | .host _ => 0
  | .link d => d

/-- The place exists (00 R1, Table 0-1). -/
def State.errPlaced (s : State) (p : ErrPlace) : Bool :=
  match p with
  | .reg gk l n => (tfind s.groups gk).isSome && decide (l ≤ 31) && decide (n ≤ 254)
  | .weight pl _ e => decide (pl ≤ 959) && decide (e ≤ 16383)
  | .bank pl w => decide (pl ≤ 959) && decide (w ≤ 65535)
  | .scratch t w => (s.team? t).any (fun x => decide (w < 128 * x.lrec.spad))
  | .l1 c _ _ sector => decide (c ≤ 319) && decide (sector ≤ 15)
  | .chip w => decide (w < 64 * 2 ^ 17)
  | .mem a => maBacked a
  | .host a => (tfind s.hostLines (a / 512)).isSome
  | .link d => decide (d ≤ 1)

/-- The marks that an uncorrectable error leaves. -/
def State.strike (s : State) (p : ErrPlace) : State :=
  match p with
  | .reg gk l n =>
    let g := s.group gk
    let a := Config.markAddr l n
    s.setGroup gk (if 224 ≤ n then { g with smarks := tset g.smarks (n - 224) a }
      else g.modLane l (fun x => { x with marks := tset x.marks n a }))
  | .weight pl shadow e =>
    let x := s.plane pl
    s.setPlane pl (if shadow then { x with shadowW := { x.shadowW with marks := addMarks x.shadowW.marks [e] } }
      else { x with liveW := { x.liveW with marks := addMarks x.liveW.marks [e] } })
  | .bank pl w =>
    let x := s.plane pl
    s.setPlane pl { x with bankMarks := addMarks x.bankMarks [w] }
  | .scratch t w => s.markPad (.team t) (8 * w) 8
  | .chip w => s.markPad .chip (8 * w) 8
  | .mem a => s.markHome (.loc a) 1
  | .host a => if s.hostMarks.contains a then s else { s with hostMarks := s.hostMarks ++ [a] }
  | .l1 .. | .link _ => s

/-- Where stage 2 puts a function-physical address now. -/
def State.lineTarget (s : State) (func fpa : Nat) : Option Tgt :=
  match walk2 s.mem (s.func func).s2root fpa with
  | .leaf e => some (leaf2Target e (fpa / 65536) fpa)
  | .fail _ | .unbacked _ => none

/-- A parity error in a sector drops the line of the function and fetches its sectors again (13 R227). -/
def State.parity (s : State) (core func line sector : Nat) : State :=
  let k := s.core core
  let hit (l : L1Line) : Bool := decide (l.func = func) && decide (l.line = line) && l.valid.getLsbD sector
  match k.l1.find? hit with
  | none => s
  | some l =>
    let s := s.setCore core (k.dropLines hit)
    match s.lineTarget func (line * 512) with
    | none => s
    | some t =>
      let f : Fill := { func := func, line := line, off := 0, len := 512, keep := l.valid, tgt := t, stable := l.stable, fepoch := s.epoch }
      match t with
      | .loc _ | .host _ => s.setCore core ((s.core core).fill s.epoch (s.fillLine f))
      | .fab v ma => ((List.range 4).filter (fun i => decide (l.valid &&& (0xF#16 <<< (4 * i)) ≠ 0))).foldl (fun s i =>
          s.requestLater core func v 1 (ma + 128 * i) [] (.pref (2 ^ 44) 0 { f with off := 128 * i, len := 128, tgt := .fab v (ma + 128 * i) })) s
      | .notify .. => s

/-- SOFT_ERROR: the die's error log counts it; one in L1 drops the line and fetches it again, one on the die-to-die link is corrected or
retried inside the link (25 R414), and one that is not corrected elsewhere leaves its mark. -/
def execSoftError (p : ErrPlace) (corrected : Bool) (s : State) : Host.Outcome State Fault Refusal :=
  if !s.errPlaced p then .next s else
  let d := s.errDie p
  let x := s.die d
  let s := s.setDie d { x with errlog := x.errlog + 1 }
  .next (match p with
    | .l1 c func line sector => s.parity c func line sector
    | .link _ => s
    | .reg .. | .weight .. | .bank .. | .scratch .. | .chip _ | .mem _ | .host _ => if corrected then s else s.strike p)

/-! ### Power (R469) -/

/-- PWRLIM_WRITE. -/
def execPwrlimWrite (v : Nat) (s : State) : Host.Outcome State Fault Refusal :=
  .next (if 1500 ≤ v ∧ v ≤ 3000 then { s with pwrlim := v } else s)

/-- POWER_SAMPLE: one of the samples of 100 µs; the average is over ten. The core clock of every region is lowered by a step while one
stands above 2.0 GHz, and raised again in the same steps. -/
def execPowerSample (watts : Nat) (s : State) : Host.Outcome State Fault Refusal :=
  let hist := (watts :: s.powerHist).take 10
  let avg := hist.foldl (· + ·) 0 / 10
  let s := { s with powerHist := hist, pwrnow := avg }
  .next (if s.pwrlim < avg then
      (if (List.range 22).any (fun r => decide (2000 < s.regionClock r)) then { s with caps := s.caps + 1 }
       else s.post 0 0xFF 0x60 [(16, 4, avg), (20, 4, s.pwrlim)])
    else if avg * 100 ≤ s.pwrlim * 95 then { s with caps := s.caps - 1 }
    else s)

/-! ### Ageing (R470, R471) -/

/-- The cores of a region: a row of a die; none for the stacked SRAM dies. -/
def regionCores (r : Nat) : List Nat := if 20 ≤ r then [] else (List.range 16).map (fun x => 160 * (r / 10) + 16 * (r % 10) + x)

/-- The planes of a region that hold teams. -/
def State.regionPlanes (s : State) (r : Nat) : List Nat :=
  ((regionCores r).flatMap (fun c => (List.range 3).map (· + 3 * c))).filter (fun pl => decide ((s.plane pl).teams ≠ []))

/-- A region is retired: its cores leave every bind record, its planes are saved, its bit of AGESTAT and its event. -/
def State.retireRegion (s : State) (r : Nat) : State :=
  let s := (List.range 32).foldl (fun s p => (regionCores r).foldl (fun s c => s.dropCoreBit p c) s) s
  let s := (s.regionPlanes r).foldl (fun s pl => s.startSave pl .slice) s
  { s with agestat := s.agestat + 2 ^ r }.post 0 0xFF 0x61 [(16, 1, r)]

/-- Retirements whose functions are in no stop phase take place. -/
def State.retireDue (s : State) : State :=
  let w := s.retireWait
  w.foldl (fun (s : State) r =>
    if (s.regionPlanes r).any (fun pl => match (s.plane pl).func with | some f => s.stopping f | none => false)
    then { s with retireWait := s.retireWait ++ [r] } else s.retireRegion r) { s with retireWait := [] }

/-- AGEING_REPLAN: a powered hour is recorded, the highest clock of each region is planned anew, and a region that keeps its margin no
more is retired. -/
def execAgeingReplan (retire : Option Nat) (s : State) : Host.Outcome State Fault Refusal :=
  let s := { s with
    agehrs := (s.agehrs + 1) % 2 ^ 32, freeCtr := s.freeCtr + 1,
    plan := (List.range 22).foldl (fun t r => tput 4000 t r (min 4000 (max 2000 (Config.plannedClock s.freeCtr r)))) [] }
  .next (match retire with
    | none => s
    | some r => if 21 < r ∨ bitOf s.agestat r = true ∨ s.retireWait.contains r = true then s
      else { s with retireWait := s.retireWait ++ [r] }.retireDue)

/-! ### Bring-up (R472, R473) -/

/-- POWER_ON. -/
def execPowerOn (s : State) : Host.Outcome State Fault Refusal := .next s.powerUp

/-- DEVICE_READY: the image's signature and version decide between work and recovery; memory reads 0. -/
def execDeviceReady (s : State) : Host.Outcome State Fault Refusal :=
  .next (if s.isReady then s else
    { s with isReady := true, recovery := !s.flashOk || decide (s.flashVer < s.minVer), mem := [], memMarks := [] }.setVfs)

/-- CONFIG_IMAGE_WRITE: the image in flash, applied by the next bring-up. -/
def execConfigImageWrite (ver : Nat) (ok : Bool) (s : State) : Host.Outcome State Fault Refusal :=
  .next { s with flashVer := ver, flashOk := ok }

end Sys2Proof.Machine
end

