-- ==== Sys2Proof/Machine/Migration.lean ====
section
/-!
DEFINITION. Live migration (23): the control blocks, track windows, the Trowel, the stop phase, the manifest, forwarding, and the
destination's side (payloads of copies: log entry 22).
-/
namespace Sys2Proof.Machine

/-! ### Control blocks (R391, R392) -/

def State.mig (s : State) (m : Nat) : Mig := tget {} s.migs m
def State.setMig (s : State) (m : Nat) (x : Mig) : State := { s with migs := tput {} s.migs m x }

/-- A block takes a new STATE, with its event. -/
def State.migMove (s : State) (m : Nat) (x : Mig) (st : Nat) : State :=
  (s.setMig m { x with st := st }).post 0 0xFF 0x50 [(16, 1, m), (17, 1, st)]

/-- A migration ends before step 6: its windows are not valid any more (R406), and the other device hears of it. Saved planes come back
through dispatch. -/
def State.migQuit (s : State) (m st : Nat) : State :=
  let x := s.mig m
  let s := (s.migOff x).migDiscard x
  ({ s with wins := s.wins.filter (fun w => w.func ≠ x.func) }.migMove m x.quiet st).retireDue

/-- A command that does not apply: FAIL, and nothing else. -/
def State.migFail (s : State) (cmd reason : Nat) : State := s.cmdEvent cmd s.cmdSeq (some reason)

/-! ### Local memory of a function (R393) -/

/-- The entries of a table of `n` entries at `a` that are not 0, by index. -/
def tableEntries (mem : Table Byte) (a n : Nat) : List (Nat × Nat) :=
  let ks := (mem.filter (fun (e : Nat × Byte) => decide (a ≤ e.1) && decide (e.1 < a + 8 * n))).map (fun (e : Nat × Byte) => (e.1 - a) / 8)
  (ks.foldl (fun (l : List Nat) k => if l.head? = some k then l else k :: l) []).reverse.map (fun k => (k, readLE mem (a + 8 * k) 8))

/-- The pages that a valid leaf of KIND 0 at a page reaches, with their machine pages: the whole group of its RUN (20 R356). -/
def runPages (page e : Nat) : List (Nat × Nat) :=
  let n := 2 ^ bits e 13 10
  (List.range n).map (fun i =>
    let q := page / n * n + i
    (q, wrapN 36 (((bits e 51 16 + q : Nat) : Int) - page)))

/-- What the valid stage-2 leaves of KIND 0 reach: pages of FPAs with their machine pages, each once. -/
def localLeaves (mem : Table Byte) (root : Nat) : List (Nat × Nat) :=
  if root = 0 then [] else
  ((tableEntries mem (root / 65536 * 65536) 1024).flatMap (fun (e2 : Nat × Nat) => match ptrNext e2.2 with
    | none => []
    | some t1 => (tableEntries mem t1 8192).flatMap (fun (e1 : Nat × Nat) => match ptrNext e1.2 with
      | none => []
      | some t0 => (tableEntries mem t0 8192).flatMap (fun (e0 : Nat × Nat) =>
          if leaf2Ok e0.2 && decide (bits e0.2 6 5 = 0) then runPages ((e2.1 * 2 ^ 13 + e1.1) * 2 ^ 13 + e0.1) e0.2 else [])))).eraseDups

/-- Runs of consecutive numbers in an ascending list: first and length. -/
def runsIn (l : List Nat) : List (Nat × Nat) :=
  (l.foldl (fun (r : List (Nat × Nat)) p => match r with
    | (b, n) :: t => if p < b + n then r else if p = b + n then (b, n + 1) :: t else (p, 1) :: r
    | [] => [(p, 1)]) []).reverse

def State.leavesOf (s : State) (func : Nat) : List (Nat × Nat) := localLeaves s.mem (s.func func).s2root

/-- Windows come for the local ranges of a function that none covers, every bit of their maps set (R393, R396); `none` where the 64 do not
suffice. -/
def State.growWins (s : State) (func : Nat) : Option State :=
  let has (p : Nat) : Bool := s.wins.any (fun w => decide (w.func = func) && decide (w.base ≤ p) && decide (p < w.base + w.len))
  let rs := runsIn (sortBy (fun (p : Nat) => p) (((s.leavesOf func).map (fun (e : Nat × Nat) => e.2)).filter (fun p => !has p)))
  if 64 < s.wins.length + rs.length then none else
  let ws := (rs.zipIdx).map (fun (r, i) =>
    ({ func := func, base := r.1, len := r.2, map := 16 * (Config.mapAt (s.freeCtr + i)).toNat,
       dirty := (List.range (r.2 * 128)).map (· + r.1 * 128) } : Win))
  some { s with wins := s.wins ++ ws, freeCtr := s.freeCtr + ws.length }

/-- Runs of pages that follow each other in both numbers: the first page, its machine page, their number. -/
def pairRuns (l : List (Nat × Nat)) : List (Nat × Nat × Nat) :=
  (l.foldl (fun (r : List (Nat × Nat × Nat)) e => match r with
    | (p, a, n) :: t => if e.1 = p + n ∧ e.2 = a + n then (p, a, n + 1) :: t else (e.1, e.2, 1) :: r
    | [] => [(e.1, e.2, 1)]) []).reverse

/-- Every page of some runs has a local leaf in a function's map here. -/
def State.mapsAll (s : State) (func : Nat) (l : List (Nat × Nat × Nat)) : Bool :=
  let leaves := s.leavesOf func
  l.all (fun r => (List.range r.2.2).all (fun i => leaves.any (fun e => decide (e.1 = r.1 + i))))

/-! ### Copies (R396) -/

/-- A copy of a migration leaves and is to be acknowledged. -/
def State.copySend (s : State) (m : Nat) (payload : List Byte) : State :=
  let x := s.mig m
  (s.setMig m { x with unacked := x.unacked + 1, last := s.clock }).send (s.migPacket x 0x30 0 payload)

/-- The destination is told of the pages that the source maps locally (R392). -/
def State.announce (s : State) (m : Nat) : State :=
  let x := s.mig m
  let known (p : Nat) : Bool := x.map.any (fun r => decide (r.1 ≤ p) && decide (p < r.1 + r.2.2))
  let new := pairRuns (sortBy (fun (e : Nat × Nat) => e.1) ((s.leavesOf x.func).filter (fun e => !known e.1)))
  let s := s.setMig m { x with map := x.map ++ new }
  (if new = [] ∧ x.map ≠ [] then [] else if new = [] then [[]] else chunks 10 new.length new).foldl (fun s l =>
    s.copySend m (leBytes 3 1 ++ leBytes l.length 1 ++ l.flatMap (fun r => leBytes r.1 8 ++ leBytes r.2.1 8 ++ leBytes r.2.2 4))) s

/-- The pages that an announcement names. -/
def announced (bs : List Byte) : List (Nat × Nat × Nat) :=
  (List.range (recNum bs 1 1)).map (fun i => (recNum bs (2 + 20 * i) 8, recNum bs (10 + 20 * i) 8, recNum bs (18 + 20 * i) 4))

/-- The acknowledgement of a copy. -/
def copyAck (p : Packet) (stat : Nat) : Packet :=
  { dst := p.src, src := p.dst, type := 0x31, vc := 3, stat := stat, rid := 0, addr := 0, broken := false, sealed := none, genuine := true,
    payload := [] }

/-! ### Commands (R392) -/

/-- MIG_START. -/
def execMigStart (m : Nat) (s : State) : Host.Outcome State Fault Refusal :=
  let x := s.mig m
  let f := s.func x.func
  let other := s.migs.any (fun (e : Nat × Mig) => decide (e.1 ≠ m) && decide (e.2.func = x.func) && decide (e.2.st ≠ 0))
  .next (if 7 < m then s
    else if x.st ≠ 0 ∨ !f.exist ∨ other ∨ f.frozen then s.migFail 1 3
    else if x.bw = 0 ∨ 1024 < x.bw then s.migFail 1 2
    else match s.growWins x.func with
      | none => s.migFail 1 3
      | some s => (s.migMove m { x with phase := 2 } 1).announce m)

/-- MIG_ACCEPT: the function has no team here, and a local leaf for every page that the source has said it maps locally. Pages that the
source names later are tested as they are named. -/
def execMigAccept (m : Nat) (s : State) : Host.Outcome State Fault Refusal :=
  let x := s.mig m
  .next (if 7 < m then s
    else if x.st ≠ 0 ∨ !(s.func x.func).exist ∨ s.hasTeams x.func ∨ s.mapsAll x.func x.map = false then s.migFail 2 3
    else x.owed.foldl (fun s p => s.send (copyAck p 0)) (s.migMove m { x with owed := [] } 8))

/-- MIG_ABORT. -/
def execMigAbort (m : Nat) (s : State) : Host.Outcome State Fault Refusal :=
  let x := s.mig m
  .next (if 7 < m then s else if x.st = 1 ∨ x.st = 2 then s.migQuit m 6 else s.migFail 3 3)

/-- The stop phase begins (R399 steps 1 to 3): every plane of the function is saved, and answers of the host to its pages are
discarded. -/
def State.beginStop (s : State) (m : Nat) : State :=
  let x := s.mig m
  let f := s.func x.func
  let meters := ((s.report x.func (zeros 16) false).drop 40).take 80
  let s := s.migMove m { x.quiet with map := x.map, since := s.clock, manifest := some meters } 3
  let s := s.setFunc x.func { f with pri := [], priWait := [] }
  let ps := ((s.teams.filter (fun (e : Nat × Team) => decide (e.2.func = x.func))).map (fun (e : Nat × Team) => 3 * e.2.core + e.2.plane)).eraseDups
  ps.foldl (fun s pl => s.startSave pl .slice) s

/-- MIG_FORCE. -/
def execMigForce (m : Nat) (s : State) : Host.Outcome State Fault Refusal :=
  .next (if 7 < m then s else if (s.mig m).st = 2 then s.beginStop m else s.migFail 4 3)

/-- MIG_CLEAR. -/
def execMigClear (m : Nat) (s : State) : Host.Outcome State Fault Refusal :=
  let x := s.mig m
  .next (if 7 < m then s
    else if x.st = 5 ∨ x.st = 6 ∨ x.st = 7 ∨ x.st = 9 then
      s.migMove m { func := x.func, peer := x.peer, budget := x.budget, bw := x.bw, hold := x.hold } 0
    else s.migFail 5 3)

/-! ### The Trowel (R396 to R398) -/

/-- The blocks whose bits are set, by window and word, and the maps with them cleared (R395). -/
def State.snapshot (s : State) (func : Nat) : State × List Nat :=
  ({ s with wins := s.wins.map (fun w => if w.func = func then { w with dirty := [] } else w) },
   (s.wins.filter (fun w => decide (w.func = func))).flatMap (fun w => w.dirty))

/-- A block is read at its home and sent by quarters, each with its FPA and the marks of its bytes (13 R231), for every page that names it. A
block that no leaf names any more is not, and one that the host has written since the final sweep goes as the sweep found it (R400). -/
def State.copyBlock (s : State) (m b : Nat) : State :=
  let x := s.mig m
  let bs := match x.kept.find? (fun k => decide (k.1 = b)) with | some k => k.2 | none => readBytes s.mem (b * 512) 512
  let pages := ((s.leavesOf x.func).filter (fun (e : Nat × Nat) => decide (e.2 = b / 128))).map (fun (e : Nat × Nat) => e.1)
  (pages.flatMap (fun page => (List.range 4).map (fun i => (page, i)))).foldl (fun s (page, i) =>
    s.copySend m (leBytes 0 1 ++ leBytes (page * 65536 + b % 128 * 512 + 128 * i) 8 ++ (bs.drop (128 * i)).take 128 ++
      bitBytes 16 (fun j => s.memMarks.contains (b * 512 + 128 * i + j)))) s

/-- The images that the resident planes of a function would write now. -/
def State.imageBytes (s : State) (func : Nat) : Nat :=
  let ps := ((s.teams.filter (fun (e : Nat × Team) => decide (e.2.func = func))).map (fun (e : Nat × Team) => 3 * e.2.core + e.2.plane)).eraseDups
  sumBy (fun pl => (s.imageOf pl (s.srcAt func)).length) ps

/-- B_resid (R397). -/
def State.resid (s : State) (func : Nat) : Nat :=
  512 * sumBy (fun (w : Win) => if w.func = func then w.dirty.length else 0) s.wins + (s.func func).grant.length * 2 ^ 20 + s.imageBytes func

/-- PRED in nanoseconds, BW_mig in bytes per nanosecond (R397). -/
def predOf (resid bw : Nat) : Nat := 200000 + resid / bw + 50000

/-- The end of a round: the prediction, and convergence (R397, R398). -/
def State.roundEnd (s : State) (m : Nat) : State :=
  let x := s.mig m
  let r := s.resid x.func
  let x := { x with round := x.round + 1, resid := r, pred := predOf r x.bw, phase := 0 }
  let s := s.setMig m x
  if x.pred ≤ 1000 * x.budget then s.beginStop m
  else if 16 ≤ x.round then s.migMove m x 2
  else s

/-! ### The stop phase (R399 to R401) -/

/-- Every plane of the function is saved. -/
def State.allSaved (s : State) (func : Nat) : Bool :=
  !s.teams.any (fun (e : Nat × Team) => decide (e.2.func = func)) &&
  !s.saving.any (fun j => decide ((s.plane j.plane).func = some func))

/-- The images of a function laid one after another from SAVEBASE (log entry 22); one that fails R370 stops the migration (R406). -/
def State.packImages (s : State) (func : Nat) : DevRes :=
  let mine := sortBy (fun (x : Saved) => x.va) (s.saved.filter (fun x => decide (x.func = func)))
  (mine.foldl (fun (r : DevRes × Nat) x => match r.1 with
    | .ok s _ =>
      ((match s.devRead 0 func true x.va x.len with
        | .ok s bs => if (readImage bs).isNone then .stop .miss x.va else (match s.devPut 0 func ⟨saveKey, 0, 0⟩ r.2 bs with
          | .ok s _ => .ok { s with saved := s.saved.map (fun y => if y = x then { y with va := r.2 } else y) } []
          | e => e)
        | e => e), r.2 + x.len)
    | _ => r) (.ok s [], (s.func func).savebase)).1

/-- The spilled children of a function, as their records are read again: those at hand, and the state while one is waited for. A record
that cannot be read is one of zeros, which R140 rejects. -/
def State.spilledRecs (s : State) (func : Nat) : List (List Byte) × Option State :=
  let all := (sortBy (fun (e : Nat × Grid) => e.2.order) (s.grids.filter (fun (e : Nat × Grid) => decide (e.2.func = func)))).flatMap
    (fun (e : Nat × Grid) => (List.range (e.2.spillTail - e.2.spillHead)).map (fun i => s.devRead 0 func true (e.2.spillVa (e.2.spillHead + i)) 128))
  (all.map (fun r => r.bytes?.getD (zeros 128)), all.findSome? DevRes.waits)

/-- The launch records that the manifest carries: by queue the pending grids and the records held, then the children of the pool and
of the spill areas (R401). -/
def State.manifestRecs (s : State) (func : Nat) : List (Nat × List Byte) :=
  let gs := sortBy (fun (e : Nat × Grid) => e.2.order) (s.grids.filter (fun (e : Nat × Grid) => decide (e.2.func = func) && !e.2.abandoned))
  let open' := gs.filter (fun (e : Nat × Grid) => decide (e.2.placed < e.2.lrec.teams))
  let queued := (List.range 64).flatMap (fun q =>
    ((open'.filter (fun (e : Nat × Grid) => e.2.parent.isNone && decide (e.2.queue = q))).map (fun (e : Nat × Grid) => (q, recBytes e.2.lrec))) ++
    (tget [] (s.func func).queues q).map (fun r => (q, r)))
  let kids := (open'.filter (fun (e : Nat × Grid) => e.2.parent.isSome)).map (fun (e : Nat × Grid) => (0xFF, recBytes e.2.lrec))
  queued ++ kids ++ (s.spilledRecs func).1.map (fun r => (0xFF, r))

/-- An HSET entry (Table 23-4). -/
def hsetBytes (h inst ntile : Nat) (tiles : List Nat) : List Byte :=
  let n := (ntile + 127) / 128 * 16
  leBytes h 4 ++ leBytes inst 4 ++ leBytes ntile 4 ++ zeros 4 ++ bitBytes n (fun k => tiles.contains k)

/-- The manifest (Table 23-4): one record of TYPE 11. -/
def State.manifestOf (s : State) (m : Nat) : List Byte :=
  let x := s.mig m
  let f := s.func x.func
  let recs := s.manifestRecs x.func
  let saved := sumBy (fun (y : Saved) => if y.func = x.func then y.len else 0) s.saved
  ashRec 11 0 0 (
    leBytes ((x.since : Int) + f.clockOff).toNat 8 ++ leBytes saved 8 ++ (x.manifest.getD [] ++ zeros 80).take 80 ++ leBytes f.meter.seq 8 ++
    leBytes recs.length 4 ++ leBytes f.hsets.length 4 ++
    recs.flatMap (fun (r : Nat × List Byte) => leBytes r.1 8 ++ zeros 8 ++ r.2) ++
    f.hsets.flatMap (fun (e : Nat × Nat × Nat × List Nat) => hsetBytes e.1 e.2.1 e.2.2.1 e.2.2.2))

/-- The chip-scratchpad window and the manifest leave (R399 step 5). -/
def State.copyRest (s : State) (m : Nat) : State :=
  let x := s.mig m
  let f := s.func x.func
  let chip := (f.grant.zipIdx).flatMap (fun (g, i) => (List.range 8192).map (fun b =>
    leBytes 1 1 ++ leBytes (i * 2 ^ 20 + b * 128) 8 ++ readBytes s.chip (g * 2 ^ 20 + b * 128) 128 ++
    bitBytes 2 (fun j => s.chipMarks.contains (g * 2 ^ 17 + b * 16 + j))))
  let man := s.manifestOf m
  let parts := ((chunks 200 man.length man).zipIdx).map (fun (l, i) => leBytes 5 1 ++ leBytes (200 * i) 8 ++ leBytes man.length 8 ++ l)
  (chip ++ parts).foldl (fun s b => s.copySend m b) (s.setMig m { x with phase := 2 })

/-- Step 6 on the source: the destination takes over, the VDN is forwarded, held packets leave, and membership of a domain moves (27 R459). -/
def State.migSwitch (s : State) (m : Nat) : State :=
  let x := s.mig m
  let f := s.func x.func
  let s := s.send (s.migPacket x 0x30 0 (leBytes 4 1 ++ leBytes (if f.vdn.isSome then 1 else 0) 1))
  let s := s.setFunc x.func { s.func x.func with vdn := none }
  let s := x.hold.foldl State.forward s
  let s := s.migMove m { x.quiet with vdn := f.vdn, since := s.clock, hold := [] } 4
  let s := if f.domState = 2 then { s.domMove x.func f.dom 0 with agenda := s.agenda ++ [.rekeyStart f.dom] } else s
  s.retireDue

/-- Copies of a migration are not acknowledged for too long: 2 ms, as a response slot waits (25 R426; log entry 22). -/
def State.copyLate (s : State) (x : Mig) : Bool := decide (0 < x.unacked) && decide (x.last + 8000000 ≤ s.clock)

/-- Requests that wait for a line of the host are held from the final sweep on (R400). -/
def State.holdWaiting (s : State) (m : Nat) : State :=
  let x := s.mig m
  let (mine, rest) := s.netWait.partition (fun p => decide ((s.func x.func).vdn = some p.dst))
  { s.setMig m { x with hold := x.hold ++ mine } with netWait := rest }

/-- One move of the Trowel: a snapshot, a block, the end of a round; in the stop phase the sweep, its copies and the switch; after a
migration that did not happen, a packet that was held. -/
def execTrowelRound (m : Nat) (s : State) : Host.Outcome State Fault Refusal :=
  let x := s.mig m
  match x.st with
  | 1 =>
    .next (if x.phase = 2 then (if 0 < x.unacked then s else s.setMig m { x with phase := 0 })
      else if s.copyLate x then s.migQuit m 7
      else if x.phase = 0 then
        match s.growWins x.func with
        | none => s.migQuit m 7
        | some s =>
          let (s, l) := (s.announce m).snapshot x.func
          s.setMig m { s.mig m with phase := 1, todo := l }
      else match x.todo with
        | b :: r => (s.setMig m { x with todo := r }).copyBlock m b
        | [] => if 0 < x.unacked then s else s.roundEnd m)
  | 3 =>
    .next (if s.copyLate x then s.migQuit m 7
      else if x.phase = 0 then
        if !s.allSaved x.func then s
        else match s.packImages x.func with
          | .stop .. => s.migQuit m 7
          | .wait s => s
          | .ok s _ => (match s.growWins x.func with
            | none => s.migQuit m 7
            | some s =>
              let (s, l) := (s.announce m).snapshot x.func
              { s.setMig m { s.mig m with phase := 1, todo := l } with wins := s.wins.filter (fun w => w.func ≠ x.func) }.holdWaiting m)
      else if x.phase = 1 then
        match x.todo with
        | b :: r => (s.setMig m { x with todo := r }).copyBlock m b
        | [] => (match (s.spilledRecs x.func).2 with
          | some s => s
          | none => s.copyRest m)
      else if 0 < x.unacked then s else s.migSwitch m)
  | _ =>
    match x.hold with
    | p :: r => if x.st = 4 then .next s
      else if p.type < 16 then (s.setMig m { x with hold := r }).serveRequest p
      else (s.setMig m { x with hold := r }).collTake p
    | [] => .next s

/-! ### The end on the source (R404, R405) -/

/-- FORWARDING_END: 64 µs after step 6 the function's meters are finalised and what it held here is freed. -/
def execForwardingEnd (m : Nat) (s : State) : Host.Outcome State Fault Refusal :=
  let x := s.mig m
  .next (if x.st ≠ 4 ∨ s.clock < x.since + s.bound 256000 then s
    else
      let s := (s.finalise x.func).dropCaches x.func
      let s := s.killCards false (fun c => decide (c.func = x.func))
      let f := s.func x.func
      let gone := (s.grids.filter (fun (e : Nat × Grid) => decide (e.2.func = x.func))).map (fun (e : Nat × Grid) => e.1)
      let s := { s with
        saved := s.saved.filter (fun y => y.func ≠ x.func),
        grids := s.grids.filter (fun (e : Nat × Grid) => decide (e.2.func ≠ x.func)),
        parts := s.parts.map (fun (e : Nat × Part) => (e.1, { e.2 with pool := e.2.pool.filter (fun g => !gone.contains g) })),
        chip := s.chip.filter (fun (e : Nat × Byte) => !f.grant.contains (e.1 / 2 ^ 20)),
        chipMarks := s.chipMarks.filter (fun w => !f.grant.contains (w / 2 ^ 17)),
        movedVdns := (match x.vdn with | some v => insNat v s.movedVdns | none => s.movedVdns) }
      let s := s.setFunc x.func { f with queues := [], grant := [], hsets := [] }
      s.migMove m { x with vdn := none } 5)

/-! ### The destination (R396, R403) -/

/-- A manifest record in order. -/
def manifestGood (bs : List Byte) : Bool :=
  decide (recNum bs 0 2 = 11) && decide (recNum bs 2 1 = 1) && decide (recNum bs 4 4 = bs.length) && decide (128 ≤ bs.length) &&
  decide (crc32c (bs.take 8 ++ zeros 4 ++ bs.drop 12) = recNum bs 8 4)

/-- The destination takes over at step 6 (R399): the VDN, redirect entries from the source's machine ranges to its own in the lowest entries that
are not VALID, and the membership of a domain (25 R421, 27 R459). -/
def State.takeOver (s : State) (m : Nat) (v : Option Nat) : State :=
  let x := s.mig m
  let f := s.func x.func
  let leaves := s.leavesOf x.func
  let pairs := x.map.flatMap (fun r => (List.range r.2.2).filterMap (fun i =>
    (leaves.find? (fun e => decide (e.1 = r.1 + i))).map (fun e => (r.2.1 + i, e.2))))
  let runs := pairRuns (sortBy (fun (e : Nat × Nat) => e.1) pairs.eraseDups)
  let free := (List.range 1024).filter (fun i => !(tget {} s.redirect i).valid)
  let s := match v with
    | none => s
    | some v => { s.setFunc x.func { f with vdn := some v } with
        movedVdns := s.movedVdns.filter (fun y => y ≠ v),
        redirect := (List.zip free runs).foldl (fun t (e : Nat × Nat × Nat × Nat) =>
          tput {} t e.1 { vdn := v, w := true, r := true, old := e.2.1, new := e.2.2.1, len := e.2.2.2, valid := true }) s.redirect }
  let s := s.setMig m { s.mig m with phase := 1 }
  if f.domState ≠ 1 then s else
  let g := s.func x.func
  let s := s.setFunc x.func { g with seqs := [], sealFrom := (s.domAt f.dom).epoch + 1 }
  { s.domMove x.func f.dom 2 with agenda := s.agenda ++ [.rekeyStart f.dom] }

/-- Where a copy of 128 bytes of memory goes through the destination's own stage 2. -/
def State.copyAt (s : State) (x : Mig) (p : Packet) : Option Nat :=
  match walk2 s.mem (s.func x.func).s2root (recNum p.payload 1 8) with
  | .leaf e => (match leaf2Target e (recNum p.payload 1 8 / 65536) (recNum p.payload 1 8) with
    | .loc ma => if maBacked ma then some ma else none
    | .host _ | .fab .. | .notify .. => none)
  | .fail _ | .unbacked _ => none

/-- A copy that the destination has taken, with the place that it wrote. -/
def State.copyTaken (s : State) (m : Nat) (p : Packet) (at' : List Nat) : State :=
  let x := s.mig m
  (s.setMig m { x with recv := x.recv ++ at'.filter (fun a => !x.recv.contains a) }).send (copyAck p 0)

/-- MIG_COPY_RECEIVE: the pages that the source maps, a quarter of a block through the destination's own stage 2 or of the chip-scratchpad
window, a piece of the manifest, step 6, or the end of the migration. -/
def execMigCopyReceive (m : Nat) (p : Packet) (s : State) : Host.Outcome State Fault Refusal :=
  let x := s.mig m
  let n (i k : Nat) : Nat := recNum p.payload i k
  let kind := n 0 1
  .next (if !pktSound p ∨ p.type ≠ 0x30 ∨ (x.st ≠ 8 ∧ (x.st ≠ 0 ∨ (kind ≠ 2 ∧ kind ≠ 3))) then s.countErr p
    else if kind = 0 ∧ (s.copyAt x p).any (fun a => s.snooped (.loc a)) = true then
      { (s.copyAt x p).toList.foldl (fun s a => s.biSend (.loc a)) s with afterBi := s.afterBi ++ [.migCopyReceive m p] }
    else match s.verify x.func p with
      | (.drop, s) => s
      | (.denied, s) => if x.st = 0 then s else s.migQuit m 7
      | (.ok, s) =>
        if kind = 2 then (if x.st = 0 then s.setMig m x.quiet else (s.migDiscard x).migMove m x.quiet 7)
        else if kind = 3 then
          let y := { x with map := x.map ++ announced p.payload }
          if x.st = 0 then s.setMig m { y with owed := x.owed ++ [p] }
          else if s.mapsAll x.func (announced p.payload) then (s.setMig m y).send (copyAck p 0)
          else s.migQuit m 7
        else if x.phase ≠ 0 then s.countErr p
        else if kind = 4 then (if x.manifest.isSome then s.takeOver m (if n 1 1 = 1 then some p.src else none) else s.migQuit m 7)
        else if kind = 5 then
          let t := tset x.pieces (n 1 8) (p.payload.drop 17)
          let man := t.flatMap (fun (e : Nat × List Byte) => e.2)
          if man.length < n 9 8 then (s.setMig m { x with pieces := t }).send (copyAck p 0)
          else if manifestGood man then
            (s.setMig m { x with pieces := [], manifest := some man, since := s.clock }).send (copyAck p 0)
          else s.migQuit m 7
        else if kind = 1 then
          let off := n 1 8
          (match (s.func x.func).grant[off / 2 ^ 20]? with
           | some g =>
             let a := g * 2 ^ 20 + off % 2 ^ 20
             let s := s.padWrite .chip a ((p.payload.drop 9).take 128)
             { s with chipMarks := addMarks s.chipMarks ((setBits ((p.payload.drop 137).take 2)).map (· + a / 8)) }.copyTaken m p [2 ^ 60 + a / 128]
           | none => s.migQuit m 7)
        else
          match s.copyAt x p with
          | some ma =>
            let s := s.homeWrite (.loc ma) ((p.payload.drop 9).take 128)
            let s := { s with memMarks := addMarks s.memMarks ((setBits ((p.payload.drop 137).take 16)).map (· + ma)) }
            s.wakeMem.copyTaken m p [ma / 128]
          | none => s.migQuit m 7)

/-- The length of the image at the head of a list of bytes. -/
def imageLen : Nat → List Byte → Option Nat
  | 0, _ => none
  | n + 1, bs => match readRec bs with
    | none => none
    | some (r, k) => if r.type = 10 then some k else (imageLen n (bs.drop k)).map (k + ·)

/-- Images that stand one after another. -/
def splitImages : Nat → List Byte → Option (List (List Byte))
  | 0, _ => none
  | n + 1, bs =>
    if bs = [] then some [] else
    match imageLen (bs.length / 16 + 1) bs with
    | none => none
    | some k => (splitImages n (bs.drop k)).map (bs.take k :: ·)

/-- What the manifest says of the launch records and tile sets. -/
def manifestRecsOf (bs : List Byte) : List (Nat × List Byte) :=
  (List.range (recNum bs 120 4)).map (fun i => (recNum bs (128 + 144 * i) 1, (bs.drop (144 + 144 * i)).take 128))

def manifestHsets : Nat → List Byte → Table (Nat × Nat × List Nat) → Table (Nat × Nat × List Nat)
  | 0, _, t => t
  | n + 1, bs, t =>
    let nt := recNum bs 8 4
    let k := (nt + 127) / 128 * 16
    manifestHsets n (bs.drop (16 + k)) (tput (0, 0, []) t (recNum bs 0 4)
      (recNum bs 4 4, nt, (setBits ((bs.drop 16).take k)).filter (fun i => decide (i < nt))))

/-- A team of an image that comes: its image, its record, the number it gets and its grid. -/
structure Arrival where
  image : Nat
  team : ARec
  tid : Nat
  lrec : List Byte
  deriving DecidableEq, Repr

def Arrival.idx (a : Arrival) : Nat := a.team.num 144 8
def Arrival.kids (a : Arrival) : Nat := a.team.num 160 4

/-- The record of the manifest that belongs to the grid of teams that come: one equal to theirs, where no team with the grid's last
index is among them (log entry 22). -/
def openRec (as : List Arrival) (recs : List (Nat × List Byte)) (lrec : List Byte) : Option (Nat × Nat × List Byte) :=
  let last := (as.filter (fun a => decide (a.lrec = lrec))).foldl (fun m a => max m (a.idx + 1)) 0
  if (recFields lrec).teams ≤ last then none else findIdx (fun (e : Nat × List Byte) => decide (e.2 = lrec)) recs

/-- The grids of the teams that come: one for each launch record among them (log entry 22). What is not placed yet stands in the
manifest. -/
def arrivalGrid (func order : Nat) (as : List Arrival) (recs : List (Nat × List Byte)) (lrec : List Byte) : Grid :=
  let r := recFields lrec
  let mine := as.filter (fun a => decide (a.lrec = lrec))
  let open' := openRec as recs lrec
  let placed := match open' with
    | some _ => mine.foldl (fun m a => max m (a.idx + 1)) 0
    | none => r.teams
  { func := func, queue := (match open' with | some (_, q, _) => if q = 0xFF then 0 else q | none => 0), lrec := r, eff := 0, placed := placed,
                                             ended := placed - mine.length, order := order }

/-- An arriving image, the first image of its unit, and where its core lies relative to that one's. -/
structure Seat where
  image : Nat
  root : Nat
  x : Int
  y : Int
  deriving DecidableEq, Repr

/-- Images come back in one unit where they share a cluster (R363), their cores placed by the ranks of their teams (08 R137): one round
of finding the images that share a cluster with one that is seated. -/
def seatMore (as : List Arrival) (l : List Seat) : List Seat :=
  let key (a : Arrival) : List Byte × Nat := (a.lrec, a.idx - a.team.num 152 1)
  let col (a : Arrival) : Int := ((a.team.num 152 1 % (recFields a.lrec).w : Nat) : Int)
  let row (a : Arrival) : Int := ((a.team.num 152 1 / (recFields a.lrec).w : Nat) : Int)
  as.foldl (fun (l : List Seat) a =>
    if l.any (fun e => decide (e.image = a.image)) then l else
    match as.findSome? (fun b => if key b = key a then (l.find? (fun e => decide (e.image = b.image))).map (fun e =>
      (⟨a.image, e.root, e.x + col a - col b, e.y + row a - row b⟩ : Seat)) else none) with
    | some e => l ++ [e]
    | none => l) l

/-- The seats of `n` images. -/
def seats (as : List Arrival) (n : Nat) : List Seat :=
  (List.range n).foldl (fun l i => if l.any (fun e => decide (e.image = i)) then l
    else (List.range n).foldl (fun l _ => seatMore as l) (l ++ [⟨i, i, 0, 0⟩])) []

/-- The unit of an image, and a core that is none of this device's at its place in the unit. -/
def seatOf (l : List Seat) (i : Nat) : Nat × Nat :=
  match l.find? (fun e => decide (e.image = i)) with
  | none => (i, 480)
  | some e =>
    let mates := l.filter (fun x => decide (x.root = e.root))
    let x0 := mates.foldl (fun m x => min m x.x) 0
    let y0 := mates.foldl (fun m x => min m x.y) 0
    (e.root, 480 + 16 * (e.y - y0).toNat + (e.x - x0).toNat)

/-- MIG_RESUME: behind step 6, the images become saved units of this device, and the manifest's records, tile sets and meters are taken (R403).
An image that fails R370 freezes the function here, and the source hears nothing of it (R406). -/
def State.migResume (s : State) (m : Nat) (man : List Byte) : State :=
  let x := s.mig m
  let func := x.func
  let f := s.func func
  let n (i k : Nat) : Nat := recNum man i k
  let bad (s : State) : State := (s.freeze func 7 f.savebase 0 0).migMove m x.quiet 7
  match s.devRead 0 func true f.savebase (n 24 8) with
  | .wait s => s
  | .stop .. => bad s
  | .ok s bytes =>
  match splitImages (n 24 8 / 32 + 1) bytes with
  | none => bad s
  | some images =>
    match images.foldr (fun b r => match readImage b, r with
        | some i, some l => some (i.2 :: l)
        | _, _ => none) (some []) with
    | none => bad s
    | some parsed =>
      let flat : List (Nat × ARec) := (parsed.zipIdx).flatMap (fun (ts, i) => ts.map (fun (t : ARec × List ARec) => (i, t.1)))
      let as : List Arrival := (flat.zipIdx).map (fun (e, k) => ⟨e.1, e.2, s.nextTeam + k, (e.2.bytes.drop 16).take 128⟩)
      let recs := manifestRecsOf man
      let lrecs := (as.map (fun a => a.lrec)).eraseDups
      let gid (a : Arrival) : Nat := s.nextGrid + (match findIdx (fun l => decide (l = a.lrec)) lrecs with | some (i, _) => i | none => 0)
      let batch0 := s.nextBatch
      let s := { s with nextTeam := s.nextTeam + as.length, nextGrid := s.nextGrid + lrecs.length, nextBatch := batch0 + images.length }
      let g0 := s.nextGrid - lrecs.length
      let s := (lrecs.zipIdx).foldl (fun s (l, i) =>
        let g := arrivalGrid func (g0 + i) as recs l
        s.setGrid (g0 + i) { g with eff := s.effOf func g.lrec.prio }) s
      let lens := images.map (fun b => b.length)
      let place := seats as images.length
      let saved := (images.zipIdx).map (fun (b, i) =>
        let mine := as.filter (fun a => decide (a.image = i))
        ({ func := func, va := f.savebase + (lens.take i).foldl (· + ·) 0, len := b.length, teams := mine.map (fun a => (a.tid, gid a)),
           core := (seatOf place i).2, plane := 0, batch := batch0 + (seatOf place i).1, blocked := false,
           eff := mine.foldl (fun e a => max e (s.effOf func (recFields a.lrec).prio)) 0,
           kids := mine.map (fun a => (a.tid, a.kids)),
           gangs := mine.map (fun a => (gid a, a.idx, a.team.num 152 1, gangOf a.team)),
           lps := if f.lpteams = 0 then [] else mine.map (fun a => a.team.num 156 2) } : Saved))
      let s := { s with saved := s.saved ++ saved }
      let taken := lrecs.filterMap (fun l => (openRec as recs l).map (fun (e : Nat × Nat × List Byte) => e.1))
      let rest := (recs.zipIdx.filter (fun (e : (Nat × List Byte) × Nat) => !taken.contains e.2)).map (fun (e : (Nat × List Byte) × Nat) => e.1)
      let parents := as.flatMap (fun a => List.replicate a.kids a.tid)
      let kids := rest.filter (fun (e : Nat × List Byte) => decide (e.1 = 0xFF))
      let s := (kids.zipIdx).foldl (fun s (e, i) =>
        let id := s.nextGrid
        if !recOk e.2 then
          let s := (s.setErr func 0 3).post func 0 0x13 [(24, 32, ofLE (e.2.take 32))]
          match parents[i]? with | some p => s.childDone p | none => s
        else
        let s := s.acceptGrid func 0 (recFields e.2) parents[i]?
        match f.part with
        | some p => let pt := s.prt p; s.setPrt p { pt with pool := pt.pool ++ [id] }
        | none => s) s
      let s := (parents.drop kids.length).foldl (fun s p =>
        match (as.find? (fun a => decide (a.tid = p))), ((List.range lrecs.length).reverse.map (· + g0)).filter (fun g =>
            (match s.grid? g with | some x => x.parent.isNone | none => false)) with
        | some a, gs => (match gs.find? (fun g => decide (g ≠ gid a)) with
          | some g => (match s.grid? g with | some x => s.setGrid g { x with parent := some p } | none => s)
          | none => s)
        | none, _ => s) s
      let queues := (rest.filter (fun (e : Nat × List Byte) => decide (e.1 < 64))).foldl (fun t (e : Nat × List Byte) =>
        tput [] t e.1 (tget [] t e.1 ++ [e.2])) f.queues
      let f := s.func func
      let hs := manifestHsets (n 124 4) (man.drop (128 + 144 * n 120 4)) f.hsets
      let s := s.setFunc func { f with
        queues := queues, hsets := hs,
        meter := { ccyc := n 32 8, mac := (List.range 6).foldl (fun t i => tput 0 t i (n (40 + 8 * i) 8)) [], ebytes := n 88 8,
                   hbmbs := n 96 8, fbytes := n 104 8, seq := n 112 8, final := f.meter.final } }
      s.setMig m { x with phase := 2 }

def execMigResume (m : Nat) (s : State) : Host.Outcome State Fault Refusal :=
  let x := s.mig m
  .next (match x.manifest with
    | some man => if x.st = 8 ∧ x.phase = 1 then s.migResume m man else s
    | none => s)

end Sys2Proof.Machine
end

