-- ==== Sys2Proof/Machine/Dispatch.lean ====
section
/-!
DEFINITION. The one match from an instruction, or a step of another agent, to its meaning.
-/
namespace Sys2Proof.Machine

def exec (i : Instr) (s : State) : Host.Outcome State Fault Refusal :=
  match i with
  | .mov h x1 x2 x3 => Sys2Proof.Machine.execMov h x1 x2 x3 s
  | .movs h x1 x2 => Sys2Proof.Machine.execMovs h x1 x2 s
  | .movsw h x1 x2 => Sys2Proof.Machine.execMovsw h x1 x2 s
  | .iadd h x1 x2 x3 x4 => Sys2Proof.Machine.execIadd h x1 x2 x3 x4 s
  | .isub h x1 x2 x3 x4 => Sys2Proof.Machine.execIsub h x1 x2 x3 x4 s
  | .iaddx h x1 x2 x3 x4 x5 => Sys2Proof.Machine.execIaddx h x1 x2 x3 x4 x5 s
  | .imul h x1 x2 x3 => Sys2Proof.Machine.execImul h x1 x2 x3 s
  | .imulh h x1 x2 x3 x4 => Sys2Proof.Machine.execImulh h x1 x2 x3 x4 s
  | .imad h x1 x2 x3 x4 => Sys2Proof.Machine.execImad h x1 x2 x3 x4 s
  | .imadw h x1 x2 x3 x4 x5 => Sys2Proof.Machine.execImadw h x1 x2 x3 x4 x5 s
  | .idiv h x1 x2 x3 x4 => Sys2Proof.Machine.execIdiv h x1 x2 x3 x4 s
  | .irem h x1 x2 x3 x4 => Sys2Proof.Machine.execIrem h x1 x2 x3 x4 s
  | .imin h x1 x2 x3 x4 => Sys2Proof.Machine.execImin h x1 x2 x3 x4 s
  | .imax h x1 x2 x3 x4 => Sys2Proof.Machine.execImax h x1 x2 x3 x4 s
  | .iabs h x1 x2 x3 => Sys2Proof.Machine.execIabs h x1 x2 x3 s
  | .and h x1 x2 x3 => Sys2Proof.Machine.execAnd h x1 x2 x3 s
  | .or h x1 x2 x3 => Sys2Proof.Machine.execOr h x1 x2 x3 s
  | .xor h x1 x2 x3 => Sys2Proof.Machine.execXor h x1 x2 x3 s
  | .andn h x1 x2 x3 => Sys2Proof.Machine.execAndn h x1 x2 x3 s
  | .lop3 h x1 x2 x3 x4 x5 => Sys2Proof.Machine.execLop3 h x1 x2 x3 x4 x5 s
  | .shl h x1 x2 x3 => Sys2Proof.Machine.execShl h x1 x2 x3 s
  | .shr h x1 x2 x3 => Sys2Proof.Machine.execShr h x1 x2 x3 s
  | .sar h x1 x2 x3 => Sys2Proof.Machine.execSar h x1 x2 x3 s
  | .rol h x1 x2 x3 => Sys2Proof.Machine.execRol h x1 x2 x3 s
  | .fshf h x1 x2 x3 x4 x5 => Sys2Proof.Machine.execFshf h x1 x2 x3 x4 x5 s
  | .popc h x1 x2 => Sys2Proof.Machine.execPopc h x1 x2 s
  | .clz h x1 x2 => Sys2Proof.Machine.execClz h x1 x2 s
  | .brev h x1 x2 => Sys2Proof.Machine.execBrev h x1 x2 s
  | .bfx h x1 x2 x3 x4 => Sys2Proof.Machine.execBfx h x1 x2 x3 x4 s
  | .bfi h x1 x2 x3 x4 => Sys2Proof.Machine.execBfi h x1 x2 x3 x4 s
  | .prmt h x1 x2 x3 x4 => Sys2Proof.Machine.execPrmt h x1 x2 x3 x4 s
  | .sel h x1 x2 x3 x4 x5 => Sys2Proof.Machine.execSel h x1 x2 x3 x4 x5 s
  | .isetp h x1 x2 x3 x4 => Sys2Proof.Machine.execIsetp h x1 x2 x3 x4 s
  | .icmps h x1 x2 x3 x4 => Sys2Proof.Machine.execIcmps h x1 x2 x3 x4 s
  | .plop h x1 x2 x3 x4 x5 => Sys2Proof.Machine.execPlop h x1 x2 x3 x4 x5 s
  | .p2g h x1 => Sys2Proof.Machine.execP2g h x1 s
  | .g2p h x1 x2 => Sys2Proof.Machine.execG2p h x1 x2 s
  | .iadd64 h x1 x2 x3 => Sys2Proof.Machine.execIadd64 h x1 x2 x3 s
  | .isub64 h x1 x2 x3 => Sys2Proof.Machine.execIsub64 h x1 x2 x3 s
  | .lea h x1 x2 x3 x4 x5 => Sys2Proof.Machine.execLea h x1 x2 x3 x4 x5 s
  | .isetp64 h x1 x2 x3 x4 => Sys2Proof.Machine.execIsetp64 h x1 x2 x3 x4 s
  | .shl64 h x1 x2 x3 => Sys2Proof.Machine.execShl64 h x1 x2 x3 s
  | .shr64 h x1 x2 x3 x4 => Sys2Proof.Machine.execShr64 h x1 x2 x3 x4 s
  | .idp4 h x1 x2 x3 x4 x5 x6 x7 => Sys2Proof.Machine.execIdp4 h x1 x2 x3 x4 x5 x6 x7 s
  | .idp2 h x1 x2 x3 x4 x5 x6 x7 => Sys2Proof.Machine.execIdp2 h x1 x2 x3 x4 x5 x6 x7 s
  | .fadd h x1 x2 x3 x4 x5 => Sys2Proof.Machine.execFadd h x1 x2 x3 x4 x5 s
  | .fmul h x1 x2 x3 x4 => Sys2Proof.Machine.execFmul h x1 x2 x3 x4 s
  | .ffma h x1 x2 x3 x4 x5 x6 x7 => Sys2Proof.Machine.execFfma h x1 x2 x3 x4 x5 x6 x7 s
  | .fmin h x1 x2 x3 => Sys2Proof.Machine.execFmin h x1 x2 x3 s
  | .fmax h x1 x2 x3 => Sys2Proof.Machine.execFmax h x1 x2 x3 s
  | .fsetp h x1 x2 x3 x4 => Sys2Proof.Machine.execFsetp h x1 x2 x3 x4 s
  | .fclass h x1 x2 x3 => Sys2Proof.Machine.execFclass h x1 x2 x3 s
  | .fdiv h x1 x2 x3 => Sys2Proof.Machine.execFdiv h x1 x2 x3 s
  | .fsqrt h x1 x2 => Sys2Proof.Machine.execFsqrt h x1 x2 s
  | .frcp h x1 x2 => Sys2Proof.Machine.execFrcp h x1 x2 s
  | .frsq h x1 x2 => Sys2Proof.Machine.execFrsq h x1 x2 s
  | .fex2 h x1 x2 => Sys2Proof.Machine.execFex2 h x1 x2 s
  | .flg2 h x1 x2 => Sys2Proof.Machine.execFlg2 h x1 x2 s
  | .fsinpi h x1 x2 => Sys2Proof.Machine.execFsinpi h x1 x2 s
  | .fcospi h x1 x2 => Sys2Proof.Machine.execFcospi h x1 x2 s
  | .ftanh h x1 x2 => Sys2Proof.Machine.execFtanh h x1 x2 s
  | .hadd2 h x1 x2 x3 x4 x5 x6 => Sys2Proof.Machine.execHadd2 h x1 x2 x3 x4 x5 x6 s
  | .hmul2 h x1 x2 x3 x4 x5 => Sys2Proof.Machine.execHmul2 h x1 x2 x3 x4 x5 s
  | .hfma2 h x1 x2 x3 x4 x5 x6 => Sys2Proof.Machine.execHfma2 h x1 x2 x3 x4 x5 x6 s
  | .hmnmx2 h x1 x2 x3 x4 x5 => Sys2Proof.Machine.execHmnmx2 h x1 x2 x3 x4 x5 s
  | .cvtff h x1 x2 x3 x4 x5 x6 => Sys2Proof.Machine.execCvtff h x1 x2 x3 x4 x5 x6 s
  | .cvtfi h x1 x2 x3 x4 x5 => Sys2Proof.Machine.execCvtfi h x1 x2 x3 x4 x5 s
  | .cvtif h x1 x2 x3 x4 => Sys2Proof.Machine.execCvtif h x1 x2 x3 x4 s
  | .cvtpk h x1 x2 x3 x4 x5 x6 => Sys2Proof.Machine.execCvtpk h x1 x2 x3 x4 x5 x6 s
  | .cvtunpk h x1 x2 x3 x4 x5 x6 => Sys2Proof.Machine.execCvtunpk h x1 x2 x3 x4 x5 x6 s
  | .frnd h x1 x2 x3 => Sys2Proof.Machine.execFrnd h x1 x2 x3 s
  | .fscale h x1 x2 x3 x4 => Sys2Proof.Machine.execFscale h x1 x2 x3 x4 s
  | .fgetexp h x1 x2 => Sys2Proof.Machine.execFgetexp h x1 x2 s
  | .bra h x1 x2 => Sys2Proof.Machine.execBra h x1 x2 s
  | .brx h x1 => Sys2Proof.Machine.execBrx h x1 s
  | .call h x1 x2 x3 => Sys2Proof.Machine.execCall h x1 x2 x3 s
  | .callx h x1 x2 => Sys2Proof.Machine.execCallx h x1 x2 s
  | .ret h x1 => Sys2Proof.Machine.execRet h x1 s
  | .exit h => Sys2Proof.Machine.execExit h s
  | .trap h x1 => Sys2Proof.Machine.execTrap h x1 s
  | .nop h => Sys2Proof.Machine.execNop h s
  | .yield h => Sys2Proof.Machine.execYield h s
  | .bpt h x1 => Sys2Proof.Machine.execBpt h x1 s
  | .sleep h x1 => Sys2Proof.Machine.execSleep h x1 s
  | .ld h x1 x2 x3 x4 => Sys2Proof.Machine.execLd h x1 x2 x3 x4 s
  | .st h x1 x2 x3 x4 => Sys2Proof.Machine.execSt h x1 x2 x3 x4 s
  | .ldl h x1 x2 x3 x4 => Sys2Proof.Machine.execLdl h x1 x2 x3 x4 s
  | .stl h x1 x2 x3 x4 => Sys2Proof.Machine.execStl h x1 x2 x3 x4 s
  | .pref h x1 x2 x3 => Sys2Proof.Machine.execPref h x1 x2 x3 s
  | .ldc h x1 x2 x3 x4 => Sys2Proof.Machine.execLdc h x1 x2 x3 x4 s
  | .kjoin h x1 => Sys2Proof.Machine.execKjoin h x1 s
  | .kleave h x1 => Sys2Proof.Machine.execKleave h x1 s
  | .kwait h x1 => Sys2Proof.Machine.execKwait h x1 s
  | .ksetG h x1 x2 => Sys2Proof.Machine.execKsetG h x1 x2 s
  | .ksetCohort h x1 => Sys2Proof.Machine.execKsetCohort h x1 s
  | .ksetClr h x1 => Sys2Proof.Machine.execKsetClr h x1 s
  | .ksetLive h x1 => Sys2Proof.Machine.execKsetLive h x1 s
  | .kmov h x1 x2 => Sys2Proof.Machine.execKmov h x1 x2 s
  | .kmovK h x1 x2 => Sys2Proof.Machine.execKmovK h x1 x2 s
  | .elect h x1 => Sys2Proof.Machine.execElect h x1 s
  | .vote h x1 x2 x3 x4 => Sys2Proof.Machine.execVote h x1 x2 x3 x4 s
  | .shfl h x1 x2 x3 x4 x5 => Sys2Proof.Machine.execShfl h x1 x2 x3 x4 x5 s
  | .redux h x1 x2 x3 => Sys2Proof.Machine.execRedux h x1 x2 x3 s
  | .matchLanes h x1 x2 x3 x4 => Sys2Proof.Machine.execMatchLanes h x1 x2 x3 x4 s
  | .rdlane h x1 x2 x3 x4 => Sys2Proof.Machine.execRdlane h x1 x2 x3 x4 s
  | .mlds h x1 x2 x3 x4 x5 => Sys2Proof.Machine.execMlds h x1 x2 x3 x4 x5 s
  | .mswap h => Sys2Proof.Machine.execMswap h s
  | .mstr h x1 x2 x3 x4 x5 x6 x7 x8 => Sys2Proof.Machine.execMstr h x1 x2 x3 x4 x5 x6 x7 x8 s
  | .mstrr h x1 x2 x3 x4 x5 x6 => Sys2Proof.Machine.execMstrr h x1 x2 x3 x4 x5 x6 s
  | .mzero h x1 => Sys2Proof.Machine.execMzero h x1 s
  | .mbias h x1 x2 x3 => Sys2Proof.Machine.execMbias h x1 x2 x3 s
  | .mdrn h x1 x2 x3 x4 x5 => Sys2Proof.Machine.execMdrn h x1 x2 x3 x4 x5 s
  | .mdrnr h x1 x2 x3 x4 x5 => Sys2Proof.Machine.execMdrnr h x1 x2 x3 x4 x5 s
  | .mgangLead h x1 => Sys2Proof.Machine.execMgangLead h x1 s
  | .mgangJoin h x1 x2 => Sys2Proof.Machine.execMgangJoin h x1 x2 s
  | .mgangLeave h => Sys2Proof.Machine.execMgangLeave h s
  | .lds h x1 x2 x3 x4 => Sys2Proof.Machine.execLds h x1 x2 x3 x4 s
  | .sts h x1 x2 x3 x4 => Sys2Proof.Machine.execSts h x1 x2 x3 x4 s
  | .ldcl h x1 x2 x3 x4 => Sys2Proof.Machine.execLdcl h x1 x2 x3 x4 s
  | .stcl h x1 x2 x3 x4 => Sys2Proof.Machine.execStcl h x1 x2 x3 x4 s
  | .ldx h x1 x2 x3 x4 => Sys2Proof.Machine.execLdx h x1 x2 x3 x4 s
  | .stx h x1 x2 x3 x4 => Sys2Proof.Machine.execStx h x1 x2 x3 x4 s
  | .atom h x1 x2 x3 x4 x5 x6 x7 => Sys2Proof.Machine.execAtom h x1 x2 x3 x4 x5 x6 x7 s
  | .atoms h x1 x2 x3 x4 x5 x6 => Sys2Proof.Machine.execAtoms h x1 x2 x3 x4 x5 x6 s
  | .red h x1 x2 x3 x4 x5 x6 => Sys2Proof.Machine.execRed h x1 x2 x3 x4 x5 x6 s
  | .fence h x1 x2 => Sys2Proof.Machine.execFence h x1 x2 s
  | .relst h x1 x2 x3 x4 => Sys2Proof.Machine.execRelst h x1 x2 x3 x4 s
  | .relop h x1 x2 x3 x4 x5 x6 => Sys2Proof.Machine.execRelop h x1 x2 x3 x4 x5 x6 s
  | .acqld h x1 x2 x3 x4 => Sys2Proof.Machine.execAcqld h x1 x2 x3 x4 s
  | .acqwt h x1 x2 x3 x4 x5 x6 x7 => Sys2Proof.Machine.execAcqwt h x1 x2 x3 x4 x5 x6 x7 s
  | .remacq h x1 => Sys2Proof.Machine.execRemacq h x1 s
  | .barinit h x1 x2 => Sys2Proof.Machine.execBarinit h x1 x2 s
  | .bararv h x1 x2 x3 x4 x5 => Sys2Proof.Machine.execBararv h x1 x2 x3 x4 x5 s
  | .barwt h x1 x2 x3 x4 x5 => Sys2Proof.Machine.execBarwt h x1 x2 x3 x4 x5 s
  | .bartst h x1 x2 x3 x4 x5 => Sys2Proof.Machine.execBartst h x1 x2 x3 x4 x5 s
  | .barexp h x1 x2 => Sys2Proof.Machine.execBarexp h x1 x2 s
  | .bardrop h x1 x2 => Sys2Proof.Machine.execBardrop h x1 x2 s
  | .ldnc h x1 x2 x3 x4 => Sys2Proof.Machine.execLdnc h x1 x2 x3 x4 s
  | .cctlIvl h x1 x2 => Sys2Proof.Machine.execCctlIvl h x1 x2 s
  | .cctlIvall h => Sys2Proof.Machine.execCctlIvall h s
  | .cctlIvi h x1 x2 => Sys2Proof.Machine.execCctlIvi h x1 x2 s
  | .cctlIviall h => Sys2Proof.Machine.execCctlIviall h s
  | .cctlDrain h => Sys2Proof.Machine.execCctlDrain h s
  | .sigrdTest h x1 x2 => Sys2Proof.Machine.execSigrdTest h x1 x2 s
  | .sigrdHash h x1 x2 => Sys2Proof.Machine.execSigrdHash h x1 x2 s
  | .sigrdWord h x1 x2 x3 => Sys2Proof.Machine.execSigrdWord h x1 x2 x3 s
  | .xcopy h x1 x2 x3 x4 x5 => Sys2Proof.Machine.execXcopy h x1 x2 x3 x4 x5 s
  | .xgath h x1 x2 x3 x4 x5 => Sys2Proof.Machine.execXgath h x1 x2 x3 x4 x5 s
  | .xscat h x1 x2 x3 x4 x5 => Sys2Proof.Machine.execXscat h x1 x2 x3 x4 x5 s
  | .xpack h x1 x2 x3 x4 x5 x6 x7 x8 x9 => Sys2Proof.Machine.execXpack h x1 x2 x3 x4 x5 x6 x7 x8 x9 s
  | .xunpk h x1 x2 x3 x4 x5 x6 x7 x8 => Sys2Proof.Machine.execXunpk h x1 x2 x3 x4 x5 x6 x7 x8 s
  | .xfill h x1 x2 x3 x4 x5 => Sys2Proof.Machine.execXfill h x1 x2 x3 x4 x5 s
  | .wtany h x1 x2 => Sys2Proof.Machine.execWtany h x1 x2 s
  | .wtall h x1 x2 => Sys2Proof.Machine.execWtall h x1 x2 s
  | .ffrdy h x1 x2 => Sys2Proof.Machine.execFfrdy h x1 x2 s
  | .tagclr h x1 => Sys2Proof.Machine.execTagclr h x1 s
  | .cntwt h x1 x2 x3 x4 x5 => Sys2Proof.Machine.execCntwt h x1 x2 x3 x4 x5 s
  | .rnginit h x1 x2 x3 x4 => Sys2Proof.Machine.execRnginit h x1 x2 x3 x4 s
  | .rngnxt h x1 x2 => Sys2Proof.Machine.execRngnxt h x1 x2 s
  | .launch h x1 x2 x3 => Sys2Proof.Machine.execLaunch h x1 x2 x3 s
  | .cjoin h => Sys2Proof.Machine.execCjoin h s
  | .rte h => Sys2Proof.Machine.execRte h s
  | .movx h x1 x2 => Sys2Proof.Machine.execMovx h x1 x2 s
  | .movxW h x1 x2 => Sys2Proof.Machine.execMovxW h x1 x2 s
  | .movxw h x1 x2 => Sys2Proof.Machine.execMovxw h x1 x2 s
  | .movxwW h x1 x2 => Sys2Proof.Machine.execMovxwW h x1 x2 s
  | .tlbiv h x1 x2 => Sys2Proof.Machine.execTlbiv h x1 x2 s
  | .tlbia h => Sys2Proof.Machine.execTlbia h s
  | .halttOthers h => Sys2Proof.Machine.execHalttOthers h s
  | .halttRelease h => Sys2Proof.Machine.execHalttRelease h s
  | .xdrainWait h => Sys2Proof.Machine.execXdrainWait h s
  | .xdrainCancel h => Sys2Proof.Machine.execXdrainCancel h s
  | .fltqAck h x1 => Sys2Proof.Machine.execFltqAck h x1 s
  | .fltqResume h => Sys2Proof.Machine.execFltqResume h s
  | .fltqFail h => Sys2Proof.Machine.execFltqFail h s
  | .dumpr h x1 x2 => Sys2Proof.Machine.execDumpr h x1 x2 s
  | .xresh h x1 x2 x3 x4 => Sys2Proof.Machine.execXresh h x1 x2 x3 x4 s
  | .xredPush h x1 x2 x3 x4 x5 => Sys2Proof.Machine.execXredPush h x1 x2 x3 x4 x5 s
  | .xredCancel h x1 => Sys2Proof.Machine.execXredCancel h x1 s
  | .xmcast h x1 x2 x3 x4 x5 => Sys2Proof.Machine.execXmcast h x1 x2 x3 x4 x5 s
  | .cwait h x1 x2 x3 x4 x5 => Sys2Proof.Machine.execCwait h x1 x2 x3 x4 x5 s
  | .pfence h x1 => Sys2Proof.Machine.execPfence h x1 s
  | .fetchLineArrival x0 x1 => Sys2Proof.Machine.execFetchLineArrival x0 x1 s
  | .pipeGroupChoice x0 x1 => Sys2Proof.Machine.execPipeGroupChoice x0 x1 s
  | .kdeadDetect x0 => Sys2Proof.Machine.execKdeadDetect x0 s
  | .sleepExpiry x0 x1 => Sys2Proof.Machine.execSleepExpiry x0 x1 s
  | .epochAdvance => Sys2Proof.Machine.execEpochAdvance s
  | .l1LineExpiry x0 x1 => Sys2Proof.Machine.execL1LineExpiry x0 x1 s
  | .wtbDrain x0 x1 => Sys2Proof.Machine.execWtbDrain x0 x1 s
  | .homeAccess x0 x1 => Sys2Proof.Machine.execHomeAccess x0 x1 s
  | .storeAck x0 x1 => Sys2Proof.Machine.execStoreAck x0 x1 s
  | .loadFill x0 x1 => Sys2Proof.Machine.execLoadFill x0 x1 s
  | .pageWalk x0 => Sys2Proof.Machine.execPageWalk x0 s
  | .runAheadStop x0 => Sys2Proof.Machine.execRunAheadStop x0 s
  | .priResponse x0 x1 x2 => Sys2Proof.Machine.execPriResponse x0 x1 x2 s
  | .cardAccept x0 => Sys2Proof.Machine.execCardAccept x0 s
  | .cardStart x0 x1 => Sys2Proof.Machine.execCardStart x0 x1 s
  | .cardSegmentDone x0 x1 => Sys2Proof.Machine.execCardSegmentDone x0 x1 s
  | .cardComplete x0 x1 => Sys2Proof.Machine.execCardComplete x0 x1 s
  | .mldsComplete x0 => Sys2Proof.Machine.execMldsComplete x0 s
  | .mswapWavefront x0 => Sys2Proof.Machine.execMswapWavefront x0 s
  | .mstrRowWrite x0 => Sys2Proof.Machine.execMstrRowWrite x0 s
  | .dispatchDecision x0 x1 => Sys2Proof.Machine.execDispatchDecision x0 x1 s
  | .headUnitHold x0 x1 => Sys2Proof.Machine.execHeadUnitHold x0 x1 s
  | .planeSwitch x0 => Sys2Proof.Machine.execPlaneSwitch x0 s
  | .launchAccept x0 x1 => Sys2Proof.Machine.execLaunchAccept x0 x1 s
  | .teamEnd x0 => Sys2Proof.Machine.execTeamEnd x0 s
  | .gridComplete x0 => Sys2Proof.Machine.execGridComplete x0 s
  | .spillReturn x0 => Sys2Proof.Machine.execSpillReturn x0 s
  | .blockedUnitSwap x0 => Sys2Proof.Machine.execBlockedUnitSwap x0 s
  | .timeSliceEnd x0 => Sys2Proof.Machine.execTimeSliceEnd x0 s
  | .contextSave x0 x1 => Sys2Proof.Machine.execContextSave x0 x1 s
  | .contextDump x0 x1 => Sys2Proof.Machine.execContextDump x0 x1 s
  | .contextResume x0 x1 x2 => Sys2Proof.Machine.execContextResume x0 x1 x2 s
  | .queueSubmit x0 x1 x2 x3 => Sys2Proof.Machine.execQueueSubmit x0 x1 x2 x3 s
  | .notifyEnqueue => Sys2Proof.Machine.execNotifyEnqueue s
  | .notify => Sys2Proof.Machine.execNotify s
  | .s2inv x0 x1 x2 => Sys2Proof.Machine.execS2inv x0 x1 x2 s
  | .resetQueue x0 x1 => Sys2Proof.Machine.execResetQueue x0 x1 s
  | .resetEngine x0 x1 x2 => Sys2Proof.Machine.execResetEngine x0 x1 x2 s
  | .resetPartition x0 => Sys2Proof.Machine.execResetPartition x0 s
  | .resetDie x0 => Sys2Proof.Machine.execResetDie x0 s
  | .resetFlr => Sys2Proof.Machine.execResetFlr s
  | .resetDevice => Sys2Proof.Machine.execResetDevice s
  | .moduleResetPin => Sys2Proof.Machine.execModuleResetPin s
  | .part x0 x1 => Sys2Proof.Machine.execPart x0 x1 s
  | .lend x0 x1 x2 => Sys2Proof.Machine.execLend x0 x1 x2 s
  | .recallCore x0 x1 x2 => Sys2Proof.Machine.execRecall x0 x1 x2 s
  | .gang x0 => Sys2Proof.Machine.execGang x0 s
  | .gangAttempt => Sys2Proof.Machine.execGangAttempt s
  | .qthaw x0 x1 => Sys2Proof.Machine.execQthaw x0 x1 s
  | .ringset x0 x1 => Sys2Proof.Machine.execRingset x0 x1 s
  | .metrd x0 x1 => Sys2Proof.Machine.execMetrd x0 x1 s
  | .s2set x0 x1 => Sys2Proof.Machine.execS2set x0 x1 s
  | .vfFlr x0 => Sys2Proof.Machine.execVfFlr x0 s
  | .vfEnableClear => Sys2Proof.Machine.execVfEnableClear s
  | .metreqWrite x0 x1 => Sys2Proof.Machine.execMetreqWrite x0 x1 s
  | .meterReport x0 => Sys2Proof.Machine.execMeterReport x0 s
  | .fqSetupWrite x0 x1 x2 => Sys2Proof.Machine.execFqSetupWrite x0 x1 x2 s
  | .lpSaveRegWrite x0 x1 x2 => Sys2Proof.Machine.execLpSaveRegWrite x0 x1 x2 s
  | .errWordClear x0 x1 x2 => Sys2Proof.Machine.execErrWordClear x0 x1 x2 s
  | .ringheadWrite x0 => Sys2Proof.Machine.execRingheadWrite x0 s
  | .overflowClear => Sys2Proof.Machine.execOverflowClear s
  | .domfailClear x0 => Sys2Proof.Machine.execDomfailClear x0 s
  | .pwrlimWrite x0 => Sys2Proof.Machine.execPwrlimWrite x0 s
  | .registerWrite x0 x1 => Sys2Proof.Machine.execRegisterWrite x0 x1 s
  | .keystoneRestart x0 => Sys2Proof.Machine.execKeystoneRestart x0 s
  | .powerSample x0 => Sys2Proof.Machine.execPowerSample x0 s
  | .ageingReplan x0 => Sys2Proof.Machine.execAgeingReplan x0 s
  | .powerOn => Sys2Proof.Machine.execPowerOn s
  | .migStart x0 => Sys2Proof.Machine.execMigStart x0 s
  | .migAccept x0 => Sys2Proof.Machine.execMigAccept x0 s
  | .migAbort x0 => Sys2Proof.Machine.execMigAbort x0 s
  | .migForce x0 => Sys2Proof.Machine.execMigForce x0 s
  | .migClear x0 => Sys2Proof.Machine.execMigClear x0 s
  | .trowelRound x0 => Sys2Proof.Machine.execTrowelRound x0 s
  | .migCopyReceive x0 x1 => Sys2Proof.Machine.execMigCopyReceive x0 x1 s
  | .migResume x0 => Sys2Proof.Machine.execMigResume x0 s
  | .forwardingEnd x0 => Sys2Proof.Machine.execForwardingEnd x0 s
  | .remoteRequestReceive x0 => Sys2Proof.Machine.execRemoteRequestReceive x0 s
  | .remoteResponseReceive x0 => Sys2Proof.Machine.execRemoteResponseReceive x0 s
  | .movedTimeout x0 x1 => Sys2Proof.Machine.execMovedTimeout x0 x1 s
  | .responseSlotTimeout x0 x1 => Sys2Proof.Machine.execResponseSlotTimeout x0 x1 s
  | .fmVdnBind x0 x1 => Sys2Proof.Machine.execFmVdnBind x0 x1 s
  | .fmVdnTableWrite x0 x1 => Sys2Proof.Machine.execFmVdnTableWrite x0 x1 s
  | .fmRedirectWrite x0 x1 => Sys2Proof.Machine.execFmRedirectWrite x0 x1 s
  | .fmMeshSet x0 x1 x2 => Sys2Proof.Machine.execFmMeshSet x0 x1 x2 s
  | .slotreq x0 => Sys2Proof.Machine.execSlotreq x0 s
  | .slotgrant x0 => Sys2Proof.Machine.execSlotgrant x0 s
  | .push x0 => Sys2Proof.Machine.execPush x0 s
  | .result x0 => Sys2Proof.Machine.execResult x0 s
  | .mcast x0 => Sys2Proof.Machine.execMcast x0 s
  | .a2a x0 => Sys2Proof.Machine.execA2a x0 s
  | .cancel x0 => Sys2Proof.Machine.execCancel x0 s
  | .ack x0 => Sys2Proof.Machine.execAck x0 s
  | .earlyRetry => Sys2Proof.Machine.execEarlyRetry s
  | .collectiveGroupBroken x0 => Sys2Proof.Machine.execCollectiveGroupBroken x0 s
  | .domainJoin x0 x1 x2 x3 x4 x5 x6 => Sys2Proof.Machine.execDomainJoin x0 x1 x2 x3 x4 x5 x6 s
  | .rekeyStart x0 => Sys2Proof.Machine.execRekeyStart x0 s
  | .keyInstall x0 => Sys2Proof.Machine.execKeyInstall x0 s
  | .rekeyBarrierArrival x0 x1 => Sys2Proof.Machine.execRekeyBarrierArrival x0 x1 s
  | .rekeyDone x0 => Sys2Proof.Machine.execRekeyDone x0 s
  | .seqExhausted x0 => Sys2Proof.Machine.execSeqExhausted x0 s
  | .hostMemAccess x0 => Sys2Proof.Machine.execHostMemAccess x0 s
  | .birsp x0 x1 => Sys2Proof.Machine.execBirsp x0 x1 s
  | .hostSnoop x0 => Sys2Proof.Machine.execHostSnoop x0 s
  | .atsInvalidation x0 x1 x2 => Sys2Proof.Machine.execAtsInvalidation x0 x1 x2 s
  | .divisionComplete x0 x1 => Sys2Proof.Machine.execDivisionComplete x0 x1 s
  | .drainComplete x0 => Sys2Proof.Machine.execDrainComplete x0 s
  | .softError x0 x1 => Sys2Proof.Machine.execSoftError x0 x1 s
  | .vfEnableSet x0 => Sys2Proof.Machine.execVfEnableSet x0 s
  | .deviceReady => Sys2Proof.Machine.execDeviceReady s
  | .planeCleared x0 => Sys2Proof.Machine.execPlaneCleared x0 s
  | .bindRecordWrite x0 x1 x2 => Sys2Proof.Machine.execBindRecordWrite x0 x1 x2 s
  | .chipScratchpadGrant x0 x1 => Sys2Proof.Machine.execChipScratchpadGrant x0 x1 s
  | .domainLeave x0 => Sys2Proof.Machine.execDomainLeave x0 s
  | .airanPortChange x0 x1 => Sys2Proof.Machine.execAiranPortChange x0 x1 s
  | .configImageWrite x0 x1 => Sys2Proof.Machine.execConfigImageWrite x0 x1 s

end Sys2Proof.Machine
end

