-- ==== Sys2Proof/Machine/Runs.lean ====
section
/-!
DEFINITION. The register runs whose length a format slot, a plane or a shape record gives (05 R113, 11 R192, R194, 18 R315),
as the pair test of 02 R34 reads them before either instruction of a pair issues.
-/
namespace Sys2Proof.Machine

/-- A record's rank, read as the command reads its record; 0 where it cannot be read now. -/
def Ctx.peekRank (c : Ctx) (a : RegCode) : Nat :=
  match c.recRead (c.u2 a).toNat 64 with
  | .ok bs => recRank bs
  | .xl _ | .hold _ => 0

/-- The coordinate run of an engine command. -/
def Ctx.peekCoords (c : Ctx) (a : Option RegCode) (b cc : RegCode) : List Opnd :=
  let k := (match a with | some a => c.peekRank a | none => 0) + c.peekRank b
  ((coordRun c.t.lrec.regs cc k).getD []).map rd

/-- The runs of an instruction of a cohort for the pair test. -/
def runsFor (s : State) (cu : Cur) (i : Instr) : List Opnd :=
  match s.team? (cu.gk / 32) with
  | none => []
  | some t =>
    let g := s.group cu.gk
    let c : Ctx := ⟨s, cu.gk, g, t, cu.cohort, cu.cohort, cu.pos⟩
    let p := s.plane c.plane
    let r := t.lrec
    match i with
    | .cvtpk _ _ _ d a b slot => (pkRuns r true d a b slot).getD []
    | .cvtunpk _ _ _ d a b slot => (pkRuns r false d a b slot).getD []
    | .mlds _ _ _ b _ slot => (scaleReg (r.slot slot.toNat) b).map rd
    | .mstr _ _ _ _ _ cc slot _ _ => (scaleReg (r.slot slot.toNat) cc).map rd
    | .mstrr _ _ _ a cc slot rows =>
      (mstrrRuns r.regs p.firstMeets.2.1 a (rows.cnt.toNat + 1)).getD [] ++ (scaleReg (r.slot slot.toNat) cc).map rd
    | .mdrn _ x _ _ b _ => (scaleReg (r.drainSlot x) b).map rd
    | .mdrnr _ x _ d b rows => (mdrnrRuns r x d b (rows.cnt.toNat + 1)).getD []
    | .xcopy _ _ _ a b cc | .xgath _ _ _ a b cc | .xscat _ _ _ a b cc | .xpack _ _ _ _ _ _ _ a b cc
    | .xunpk _ _ _ _ _ _ a b cc => c.peekCoords (some a) b cc
    | .xfill _ _ _ _ b cc => c.peekCoords none b cc
    | _ => []

end Sys2Proof.Machine
end

