-- ==== Sys2Proof/Machine/Sched.lean ====
section
/-!
DEFINITION. The clock, and the default choice of the next move (log entry 1): every agent's moves that can be made now, of which one
is taken in turn.
-/
namespace Sys2Proof.Machine

/-! ### One cycle (log entry 13) -/

/-- A cycle of its core's clock for which a plane of a function is live counts in CCYC (22 Table 22-4, 00 R5); `old` is the state before it. -/
def State.countCycles (old s : State) : State :=
  s.cores.foldl (fun s (e : Nat × Core) =>
    let p := s.plane (3 * e.1 + e.2.live)
    match p.func with
    | some f => if p.teams = [] ∨ s.cycle e.1 ≤ old.cycle e.1 then s else
      let x := s.func f
      s.setFunc f { x with meter := { x.meter with ccyc := x.meter.ccyc + 1 } }
    | none => s) s

/-- After each millisecond of the reference clock HBMBS counts the HBM4 that each function occupies, a free value (22 Table 22-4). -/
def State.countHbm (s : State) : State :=
  if s.clock % 4000000 ≠ 0 then s else
  ((List.range 128).foldl (fun s n =>
    let f := s.func n
    if f.exist then s.setFunc n { f with meter := { f.meter with hbmbs := f.meter.hbmbs + (Config.hbmOccupancy s.freeCtr n).toNat } } else s) s).useFree

/-- One cycle of the reference clock passes. -/
def State.tick (s : State) : State :=
  let s := (s.countCycles { s.serveInbox with clock := s.clock + 1 }.slowClocks).countHbm
  if s.hostWait = [] then s else s.hostGo

/-! ### The moves that can be made -/

/-- Moves of a core: fetch lines, write-through buffer, fills, pipes. -/
def State.coreMoves (s : State) (c : Nat) (k : Core) : List Instr :=
  ((k.fetches.zipIdx.filter (fun (f, _) => match f.tgt with
      | .fab v _ => !f.sent && k.slotFree v
      | .loc _ | .host _ | .notify .. => true)).map (fun (_, i) => Instr.fetchLineArrival c i)).take 1 ++
  (k.wtb.zipIdx.filterMap (fun (e, i) =>
    let before := (k.wtb.take i).filter (fun x => sameSlice x.tgt e)
    match e.st with
    | .buffered => if before.all (fun x => decide (x.st ≠ .buffered)) then some (Instr.wtbDrain c i) else none
    | .sent => if before.all (fun x => decide (x.st = .performed)) && !s.snooped e.tgt then some (Instr.homeAccess c i) else none
    | .performed => if k.ackDue e before then some (Instr.storeAck c i) else none)).take 1 ++
  (k.wtb.zipIdx.filterMap (fun (e, i) =>
    if e.st = .sent ∧ s.snooped e.tgt = true then (match e.tgt with
      | .loc ma => if s.biPend.contains (ma / 512) then none else some (Instr.homeAccess c i)
      | .host _ | .fab .. | .notify .. => none) else none)).take 1 ++
  (((List.range k.loads.length).find? k.loadDue).map (fun i => Instr.loadFill c i)).toList ++
  (match findIdx (fun (l : L1Line) => !l.live s.epoch) k.l1 with | some (i, _) => [Instr.l1LineExpiry c i] | none => []) ++
  ((List.range 4).filter (fun p => decide (s.pipeGroups c p ≠ []) || (s.pipeFetch c p).isSome)).map (fun p => Instr.pipeGroupChoice c p)

/-- Time limits of a core's slots that have passed. -/
def State.lateMoves (s : State) (c : Nat) (k : Core) : List Instr :=
  let late (m : Option Nat) : Bool := match m with | some t => decide (t + 4000000 ≤ s.clock) | none => false
  let live (f : Nat) : Bool := !(s.func f).frozen
  k.peers.flatMap (fun (e : Nat × Peer) =>
    e.2.slots.flatMap (fun (q : Nat × RReq) =>
      (if live q.2.func && late q.2.movedAt then [Instr.movedTimeout c (8 * e.1 + q.1)] else []) ++
      (if q.2.since + 8000000 ≤ s.clock then [Instr.responseSlotTimeout c (8 * e.1 + q.1)] else [])) ++
    (if e.2.stores.any (fun r => live r.func && late r.movedAt) then [Instr.movedTimeout c (128 + e.1)] else []))

/-- A plane with a higher priority than the live one (12 R206, R207). -/
def State.switchDue (s : State) (c : Nat) (k : Core) : Bool :=
  (List.range 3).any (fun p => decide (s.livePri c k.live < s.livePri c p))

/-- Moves of a plane: its queue of matrix instructions, its clearing. -/
def planeMoves (pl : Nat) (p : Plane) : List Instr :=
  (match p.matq with
   | .load .. :: _ => [Instr.mldsComplete pl]
   | .swap .. :: _ => [.mswapWavefront pl]
   | .stream .. :: _ => [.mstrRowWrite pl]
   | .drain .. :: _ => [.drainComplete pl]
   | .zero .. :: _ | .bias .. :: _ | [] => []) ++
  (if p.teams = [] ∧ p.cleared = false then [.planeCleared pl] else [])

/-- Moves of a die: walks and cards. -/
def State.dieMoves (s : State) (d : Nat) (x : Die) : List Instr :=
  (if x.walkq = [] ∧ x.walking = [] then [] else [.pageWalk d]) ++ (if x.cardQ = [] then [] else [.cardAccept d]) ++
  ((List.range 3).filter (fun cls => (x.freeEngine cls).isSome &&
    (List.range 128).any (fun f => !(s.func f).frozen && decide (s.readyCards d cls f ≠ [])))).map (fun cls => Instr.cardStart d cls) ++
  x.cards.filterMap (fun c =>
    if (s.func c.func).frozen then (if c.short then some (Instr.cardSegmentDone d c.id) else none) else
    match c.st with
    | .running _ => if (s.team? c.team).any s.checkpointing && !c.busy then none else some (Instr.cardSegmentDone d c.id)
    | .paused _ _ unwritten =>
      if decide (c.outq ≠ []) || c.tok.isSome || (unwritten && !(s.func c.func).fqFull) then some (.cardSegmentDone d c.id) else none
    | .finished _ => if c.out then none else some (.cardComplete d c.id)
    | .formed | .waiting | .ready _ => none)

/-- Moves of a group. -/
def State.groupMoves (s : State) (gk : Nat) (g : Group) : List Instr :=
  (if g.divs = [] then [] else [.divisionComplete gk 0]) ++
  (match (lanesOf g.live).find? (fun l => match (g.lane l).wait with
     | .sleep t => decide (t ≤ s.cycleOf gk)
     | .acq .. | .bar .. | .chan .. | .none | .k _ | .tags .. | .launch .. | .cjoin | .fetch _ | .pri _ | .moving _ 
     | .walk _ | .woken | .satisfied .. => false) with
   | some l => [Instr.sleepExpiry gk l]
   | none => []) ++
  (if s.kdeadDue gk then [.kdeadDetect gk] else []) ++ (if s.batchDue gk then [.runAheadStop gk] else [])

/-- Moves of the dispatcher, the queues and the grids. -/
def State.placeMoves (s : State) : List Instr :=
  s.teams.filterMap (fun (e : Nat × Team) => if s.groupsEnded e.1 e.2 && !s.teamCards e.1 && s.gangIdle e.1 then some (Instr.teamEnd e.1) else none) ++
  s.grids.flatMap (fun (e : Nat × Grid) =>
    (if e.2.ended = e.2.lrec.teams ∧ e.2.abandoned = false ∧ e.2.waitPri = none ∧ (s.func e.2.func).frozen = false then [Instr.gridComplete e.1] else []) ++
    (if s.spillDue e.2 then [.spillReturn e.1] else [])) ++
  s.funcs.flatMap (fun (e : Nat × Func) => match s.bindOf e.1 with
    | some b => if e.2.frozen then [] else ((e.2.queues.filter (fun (q : Nat × List (List Byte)) => bindQueue b q.1)).map (fun (q : Nat × List (List Byte)) =>
        Instr.launchAccept e.1 q.1)).take 1
    | none => []) ++
  s.parts.flatMap (fun (e : Nat × Part) =>
    (if (List.range 2).any (fun d => (s.decide' e.1 d).isSome) then [Instr.dispatchDecision e.1 e.2.turn] else []) ++
    (if s.swapDue e.1 then [.blockedUnitSwap e.1] else []))

/-- Moves of the Keystone pair and the firmware. -/
def State.firmwareMoves (s : State) : List Instr :=
  (match s.notifyQ with
   | [] => []
   | n :: _ => [if n.bytes.length = 4 then Instr.notify else .notifyEnqueue]) ++
  s.saving.map (fun j => Instr.contextSave (j.plane / 3) (j.plane % 3)) ++
  s.saved.filterMap (fun x => match x.place with
    | some (core, _) => if (s.func x.func).frozen || s.stopping x.func then none else some (Instr.contextResume x.func x.va core)
    | none => none) ++
  (if s.gangs.any (fun g => decide (g.next ≤ s.clock)) then [.gangAttempt] else []) ++
  s.funcs.filterMap (fun (e : Nat × Func) => if e.2.metreq.isSome then some (Instr.meterReport e.1) else none) ++
  (if s.early.any (fun (e : Nat × Packet) => decide (e.1 ≤ s.clock)) then [.earlyRetry] else []) ++
  s.migs.flatMap (fun (e : Nat × Mig) =>
    (if e.2.st = 1 ∨ e.2.st = 3 ∨ (e.2.st ≠ 4 ∧ e.2.hold ≠ []) then [Instr.trowelRound e.1] else []) ++
    (if e.2.st = 8 ∧ e.2.manifest.isSome = true ∧ e.2.phase = 1 then [.migResume e.1] else []) ++
    (if e.2.st = 4 ∧ e.2.since + s.bound 256000 ≤ s.clock then [.forwardingEnd e.1] else [])) ++
  s.doms.flatMap (fun (e : Nat × Dom) =>
    (match e.2.rekey with
     | some l => (e.2.members.filter (fun v => !l.contains v && (s.funcOfVdn v).isSome && s.mayArrive e.1 v)).map (fun v =>
         Instr.rekeyBarrierArrival e.1 v)
     | none => []) ++
    (if e.2.leader && e.2.switched && e.2.allHere then [.rekeyDone e.1] else []))

/-- Every move that can be made now. -/
def State.moves (s : State) : List Instr :=
  s.cores.flatMap (fun (e : Nat × Core) => s.coreMoves e.1 e.2 ++ s.lateMoves e.1 e.2 ++ (if s.switchDue e.1 e.2 then [.planeSwitch e.1] else [])) ++
  s.planes.flatMap (fun (e : Nat × Plane) => planeMoves e.1 e.2) ++ s.dies.flatMap (fun (e : Nat × Die) => s.dieMoves e.1 e.2) ++
  s.groups.flatMap (fun (e : Nat × Group) => s.groupMoves e.1 e.2) ++ s.placeMoves ++ s.firmwareMoves

/-- The move the machine makes when its agenda is empty and no cohort has been chosen; `none`: the clock advances alone. The moves
take turns. -/
def defaultMove (s : State) : Option Instr :=
  let l := s.moves
  if l = [] then none else l[s.turn % l.length]?

end Sys2Proof.Machine
end

