-- ==== Sys2Proof/Machine/Step.lean ====
section
/-!
DEFINITION. One step of the machine: the next move of the agenda; else the instruction of the chosen cohort; else the
default move (log entry 1). Each step is one cycle of the clock (log entry 13).
-/
namespace Sys2Proof.Machine

/-- One cycle passes, and with it the epoch where it is due (14 R244). -/
def State.cyclePass (s : State) : State := s.tick.epochTurn

/-- The clock passes with a next state. -/
def ticked : Host.Outcome State Fault Refusal → Host.Outcome State Fault Refusal
  | .next s => .next s.cyclePass
  | .fault f => .fault f
  | .refused r => .refused r

def step (s : State) : Host.Outcome State Fault Refusal :=
  match s.agenda with
  | e :: rest => ticked (exec e { s with agenda := rest })
  | [] =>
    match s.cur with
    | some cu =>
      (match fetchCur (runsFor s cu) s cu with
       | .run s' i => ticked (exec i s')
       | .next s' => .next s'.cyclePass
       | .fault f => .fault f)
    | none =>
      match defaultMove s with
      | some e => ticked (exec e { s with turn := s.turn + 1 })
      | none => .next s.cyclePass

/-- The 64 bytes of a line that holds `w` in slot 0, NOP in the other slots, a TGT bit for slot 0 and its CHECK. -/
def testLine (w : Nat) : List Byte :=
  let nop := leBytes 0x38000067 4 ++ List.replicate 4 0xFF ++ List.replicate 4 0
  let body := leBytes w 12 ++ nop ++ nop ++ nop ++ nop ++ leBytes 1 2
  body ++ leBytes (lineCheck body) 2

/-- The lane that is about to issue slot 0 of line 0, entered. -/
def freshLane : Lane := { fline := some 0 }

/-- `s` with a team of one group of 32 lanes of function 0, resident on core 0 and chosen to issue, whose fetch line holds
the word `w` in slot 0 (log entry 1: it stands for a launch that the host submits). -/
def State.withFetchWord (s : State) (_nbits w : Nat) : State :=
  let tid := s.nextTeam
  let gid := s.nextGrid
  let r : Rec := { regs := 224 }
  let il : ILine := { func := 0, line := 0, bytes := testLine w }
  let c := s.core 0
  let p := s.plane 0
  let f := s.func 0
  let s := (s.setFunc 0 { f with exist := true, frozen := false }).setTeam tid
    { func := 0, grid := gid, idx := 0, rank := 0, core := 0, plane := 0, lrec := r, order := tid }
  let s := s.setGrid gid { func := 0, queue := 0, lrec := r, eff := 0, placed := 1 }
  let s := s.setGroup (32 * tid) { lanes := List.replicate 32 freshLane, live := 0xFFFFFFFF }
  let s := s.setCore 0 { c with live := 0, icache := il :: c.icache.filter (fun z => !(decide (z.func = 0) && decide (z.line = 0))) }
  let s := s.setPlane 0 { p with func := some 0, teams := p.teams ++ [tid], cleared := false }
  { s with agenda := [], cur := some ⟨32 * tid, 0xFFFFFFFF, .single⟩, nextTeam := tid + 1, nextGrid := gid + 1 }

end Sys2Proof.Machine
end

