-- ==== Sys2Proof/Safety.lean ====
section
/-!
DEFINITION. What counts as a safe state, and the words that the statements use: when an instruction issues and meets no
cause of 01 R24, what its writes are, and which parts of the machine it leaves alone.
-/
namespace Sys2Proof.Machine

/-- Every memory of the machine is in canonical form. -/
def State.memWf (s : State) : Bool := Memory.wf s.mem && Memory.wf s.hostMem && Memory.wf s.chip

/-- Context `c` is that of an instruction with the fields `f` that issues in `s`: its cohort is chosen, its scoreboards and
the issue delay allow it (02 R35, R37), its group is not in run-ahead, and none of the causes holds that 01 R24 puts before
the instruction's own: its operands `ops` lie below the register count (01 R10), a system instruction is in supervisor mode,
no lane with CHK = 1 reads a register whose write is not visible (02 R36, R38), and no active lane reads a marked register
(01 R23), but for the exchanged sources `ex`, which wait for the last write and are tested then (09 R154). A memory instruction or command
waits for no PFENCE of its group (25 R429) and for no acquire of its lanes at a peer (14 R242). -/
structure Issues (s : State) (f : Info) (ops ex : List Opnd) (c : Ctx) : Prop where
  cur : s.cur = some ⟨c.gk, c.cohort, c.pos⟩
  state : c.s = s
  team : s.team? (c.gk / 32) = some c.t
  group : c.g = s.group c.gk
  act : c.act = maskOf ((lanesOf c.cohort).filter (fun l => c.g.guard l f.h))
  ready : c.g.ready (s.cycle c.core) f.h c.pos = true
  ra : c.g.ra = none
  free : c.behind f = false
  count : ops.all (opInCount c.t.lrec.regs) = true
  mode : f.cls = .sys → c.sup = true
  fresh : ∀ l ∈ lanesOf c.cohort, (c.g.lane l).chk = true → ∀ r ∈ readCodes f.h (ex.foldl List.erase ops), c.g.stale f.h l r = false
  marks : ∀ l ∈ c.lanes, ∀ r ∈ readCodes f.h (ex.foldl List.erase ops), c.g.markOf (s.cycle c.core) l r = none

/-- The same as a Bool, for a concrete state. -/
def issuesB (s : State) (f : Info) (ops ex : List Opnd) (c : Ctx) : Bool :=
  decide (s.cur = some ⟨c.gk, c.cohort, c.pos⟩) && decide (c.s = s) && decide (s.team? (c.gk / 32) = some c.t) &&
  decide (c.g = s.group c.gk) && decide (c.act = maskOf ((lanesOf c.cohort).filter (fun l => c.g.guard l f.h))) &&
  c.g.ready (s.cycle c.core) f.h c.pos && decide (c.g.ra = none) && !c.behind f && ops.all (opInCount c.t.lrec.regs) &&
  (!decide (f.cls = .sys) || c.sup) &&
  (lanesOf c.cohort).all (fun l => !(c.g.lane l).chk ||
    (readCodes f.h (ex.foldl List.erase ops)).all (fun r => !c.g.stale f.h l r)) &&
  c.lanes.all (fun l => (readCodes f.h (ex.foldl List.erase ops)).all (fun r => decide (c.g.markOf (s.cycle c.core) l r = none)))

/-- The context of the instruction with fields `f` that the chosen cohort of `s` is about to issue. -/
def State.ctx (s : State) (f : Info) : Ctx :=
  let cu : Cur := match s.cur with | some cu => cu | none => ⟨0, 0, .single⟩
  let t : Team := match s.team? (cu.gk / 32) with
    | some t => t
    | none => { func := 0, grid := 0, idx := 0, rank := 0, core := 0, plane := 0, lrec := {} }
  let g := s.group cu.gk
  ⟨s, cu.gk, g, t, cu.cohort, maskOf ((lanesOf cu.cohort).filter (fun l => g.guard l f.h)), cu.pos⟩

/-- The instruction issues in context `c` with no cause that comes before its own, reading and writing what its word names. -/
def Ready (i : Instr) (s : State) (f : Info) (c : Ctx) : Prop := i.info = some f ∧ Issues s f f.opnds [] c

/-- The state after an instruction of fixed latency has issued: each active lane `l` makes the register writes `w l`, which
become visible at declared distance L (02 R36). -/
def Ctx.wrote (c : Ctx) (f : Info) (w : Nat → List Wr) : State :=
  State.commit c f { s := c.s, wr := c.lanes.flatMap w, mode := .fixed f.lat }

/-- The 32-bit register of code `r` as an issue point of lane `l` at declared time `n` and clock `clk` reads it (02 R36,
08 R145). -/
def Group.readAt (g : Group) (clk l n : Nat) (r : RegCode) : Word := (g.modLane l (fun x => { x with dt := n })).rd clk l r

/-- The predicate of code `p` as an issue point of lane `l` at declared time `n` reads it. -/
def Group.readPAt (g : Group) (l n : Nat) (p : RegCode) : Bool := (g.modLane l (fun x => { x with dt := n })).rdP l p

/-- Context `c` is that of a cohort of `s` that has been chosen to issue an instruction with the fields `f`; whether it may issue,
and with what causes, is open. -/
structure Chosen (s : State) (f : Info) (c : Ctx) : Prop where
  cur : s.cur = some ⟨c.gk, c.cohort, c.pos⟩
  state : c.s = s
  team : s.team? (c.gk / 32) = some c.t
  group : c.g = s.group c.gk
  act : c.act = maskOf ((lanesOf c.cohort).filter (fun l => c.g.guard l f.h))

/-- Whenever instruction `i` issues in `s` and meets no common cause, it completes, and each active lane makes the writes
`w l`. -/
def Gives (i : Instr) (s : State) (c : Ctx) (w : Nat → List Wr) : Prop :=
  ∀ f, Ready i s f c → exec i s = .next (c.wrote f w)

/-- The same for an instruction that exchanges the source `x` among lanes, which never raises STALL for it (09 R154). -/
def GivesEx (i : Instr) (s : State) (c : Ctx) (x : Opnd) (w : Nat → List Wr) : Prop :=
  ∀ f, i.info = some f → Issues s f f.opnds [x] c → exec i s = .next (c.wrote f w)

/-- Whenever instruction `i` issues in `s` and meets no common cause, it completes with the effect `e`. -/
def Does (i : Instr) (s : State) (c : Ctx) (e : Eff) : Prop :=
  ∀ f, Ready i s f c → exec i s = .next (State.commit c f e)

/-- The last value in program order of predicate `k` of lane `l`. -/
def Group.lastP (g : Group) (l k : Nat) : Bool :=
  decide (flightLast (g.lane l).flights (256 + k) (if (g.lane l).p.getLsbD k then 1 else 0) = 1)

/-- The last value in program order of a register of lane `l`: of an S register, which the lanes share (01 R9), that of the group. -/
def Group.lastVal (g : Group) (l : Nat) (c : RegCode) : Word :=
  let n := c.toNat
  if n = 255 then 0
  else if 224 ≤ n then g.sflights.foldl (fun acc f => if f.reg = n - 224 then f.val else acc) (tget 0 g.s (n - 224))
  else flightLast (g.lane l).flights n (tget 0 (g.lane l).g n)

/-- Group `g'` is `g` after the register writes `ws`, lanes rising: the last value in program order of every G and S register and
every predicate of every lane is that of the writes, of the highest lane for an S register (08 R145), and all others stand. -/
def Group.Wrote (g g' : Group) (ws : List Wr) : Prop := ∀ l, l < g.lanes.length → l < 32 →
  (∀ r : RegCode, r.toNat < 255 → g'.lastVal l r =
    match (ws.filter (fun e => decide (e.dest = r.toNat) && (decide (224 ≤ r.toNat) || decide (e.lane = l)))).getLast? with
    | some e => e.val
    | none => g.lastVal l r) ∧
  (∀ k, k < 7 → g'.lastP l k =
    match (ws.filter (fun e => decide (e.dest = 256 + k) && decide (e.lane = l))).getLast? with
    | some e => decide (e.val = 1)
    | none => g.lastP l k)

/-- The G registers and predicates of lane `l` alone are those after the writes `ws` of that lane. -/
def Group.WroteIn (g g' : Group) (l : Nat) (ws : List Wr) : Prop :=
  (∀ r : RegCode, r.toNat < 224 → g'.lastVal l r =
    match (ws.filter (fun e => decide (e.dest = r.toNat))).getLast? with | some e => e.val | none => g.lastVal l r) ∧
  (∀ k, k < 7 → g'.lastP l k =
    match (ws.filter (fun e => decide (e.dest = 256 + k))).getLast? with | some e => decide (e.val = 1) | none => g.lastP l k)

/-- Nothing of the core of `c` is on its way to a home: its write-through buffer is empty, no load and no request to a peer is
outstanding, and the host holds no line of the device (13 R228, 14 R242, R246, 25 R423, 29 R466). -/
def Ctx.calm (c : Ctx) : Prop :=
  (c.s.core c.core).wtb = [] ∧ (c.s.core c.core).loads = [] ∧ (c.s.core c.core).peers = [] ∧ c.s.snoop = []

/-- A target in local or host memory. -/
def Tgt.home (t : Tgt) : Prop := match t with | .loc _ | .host _ => True | .fab .. | .notify .. => False

/-- No byte of memory outside the `n` bytes at target `t` differs. -/
def State.OnlyAt (s s' : State) (t : Tgt) (n : Nat) : Prop := match t with
  | .loc ma => (∀ x, x < ma ∨ ma + n ≤ x → tget 0 s'.mem x = tget 0 s.mem x) ∧ ∀ x, tget 0 s'.hostMem x = tget 0 s.hostMem x
  | .host ha => (∀ x, x < ha ∨ ha + n ≤ x → tget 0 s'.hostMem x = tget 0 s.hostMem x) ∧ ∀ x, tget 0 s'.mem x = tget 0 s.mem x
  | .fab .. | .notify .. => (∀ x, tget 0 s'.mem x = tget 0 s.mem x) ∧ ∀ x, tget 0 s'.hostMem x = tget 0 s.hostMem x

/-- Group `g'` has the K registers, the live and halted lanes and the trap registers of `g`. -/
def Group.Kept (g g' : Group) : Prop := g'.k = g.k ∧ g'.live = g.live ∧ g'.halted = g.halted ∧
  ∀ l, (g'.lane l).xpc = (g.lane l).xpc ∧ (g'.lane l).xnpc = (g.lane l).xnpc ∧ (g'.lane l).xaddr = (g.lane l).xaddr ∧
    (g'.lane l).xcause = (g.lane l).xcause ∧ (g'.lane l).xstate = (g.lane l).xstate ∧ (g'.lane l).xsave = (g.lane l).xsave

/-- Every byte of every memory reads as it did, and every other group stands. -/
def State.Quiet (s t : State) (gk : Nat) : Prop :=
  (∀ a, tget 0 t.mem a = tget 0 s.mem a ∧ tget 0 t.hostMem a = tget 0 s.hostMem a ∧ tget 0 t.chip a = tget 0 s.chip a) ∧
  ∀ k, k ≠ gk → t.group k = s.group k

/-- Whenever instruction `i`, with the registers `r` of its runs and the exchanged sources `ex`, issues in `s` and meets no common
cause, it completes: its group's registers are those after the writes `ws`, its K and trap registers stand, and `P` holds of the
next state. -/
def Completes (i : Instr) (s : State) (c : Ctx) (r ex : List Opnd) (ws : List Wr) (P : State → Prop) : Prop :=
  ∀ f, i.info = some f → Issues s f (f.opnds ++ r) ex c →
    ∃ t, exec i s = .next t ∧ c.g.Wrote (t.group c.gk) ws ∧ c.g.Kept (t.group c.gk) ∧ P t

end Sys2Proof.Machine
end

