-- ==== Sys2Proof/Certificates/Slice0/Obligations.lean ====
section
/-!
DEFINITION. The statements for the provers. `Gives`, `Does` and `Issues` are those of Safety.lean: an instruction issues in a
context and meets no cause that 01 R24 puts before its own.
-/
section Statements

open Sys2Proof Sys2Proof.Machine

/-! ### Integer instructions (03) -/

/-- 03 R57, R58: MOV and MOV.64 write A or IMM, sign-extended for .64; MOVS and MOVSW write the special register of an assigned
code, MOVS its bits [31:0]. 03 R76, R77: 64-bit addition and subtraction modulo 2^64, IMM sign-extended, and LEA. -/
def Obligations.MoveAndWideArithmeticResults : Prop :=
  (∀ (s : State) (c : Ctx) (h : Hdr) (d : RegCode) (a : Src) (code : BitVec 12),
  Gives (.mov h false d a) s c (fun l => wr1 l d (match a with | .reg r => c.r1 l r | .imm v => v)) ∧
  Gives (.mov h true d a) s c (fun l => wr64 l d (match a with | .reg r => c.r2 l r | .imm v => v.signExtend 64)) ∧
  (specialAssigned code.toNat = true →
    Gives (.movs h d code) s c (fun l => wr1 l d ((c.special code.toNat l).extractLsb' 0 32)) ∧
    Gives (.movsw h d code) s c (fun l => wr64 l d (c.special code.toNat l)))) ∧
  (∀ (s : State) (c : Ctx) (h : Hdr) (d a r : RegCode) (b : Src) (sh : BitVec 3),
  let B2 (l : Nat) : DWord := match b with | .reg q => c.r2 l q | .imm v => v.signExtend 64
  Gives (.iadd64 h d a b) s c (fun l => wr64 l d (BitVec.ofNat 64 ((c.r2 l a).toNat + (B2 l).toNat))) ∧
  Gives (.isub64 h d a b) s c (fun l => wr64 l d (BitVec.ofInt 64 ((c.r2 l a).toNat - (B2 l).toNat))) ∧
  Gives (.lea h false d a r sh) s c (fun l => wr64 l d (BitVec.ofNat 64 ((c.r2 l a).toNat + (c.r1 l r).toNat * 2 ^ sh.toNat))) ∧
  Gives (.lea h true d a r sh) s c (fun l => wr64 l d (BitVec.ofInt 64 ((c.r2 l a).toNat + (c.r1 l r).toInt * 2 ^ sh.toNat))))

/-- 03 R59, R60, R61, R63, R78: the results of the additions, multiplications, minima, maxima, absolute values and dot
products, each computed exactly on integers and narrowed at the end. -/
def Obligations.IntegerArithmeticResults : Prop := ∀ (s : State) (c : Ctx) (h : Hdr) (d a r : RegCode) (b : Src) (pout : BitVec 3),
  let A (l : Nat) : Word := c.r1 l a
  let B (l : Nat) : Word := match b with | .reg r => c.r1 l r | .imm v => v
  Gives (.iadd h .wrap d a b) s c (fun l => wr1 l d (BitVec.ofNat 32 ((A l).toNat + (B l).toNat))) ∧
  Gives (.iadd h .sat d a b) s c (fun l => wr1 l d (BitVec.ofInt 32 (clampI ((A l).toInt + (B l).toInt) (-2 ^ 31) (2 ^ 31 - 1)))) ∧
  Gives (.iadd h .usat d a b) s c (fun l => wr1 l d (BitVec.ofInt 32 (clampI ((A l).toNat + (B l).toNat) 0 (2 ^ 32 - 1)))) ∧
  Gives (.isub h .wrap d a b) s c (fun l => wr1 l d (BitVec.ofInt 32 ((A l).toNat - (B l).toNat))) ∧
  Gives (.isub h .sat d a b) s c (fun l => wr1 l d (BitVec.ofInt 32 (clampI ((A l).toInt - (B l).toInt) (-2 ^ 31) (2 ^ 31 - 1)))) ∧
  Gives (.isub h .usat d a b) s c (fun l => wr1 l d (BitVec.ofInt 32 (clampI ((A l).toNat - (B l).toNat) 0 (2 ^ 32 - 1)))) ∧
  (∀ m : CarryMode,
    let bb (l : Nat) : Nat := match m with | .add | .addc _ => (c.r1 l r).toNat | .sub | .subc _ => 2 ^ 32 - 1 - (c.r1 l r).toNat
    let cin (l : Nat) : Nat := match m with | .add => 0 | .sub => 1 | .addc q | .subc q => (c.rp l q).toNat
    Gives (.iaddx h m d a r pout) s c (fun l =>
      wr1 l d (BitVec.ofNat 32 ((A l).toNat + bb l + cin l)) ++
      wrP l (pout.setWidth 8) (decide (2 ^ 32 ≤ (A l).toNat + bb l + cin l)))) ∧
  Gives (.imul h d a b) s c (fun l => wr1 l d (BitVec.ofNat 32 ((A l).toNat * (B l).toNat))) ∧
  Gives (.imulh h .s d a b) s c (fun l => wr1 l d (BitVec.ofInt 32 ((A l).toInt * (B l).toInt / 2 ^ 32))) ∧
  Gives (.imulh h .u d a b) s c (fun l => wr1 l d (BitVec.ofNat 32 ((A l).toNat * (B l).toNat / 2 ^ 32))) ∧
  Gives (.imulh h .su d a b) s c (fun l => wr1 l d (BitVec.ofInt 32 ((A l).toInt * (B l).toNat / 2 ^ 32))) ∧
  Gives (.imad h d a b r) s c (fun l => wr1 l d (BitVec.ofNat 32 ((A l).toNat * (B l).toNat + (c.r1 l r).toNat))) ∧
  Gives (.imadw h true d a b r) s c (fun l => wr64 l d (BitVec.ofInt 64 ((A l).toInt * (B l).toInt + (c.r2 l r).toNat))) ∧
  Gives (.imadw h false d a b r) s c (fun l => wr64 l d (BitVec.ofNat 64 ((A l).toNat * (B l).toNat + (c.r2 l r).toNat))) ∧
  Gives (.imin h true d a b) s c (fun l => wr1 l d (if (A l).toInt ≤ (B l).toInt then A l else B l)) ∧
  Gives (.imin h false d a b) s c (fun l => wr1 l d (if (A l).toNat ≤ (B l).toNat then A l else B l)) ∧
  Gives (.imax h true d a b) s c (fun l => wr1 l d (if (B l).toInt ≤ (A l).toInt then A l else B l)) ∧
  Gives (.imax h false d a b) s c (fun l => wr1 l d (if (B l).toNat ≤ (A l).toNat then A l else B l)) ∧
  Gives (.iabs h false d a) s c (fun l => wr1 l d (BitVec.ofNat 32 (A l).toInt.natAbs)) ∧
  Gives (.iabs h true d a) s c (fun l => wr1 l d (BitVec.ofInt 32 (clampI (A l).toInt.natAbs 0 (2 ^ 31 - 1)))) ∧
  (∀ asg bsg sat : Bool,
    let part (w : Nat) (sg : Bool) (x : Word) (i : Nat) : Int :=
      let v : Nat := x.toNat / 2 ^ (w * i) % 2 ^ w
      if sg = true ∧ 2 ^ (w - 1) ≤ v then (v : Int) - 2 ^ w else v
    let narrow (x : Int) : Word := BitVec.ofInt 32 (if sat then clampI x (-2 ^ 31) (2 ^ 31 - 1) else x)
    Gives (.idp4 h asg bsg sat d a b r) s c (fun l => wr1 l d (narrow ((c.r1 l r).toInt +
      part 8 asg (A l) 0 * part 8 bsg (B l) 0 + part 8 asg (A l) 1 * part 8 bsg (B l) 1 +
      part 8 asg (A l) 2 * part 8 bsg (B l) 2 + part 8 asg (A l) 3 * part 8 bsg (B l) 3))) ∧
    Gives (.idp2 h asg bsg sat d a b r) s c (fun l => wr1 l d (narrow ((c.r1 l r).toInt +
      part 16 asg (A l) 0 * part 16 bsg (B l) 0 + part 16 asg (A l) 1 * part 16 bsg (B l) 1))))

/-- 03 R64: AND, OR, XOR and ANDN, bit by bit, with IMM for B in FORM 01. -/
def Obligations.LogicResults : Prop := ∀ (s : State) (c : Ctx) (h : Hdr) (d a : RegCode) (b : Src),
  let B (l : Nat) : Word := match b with | .reg r => c.r1 l r | .imm v => v
  Gives (.and h d a b) s c (fun l => wr1 l d (c.r1 l a &&& B l)) ∧
  Gives (.or h d a b) s c (fun l => wr1 l d (c.r1 l a ||| B l)) ∧
  Gives (.xor h d a b) s c (fun l => wr1 l d (c.r1 l a ^^^ B l)) ∧
  Gives (.andn h d a b) s c (fun l => wr1 l d (c.r1 l a &&& ~~~(B l)))

/-- 03 R66, R67, R68: the shifts and rotations, with the amounts at or above the width. -/
def Obligations.ShiftResults : Prop := ∀ (s : State) (c : Ctx) (h : Hdr) (d a r : RegCode) (b : Src) (n : Sel 5),
  let A (l : Nat) : Word := c.r1 l a
  let B (l : Nat) : Nat := match b with | .reg q => (c.r1 l q).toNat | .imm v => v.toNat
  let V (l : Nat) : Nat := (c.r1 l r).toNat * 2 ^ 32 + (A l).toNat
  let N (l : Nat) : Nat := match n with | .reg q => (c.r1 l q).toNat % 32 | .imm v => v.toNat
  Gives (.shl h d a b) s c (fun l => wr1 l d (if 32 ≤ B l then 0 else BitVec.ofNat 32 ((A l).toNat * 2 ^ B l))) ∧
  Gives (.shr h d a b) s c (fun l => wr1 l d (if 32 ≤ B l then 0 else BitVec.ofNat 32 ((A l).toNat / 2 ^ B l))) ∧
  Gives (.sar h d a b) s c (fun l => wr1 l d (if 32 ≤ B l then (if (A l).msb then 0xFFFFFFFF else 0) else
    BitVec.ofInt 32 ((A l).toInt / 2 ^ B l))) ∧
  Gives (.rol h d a b) s c (fun l => wr1 l d ((A l).rotateLeft (B l % 32))) ∧
  Gives (.fshf h false d a r n) s c (fun l => wr1 l d (BitVec.ofNat 32 (V l * 2 ^ N l / 2 ^ 32))) ∧
  Gives (.fshf h true d a r n) s c (fun l => wr1 l d (BitVec.ofNat 32 (V l / 2 ^ N l))) ∧
  Gives (.shl64 h d a b) s c (fun l => wr64 l d (if 64 ≤ B l then 0 else BitVec.ofNat 64 ((c.r2 l a).toNat * 2 ^ B l))) ∧
  Gives (.shr64 h false d a b) s c (fun l => wr64 l d (if 64 ≤ B l then 0 else BitVec.ofNat 64 ((c.r2 l a).toNat / 2 ^ B l))) ∧
  Gives (.shr64 h true d a b) s c (fun l => wr64 l d (if 64 ≤ B l then (if (c.r2 l a).msb then -1 else 0) else
    BitVec.ofInt 64 ((c.r2 l a).toInt / 2 ^ B l)))

/-- 03 R65, R69, R70, R71: what LOP3, POPC, CLZ, BREV, BFX, BFI and PRMT write. The second part says the values bit by bit. -/
def Obligations.BitFieldResults : Prop :=
  (∀ (s : State) (c : Ctx) (h : Hdr) (d a b r : RegCode) (lut : BitVec 8) (sg : Bool) (f : Sel 16) (g : Sel 20),
    let F (l : Nat) : Nat := match f with | .reg q => (c.r1 l q).toNat % 65536 | .imm v => v.toNat
    let G (l : Nat) : Nat := match g with | .reg q => (c.r1 l q).toNat % 1048576 | .imm v => v.toNat
    Gives (.lop3 h d a b r lut) s c (fun l => wr1 l d (lop3Val lut (c.r1 l a) (c.r1 l b) (c.r1 l r))) ∧
    Gives (.popc h d a) s c (fun l => wr1 l d (popcVal (c.r1 l a))) ∧
    Gives (.clz h d a) s c (fun l => wr1 l d (clzVal (c.r1 l a))) ∧
    Gives (.brev h d a) s c (fun l => wr1 l d (brevVal (c.r1 l a))) ∧
    Gives (.bfx h sg d a f) s c (fun l => wr1 l d (bfxVal sg (c.r1 l a) (F l))) ∧
    Gives (.bfi h d a b f) s c (fun l => wr1 l d (bfiVal (c.r1 l a) (c.r1 l b) (F l))) ∧
    Gives (.prmt h d a b g) s c (fun l => wr1 l d (prmtVal (c.r1 l a) (c.r1 l b) (G l)))) ∧
  (∀ (lut : BitVec 8) (a b r : Word) (j : Nat), j < 32 →
    (lop3Val lut a b r).getLsbD j = lut.getLsbD ((a.getLsbD j).toNat + 2 * (b.getLsbD j).toNat + 4 * (r.getLsbD j).toNat) ∧
    (brevVal a).getLsbD (31 - j) = a.getLsbD j) ∧
  (∀ a : Word, (popcVal a).toNat = ((List.range 32).filter (fun j => a.getLsbD j)).length ∧
    (clzVal a).toNat ≤ 32 ∧ (∀ j, 32 - (clzVal a).toNat ≤ j → a.getLsbD j = false) ∧
    ((clzVal a).toNat < 32 → a.getLsbD (31 - (clzVal a).toNat) = true)) ∧
  (∀ (a b : Word) (pos len j : Nat), pos < 256 → len < 256 → j < 32 →
    let e := if pos < 32 then min len (32 - pos) else 0
    (bfiVal a b (pos + 256 * len)).getLsbD j = (if pos ≤ j ∧ j < pos + e then a.getLsbD (j - pos) else b.getLsbD j) ∧
    (bfxVal false a (pos + 256 * len)).getLsbD j = (decide (j < e) && a.getLsbD (pos + j)) ∧
    (bfxVal true a (pos + 256 * len)).getLsbD j = (if j < e then a.getLsbD (pos + j) else decide (0 < e) && a.getLsbD (pos + e - 1)))

/-- 03 R72, R73, R74, R75: comparisons (Table 3-3), selection, and the operations on predicates. -/
def Obligations.PredicateResults : Prop := ∀ (s : State) (c : Ctx) (h : Hdr) (d a p q : RegCode) (b : Src) (m : Cmp) (lut : BitVec 8)
    (mask : BitVec 7),
  let holds (sl el ul : Bool) : Bool := match m with
    | .ltS => sl && !el | .eq | .eqU => el | .leS => sl | .gtS => !sl | .ne | .neU => !el | .geS => !sl || el
    | .ltU => ul && !el | .leU => ul | .gtU => !ul | .geU => !ul || el
  let B (l : Nat) : Word := match b with | .reg r => c.r1 l r | .imm v => v
  let B2 (l : Nat) : DWord := match b with | .reg r => c.r2 l r | .imm v => v.signExtend 64
  let t1 (l : Nat) : Bool := holds (decide ((c.r1 l a).toInt ≤ (B l).toInt)) (decide (c.r1 l a = B l)) (decide ((c.r1 l a).toNat ≤ (B l).toNat))
  let t2 (l : Nat) : Bool := holds (decide ((c.r2 l a).toInt ≤ (B2 l).toInt)) (decide (c.r2 l a = B2 l)) (decide ((c.r2 l a).toNat ≤ (B2 l).toNat))
  Gives (.isetp h m d a b) s c (fun l => wrP l d (t1 l)) ∧
  Gives (.icmps h m d a b) s c (fun l => wr1 l d (if t1 l then 0xFFFFFFFF else 0)) ∧
  Gives (.isetp64 h m d a b) s c (fun l => wrP l d (t2 l)) ∧
  Gives (.sel h false d a b p) s c (fun l => wr1 l d (if c.rp l p then c.r1 l a else B l)) ∧
  Gives (.sel h true d a b p) s c (fun l => wr64 l d (if c.rp l p then c.r2 l a else B2 l)) ∧
  Gives (.plop h d a p q lut) s c (fun l => wrP l d (lut.getLsbD ((c.rp l a).toNat + 2 * (c.rp l p).toNat + 4 * (c.rp l q).toNat))) ∧
  Gives (.p2g h d) s c (fun l => wr1 l d (BitVec.ofNat 32 (2 ^ 7 + (c.rp l 0).toNat + (c.rp l 1).toNat * 2 + (c.rp l 2).toNat * 4 +
    (c.rp l 3).toNat * 8 + (c.rp l 4).toNat * 16 + (c.rp l 5).toNat * 32 + (c.rp l 6).toNat * 64))) ∧
  Gives (.g2p h a mask) s c (fun l => ((List.range 7).filter (fun k => mask.getLsbD k)).flatMap (fun k =>
    wrP l (BitVec.ofNat 8 k) ((c.r1 l a).getLsbD k)))

/-- 03 R55, R62: IDIV and IREM write nothing when they issue; their quotient, truncated towards zero, or remainder is outstanding under a
token of its own, in the order of issue, with the scoreboard of WSB; with no active lane nothing is outstanding. The last part is the end of a division: its scoreboard is given
back and no write of it is outstanding. When the end comes is the move of an agent (log entry 1). -/
def Obligations.DivisionIssuesAndCompletes : Prop :=
  (∀ (s : State) (c : Ctx) (h : Hdr) (sg : Bool) (d a : RegCode) (b : Src), c.act = 0 →
    let e : Eff := { s := (s.setGroup c.gk c.g).newTok, mode := .pend s.nextTok true }
    Does (.idiv h sg d a b) s c e ∧ Does (.irem h sg d a b) s c e) ∧
  (∀ (s : State) (c : Ctx) (h : Hdr) (sg : Bool) (d a : RegCode) (b : Src), c.act ≠ 0 →
    let B (l : Nat) : Word := match b with | .reg r => c.r1 l r | .imm v => v
    let q (x y : Word) : Word := if y = 0 then 0xFFFFFFFF else
      if sg then BitVec.ofInt 32 (x.toInt.tdiv y.toInt) else BitVec.ofNat 32 (x.toNat / y.toNat)
    let r (x y : Word) : Word := if y = 0 then x else
      if sg then BitVec.ofInt 32 (x.toInt.tmod y.toInt) else BitVec.ofNat 32 (x.toNat % y.toNat)
    let e (v : Nat → Word) : Eff := {
      s := { s.setGroup c.gk { c.g with divs := c.g.divs ++ [s.nextTok] } with nextTok := s.nextTok + 1 }
      wr := c.lanes.flatMap (fun l => wr1 l d (v l))
      mode := .pend s.nextTok true
      out := some (s.nextTok, c.act) }
    Does (.idiv h sg d a b) s c (e (fun l => q (c.r1 l a) (B l))) ∧
    Does (.irem h sg d a b) s c (e (fun l => r (c.r1 l a) (B l)))) ∧
  (∀ (s : State) (gk i tok : Nat), (s.group gk).divs[i]? = some tok → ∃ t, exec (.divisionComplete gk i) s = .next t ∧
    tok ∉ (t.group gk).divs ∧
    (∀ o ∈ (t.group gk).outs, o.tok ≠ tok) ∧
    (∀ k, tget 0 (t.group gk).sb k = match (s.group gk).outs.find? (fun o => o.tok = tok) with
      | some o => if o.wsb = k + 1 then tget 0 (s.group gk).sb k - 1 else tget 0 (s.group gk).sb k
      | none => tget 0 (s.group gk).sb k) ∧
    (∀ x ∈ (t.group gk).lanes.take 32, ∀ f ∈ x.flights, f.tok = tok → f.due ≠ none) ∧
    (∀ l r, l < 32 → r < 224 → flightLast ((t.group gk).lane l).flights r (tget 0 ((t.group gk).lane l).g r) =
      flightLast ((s.group gk).lane l).flights r (tget 0 ((s.group gk).lane l).g r)) ∧
    ∀ k, k ≠ gk → t.group k = s.group k)

/-- 03 R62: A = quotient × B + remainder modulo 2^32 for every pair of operands, and the remainder of a division by B ≠ 0 is
smaller than B in magnitude and takes the sign of the dividend. -/
def Obligations.DivisionIdentity : Prop := ∀ (sg : Bool) (a b : Word),
  idivVal sg a b * b + iremVal sg a b = a ∧
  (b ≠ 0 → sg = false → (iremVal sg a b).toNat < b.toNat) ∧
  (b ≠ 0 → sg = true → (iremVal sg a b).toInt.natAbs < b.toInt.natAbs ∧
    (0 < (iremVal sg a b).toInt → 0 < a.toInt) ∧ ((iremVal sg a b).toInt < 0 → a.toInt < 0))

/-! ### Floating point and conversions (04, 05) -/

/-- 05 R100 to R105: each arithmetic result is the exact result on the exact values of the operands, rounded once; comparisons,
classes, minima and maxima, and the correctly rounded functions of R104. -/
def Obligations.FloatResults : Prop := ∀ (s : State) (c : Ctx) (h : Hdr) (d a r : RegCode) (b : Src) (rm : Rm) (x y : Bool)
    (m : FCmp) (k : FKind),
  let A (l : Nat) : Word := c.r1 l a
  let B (l : Nat) : Word := match b with | .reg q => c.r1 l q | .imm v => v
  let val (w : Word) : Xv := fp32.value w.toNat
  let flip (n : Bool) (v : Xv) : Xv := if n then v.neg else v
  let round (v : Xv) : Word := BitVec.ofNat 32 (roundTo fp32 false (rmMode rm) v)
  let isRd := decide (rm = .rd)
  Gives (.fadd h rm x d a b) s c (fun l => wr1 l d (round ((val (A l)).add isRd (flip x (val (B l)))))) ∧
  Gives (.fmul h rm d a b) s c (fun l => wr1 l d (round ((val (A l)).mul (val (B l))))) ∧
  Gives (.ffma h rm x y d a b r) s c (fun l =>
    wr1 l d (round ((flip x ((val (A l)).mul (val (B l)))).add isRd (flip y (val (c.r1 l r)))))) ∧
  Gives (.fmin h d a b) s c (fun l => wr1 l d (fminmaxVal false (A l) (B l))) ∧
  Gives (.fmax h d a b) s c (fun l => wr1 l d (fminmaxVal true (A l) (B l))) ∧
  Gives (.fsetp h m d a b) s c (fun l => wrP l d (fcmpHolds m (A l) (B l))) ∧
  Gives (.fclass h k d a) s c (fun l => wr1 l d (fclassVal k (A l))) ∧
  Gives (.fdiv h d a b) s c (fun l => wr1 l d (BitVec.ofNat 32 (roundTo fp32 false .rn ((val (A l)).div (val (B l)))))) ∧
  Gives (.frcp h d a) s c (fun l => wr1 l d (BitVec.ofNat 32 (roundTo fp32 false .rn ((Xv.fin false 1 1).div (val (A l)))))) ∧
  Gives (.fsqrt h d a) s c (fun l => wr1 l d (fsqrtVal (A l))) ∧
  Gives (.frsq h d a) s c (fun l => wr1 l d (frsqVal (A l))) ∧
  Gives (.fex2 h d a) s c (fun l => wr1 l d (fex2Val (A l))) ∧
  Gives (.flg2 h d a) s c (fun l => wr1 l d (flg2Val (A l))) ∧
  Gives (.fsinpi h d a) s c (fun l => wr1 l d (fsinpiVal (A l))) ∧
  Gives (.fcospi h d a) s c (fun l => wr1 l d (fcospiVal (A l))) ∧
  Gives (.ftanh h d a) s c (fun l => wr1 l d (ftanhVal (A l)))

/-- 05 R106 to R112: the packed operations on two elements each, the conversions, FRND, FSCALE and FGETEXP. 05 R113 to R115: CVTPK and CVTUNPK complete on the runs of registers that the format of their slot gives, element by element. -/
def Obligations.PackedAndConversionResults : Prop :=
  (∀ (s : State) (c : Ctx) (h : Hdr) (d a r : RegCode) (b : Src) (rm : Rm)
    (cv : Cv) (x y : Bool) (k j : FKind) (n : IKind),
  let A (l : Nat) : Word := c.r1 l a
  let B (l : Nat) : Word := match b with | .reg q => c.r1 l q | .imm v => v
  let fm : Fmt := if x then bf16 else fp16
  let el (w : Word) (i : Nat) : Xv := fm.value (w.toNat / 2 ^ (16 * i) % 2 ^ 16)
  let pair (f : Nat → Xv) : Word :=
    BitVec.ofNat 32 (roundTo fm false (rmMode rm) (f 0) + 2 ^ 16 * roundTo fm false (rmMode rm) (f 1))
  let isRd := decide (rm = .rd)
  Gives (.hadd2 h x rm y d a b) s c (fun l => wr1 l d (pair (fun i =>
    (el (A l) i).add isRd (if y then (el (B l) i).neg else el (B l) i)))) ∧
  Gives (.hmul2 h x rm d a b) s c (fun l => wr1 l d (pair (fun i => (el (A l) i).mul (el (B l) i)))) ∧
  Gives (.hfma2 h x rm d a b r) s c (fun l => wr1 l d (pair (fun i => ((el (A l) i).mul (el (B l) i)).add isRd (el (c.r1 l r) i)))) ∧
  Gives (.hmnmx2 h x y d a b) s c (fun l => wr1 l d (hmnmx2Val x y (A l) (B l))) ∧
  Gives (.cvtff h cv x k j d a) s c (fun l => wr1 l d (cvtffVal (cvMode cv) x k j (A l))) ∧
  Gives (.cvtfi h cv n x d a) s c (fun l =>
    if n = .s64 ∨ n = .u64 then wr64 l d (BitVec.ofNat 64 (cvtfiVal (cvMode cv) n x (A l)))
    else wr1 l d (BitVec.ofNat 32 (cvtfiVal (cvMode cv) n x (A l)))) ∧
  Gives (.cvtif h cv n d a) s c (fun l => wr1 l d (cvtifVal (cvMode cv) (match n with
    | .s32 => (A l).toInt | .u32 => (A l).toNat | .s64 => (c.r2 l a).toInt | .u64 => (c.r2 l a).toNat))) ∧
  Gives (.frnd h rm d a) s c (fun l => wr1 l d (frndVal (rmMode rm) (A l))) ∧
  Gives (.fscale h rm d a b) s c (fun l => wr1 l d (fscaleVal (rmMode rm) (A l) (B l))) ∧
  Gives (.fgetexp h d a) s c (fun l => wr1 l d (fgetexpVal (A l)))) ∧
  (∀ (s : State) (c : Ctx) (h : Hdr) (cd : CvD) (cv : Cv) (sat : Bool) (d a b : RegCode)
    (slot : BitVec 3) (e : EFmt) (n w : Nat) (f : Info) (ops : List Opnd),
  let sl : DWord := c.t.lrec.slot slot.toNat
  pkShape sl = some (e, n, w) →
  ((Instr.cvtpk h cd sat d a b slot).info = some f → pkRuns c.t.lrec true d a b slot = some ops → Issues s f ops [] c →
    exec (.cvtpk h cd sat d a b slot) s = .next (Ctx.wrote c { f with opnds := ops } (fun l =>
      (packWords e.width w (cvtpkCodes sl e cd sat (c.r1 l b)
        ((List.range n).map (fun i => c.r1 l (a + BitVec.ofNat 8 i))))).zipIdx.flatMap (fun (v, i) => wr1 l (d + BitVec.ofNat 8 i) v)))) ∧
  ((Instr.cvtunpk h cv sat d a b slot).info = some f → pkRuns c.t.lrec false d a b slot = some ops → Issues s f ops [] c →
    exec (.cvtunpk h cv sat d a b slot) s = .next (Ctx.wrote c { f with opnds := ops } (fun l =>
      (List.range n).flatMap (fun i => wr1 l (d + BitVec.ofNat 8 i) (cvtunpkVal sl e cv sat (c.r1 l b)
        (element (ofLE ((List.range w).flatMap (fun j => leBytes (c.r1 l (a + BitVec.ofNat 8 j)).toNat 4))) e.width i)))))))

/-- 05 R96: a NaN operand of an arithmetic instruction gives the canonical NaN 0x7FC0_0000 of binary32. -/
def Obligations.NanOperandsGiveCanonicalNan : Prop := ∀ (m : Mode) (x y : Bool) (a b c : Word),
  let nan (w : Word) : Prop := (f32v w).isNan = true
  (nan a ∨ nan b → faddVal m x a b = 0x7FC00000 ∧ fmulVal m a b = 0x7FC00000 ∧ fdivVal a b = 0x7FC00000) ∧
  (nan a ∨ nan b ∨ nan c → ffmaVal m x y a b c = 0x7FC00000) ∧
  (nan a → fsqrtVal a = 0x7FC00000 ∧ frcpVal a = 0x7FC00000 ∧ frsqVal a = 0x7FC00000 ∧ fex2Val a = 0x7FC00000 ∧
    flg2Val a = 0x7FC00000 ∧ fsinpiVal a = 0x7FC00000 ∧ fcospiVal a = 0x7FC00000 ∧ ftanhVal a = 0x7FC00000 ∧
    frndVal m a = 0x7FC00000 ∧ fscaleVal m a b = 0x7FC00000)

/-- 05 R101, FMIN and FMAX: one NaN gives the other operand, two give 0x7FC0_0000, and otherwise the result is the smaller or
larger operand, bit for bit, with −0 below +0. `key` orders the codes of the numbers as their values, −0 below +0. -/
def Obligations.MinimumMaximumOrder : Prop := ∀ a b : Word,
  let nan (w : Word) : Prop := 0x7F800000 < w.toNat % 2 ^ 31
  let key (w : Word) : Int := if w.toNat < 2 ^ 31 then (w.toNat : Int) else 2 ^ 31 - 1 - (w.toNat : Int)
  (nan a → nan b → fminmaxVal false a b = 0x7FC00000 ∧ fminmaxVal true a b = 0x7FC00000) ∧
  (nan a → ¬ nan b → fminmaxVal false a b = b ∧ fminmaxVal true a b = b) ∧
  (¬ nan a → nan b → fminmaxVal false a b = a ∧ fminmaxVal true a b = a) ∧
  (¬ nan a → ¬ nan b → fminmaxVal false a b = (if key a < key b then a else b) ∧
    fminmaxVal true a b = (if key a < key b then b else a))

/-- 02 R45, 04 R89: RoundTo leaves every value that binary32 represents as it is, in every mode: the code comes back, infinities,
zeros with their sign and subnormals included. -/
def Obligations.RoundingKeepsRepresentable : Prop := ∀ (sat : Bool) (m : Mode) (a : Word),
  (f32v a).isNan = false → BitVec.ofNat 32 (roundTo fp32 sat m (f32v a)) = a

/-! ### Issue, registers and traps (01, 02, 08, 19) -/

/-- 02 R36: after an instruction of fixed latency L, an issue point of a writing lane at declared distance L or more reads the last
value that the instruction wrote to a G register or a predicate; a nearer one reads what it would have read without the
instruction; every other G register and predicate reads as it would have. -/
def Obligations.RegisterWritesBecomeVisible : Prop := ∀ (i : Instr) (s t : State) (f : Info) (c : Ctx) (w : Nat → List Wr) (l n : Nat)
    (r p : RegCode), Ready i s f c → Gives i s c w → exec i s = .next t → l < c.g.lanes.length → l < 32 →
  (∀ k, ∀ e ∈ w k, e.lane = k) → r.toNat < 224 → p.toNat % 8 ≠ 7 →
  let before : Lane := c.g.lane l
  let after : Group := t.group c.gk
  let mine (dest : Nat) : Option Wr := if c.act.getLsbD l then ((w l).filter (fun e => e.dest = dest)).getLast? else none
  (after.lane l).dt ≤ n →
  (∀ clk, after.readAt clk l n r = (match mine r.toNat with
    | some e => if before.dt + f.lat ≤ n then e.val else c.g.readAt clk l n r
    | none => c.g.readAt clk l n r)) ∧
  after.readPAt l n p = (match mine (256 + p.toNat % 8) with
    | some e => if before.dt + f.lat ≤ n then decide (e.val = 1) else c.g.readPAt l n p
    | none => c.g.readPAt l n p)

/-- 08 R145: of several active lanes that write one S register, the highest-numbered one's value stands; a writing lane reads it from
declared distance L on, every other live lane from L cycles on, and until then both read the old value. -/
def Obligations.SharedRegisterWrites : Prop := ∀ (i : Instr) (s t : State) (f : Info) (c : Ctx) (v : Nat → Word) (d r : RegCode)
    (l n clk : Nat), Ready i s f c → Gives i s c (fun k => wr1 k d (v k)) → exec i s = .next t → l < c.g.lanes.length →
  c.g.live.getLsbD l = true → 224 ≤ r.toNat → 224 ≤ d.toNat → d.toNat < 255 → s.cycle c.core ≤ clk →
  ((t.group c.gk).lane l).dt ≤ n →
  (t.group c.gk).readAt clk l n r = (match c.lanes.getLast? with
    | some top =>
      if r = d ∧ (if c.act.getLsbD l then (c.g.lane l).dt + f.lat ≤ n else s.cycle c.core + f.lat ≤ clk) then v top
      else c.g.readAt clk l n r
    | none => c.g.readAt clk l n r)

/-- 01 R9, R12: ZERO reads 0 and P7 reads 1 in every lane, and an instruction that names them as its destination writes nothing. -/
def Obligations.HardwiredRegisters : Prop := ∀ (g : Group) (clk l n : Nat) (v : Word) (v2 : DWord) (m : Option DWord) (b : Bool) (p : RegCode),
  g.rd clk l 255 = 0 ∧ g.rd2 clk l 255 = 0 ∧ g.rd4 clk l 255 = 0 ∧ g.readAt clk l n 255 = 0 ∧ wr1 l 255 v m = [] ∧ wr64 l 255 v2 m = [] ∧
  (p.toNat % 8 = 7 → g.rdP l p = true ∧ wrP l p b = [])

/-- Frame of every instruction of fixed latency that makes register writes alone (03, 04, 05): memory, host memory, the chip
scratchpad, every team, plane, die, function and partition and the clock stay, and so do every other group and core, the K
registers and scoreboards, and every lane's trap registers. RegisterWritesBecomeVisible and SharedRegisterWrites say which
registers change, IssueAdvances how the program counter does. -/
def Obligations.FixedLatencyFrame : Prop := ∀ (i : Instr) (s t : State) (f : Info) (c : Ctx) (w : Nat → List Wr),
  Ready i s f c → Gives i s c w → exec i s = .next t →
  { t with groups := s.groups, cores := s.cores, cur := s.cur } = s ∧
  (∀ a, tget 0 t.mem a = tget 0 s.mem a) ∧
  (∀ k, k ≠ c.gk → t.group k = s.group k) ∧
  (∀ k, { t.core k with yld := [] } = { s.core k with yld := [] }) ∧
  (let g := t.group c.gk
   g.k = c.g.k ∧ g.sb = c.g.sb ∧ g.outs = c.g.outs ∧ g.divs = c.g.divs ∧ g.live = c.g.live ∧ g.halted = c.g.halted ∧
   g.members = c.g.members ∧ g.ra = none ∧ g.lanes.length = c.g.lanes.length ∧
   ∀ l, (g.lane l).xpc = (c.g.lane l).xpc ∧ (g.lane l).xnpc = (c.g.lane l).xnpc ∧ (g.lane l).xaddr = (c.g.lane l).xaddr ∧
     (g.lane l).xcause = (c.g.lane l).xcause ∧ (g.lane l).xstate = (c.g.lane l).xstate ∧ (g.lane l).xsave = (c.g.lane l).xsave)

/-- 01 R15, 02 R35: each lane of the cohort, whatever its guard, goes to the next slot, or from slot 4 to slot 0 of the next line; its
declared time grows by 1 + STALL, or with the upper slot in a pair; lanes outside the cohort that wait for nothing stay; a pair
whose cohort is live and parked in nothing goes on with its upper slot at once (02 R34); and the group issues again no earlier than
1 + STALL cycles on. -/
def Obligations.IssueAdvances : Prop := ∀ (i : Instr) (s t : State) (f : Info) (c : Ctx) (w : Nat → List Wr) (l : Nat),
  Ready i s f c → Gives i s c w → exec i s = .next t → (∀ k, ∀ e ∈ w k, e.lane = k) →
  l < c.g.lanes.length → (c.g.lane l).wait = .none →
  let x := c.g.lane l
  let y := (t.group c.gk).lane l
  y.wait = .none ∧
  (c.cohort.getLsbD l = false → y.pc = x.pc ∧ y.dt = x.dt ∧ y.flights = x.flights ∧ y.g = x.g ∧ y.p = x.p) ∧
  (c.cohort.getLsbD l = true → l < 32 →
    (x.pc.toNat % 8 < 4 → y.pc.toNat = x.pc.toNat + 1) ∧
    (x.pc.toNat % 8 = 4 → x.pc.toNat + 60 < 2 ^ 64 → x.pc.toNat % 64 = 4 → y.pc.toNat = x.pc.toNat + 60) ∧
    y.dt = (if c.pos = .lower then x.dt else x.dt + 1 + f.h.stall.toNat)) ∧
  (c.pos = .lower → c.cohort ≠ 0 → (∀ k ∈ lanesOf c.cohort, c.g.live.getLsbD k = true ∧ (c.g.lane k).wait = .none) →
    t.cur = some ⟨c.gk, c.cohort, .upper⟩) ∧
  (c.pos ≠ .lower → t.cur = none ∧ (t.group c.gk).nextIssue = s.cycle c.core + 1 + f.h.stall.toNat)

/-- 01 R10, R24, 02 R35 to R37, 19: what holds for every instruction word before its own meaning. A cohort whose scoreboards or issue
delay do not allow the instruction issues nothing; nor does a memory instruction or command behind a PFENCE of its group (25 R429)
or behind an acquire of its lanes whose action is to come from a peer (14 R242). A G register at or above the register count, and a system instruction in user
mode, raise ILLEGAL (cause 1) in every lane of the cohort. Otherwise a lane with CHK = 1 that would read a register whose last
write is not visible raises STALL (3), and an active lane that would read a marked register raises ECC (0x0E), unless an ILLEGAL
of the instruction's own comes first. SHFL, REDUX, MATCH and RDLANE wait for the sources that they exchange (09 R154), and PREF
raises no ECC (06 R130). -/
def Obligations.CommonChecks : Prop := ∀ (i : Instr) (s : State) (f : Info) (c : Ctx), i.info = some f → Chosen s f c →
  let exchanges : Bool := match i with | .shfl .. | .redux .. | .matchLanes .. | .rdlane .. => true | _ => false
  (c.g.ready (s.cycle c.core) f.h c.pos = false → exec i s = .next { s with cur := none }) ∧
  (c.g.ready (s.cycle c.core) f.h c.pos = true → c.behind f = true → exec i s = .next { s with cur := none }) ∧
  (c.g.ready (s.cycle c.core) f.h c.pos = true → c.behind f = false →
    ((f.opnds.any (fun o => !opInCount c.t.lrec.regs o) = true ∨ (f.cls = .sys ∧ c.sup = false)) →
      exec i s = .next (c.raise c.cohort 1 0)) ∧
    (!exchanges → (∃ l ∈ lanesOf c.cohort, (c.g.lane l).chk = true ∧ ∃ r ∈ readCodes f.h f.opnds, c.g.stale f.h l r = true) →
      exec i s = .next (c.raise c.cohort 1 0) ∨ exec i s = .next (c.raise c.cohort 3 0)) ∧
    (!exchanges → (match i with | .pref .. => False | _ => True) → (∀ l ∈ lanesOf c.cohort, (c.g.lane l).chk = false) →
      (∃ l ∈ c.lanes, ∃ r ∈ readCodes f.h f.opnds, (c.g.markOf (s.cycle c.core) l r).isSome = true) →
      exec i s = .next (c.raise c.cohort 1 0) ∨
      ∃ l ∈ c.lanes, ∃ r a, c.g.markOf (s.cycle c.core) l r = some a ∧ exec i s = .next (c.raise c.cohort 0x0E a)))

/-- 01 R25, 02 R39: a trap of user-mode lanes with a handler installed. Each lane enters XVEC in supervisor mode with its own PC,
the cause and the address saved; every register write has landed, every scoreboard is 0, and nothing else of the machine changes.
While a register write of the lanes is outstanding the trap waits. 19 R335, 01 R26: a trap inside the handler goes to XVEC + 0x40 and leaves XPC, PSUP and SUP; with NEST = 1 already, or with no
handler installed, firmware ends the team: every group of it ends, and the handler is not entered. -/
def Obligations.TrapEntry : Prop :=
  (∀ (c : Ctx) (m : BitVec 32) (cause : Nat) (addr : DWord), c.g = c.s.group c.gk → c.g.ra = none →
  c.s.team? (c.gk / 32) = some c.t → c.g.unsettled m = false → c.fn.xvec ≠ 0 → (∀ l ∈ lanesOf m, (c.g.lane l).sup = false) →
  let t := c.raise m cause addr
  let g := t.group c.gk
  { t with groups := c.s.groups, cur := c.s.cur } = c.s ∧ t.cur = none ∧ g.sb = [] ∧ (∀ o ∈ g.outs, o.wsb = 0) ∧
  (∀ k, k ≠ c.gk → t.group k = c.s.group k) ∧
  (∀ l ∈ lanesOf m, l < c.g.lanes.length →
    let x := c.g.lane l
    let y := g.lane l
    y.xpc = x.at ∧ y.xcause = BitVec.ofNat 32 cause ∧ y.xaddr = addr ∧ y.sup = true ∧ y.psup = false ∧ y.chk = x.chk ∧
    y.nest = x.nest ∧ y.raoff = x.raoff ∧ y.pc = c.fn.xvec ∧ y.wait = .none ∧ y.xnpc = x.xnpc ∧ y.xsave = x.xsave ∧
    y.flights = [] ∧ ∀ r, r.toNat < 224 → g.rd t.clock l r = c.g.lastVal l r) ∧
  (∀ l, l < 32 → m.getLsbD l = false → (g.lane l).pc = (c.g.lane l).pc ∧ (g.lane l).wait = (c.g.lane l).wait ∧
    (g.lane l).xpc = (c.g.lane l).xpc ∧ (g.lane l).xstate = (c.g.lane l).xstate)) ∧
  (∀ (c : Ctx) (m : BitVec 32) (cause : Nat) (addr : DWord), c.g.ra = none →
  (∃ l ∈ lanesOf m, ∃ f ∈ (c.g.lane l).flights, f.due = none) → c.raise m cause addr = { c.s with cur := none }) ∧
  (∀ (c : Ctx) (m : BitVec 32) (cause : Nat) (addr : DWord), c.g = c.s.group c.gk → c.g.ra = none →
  c.s.team? (c.gk / 32) = some c.t → c.g.unsettled m = false →
  let t := c.raise m cause addr
  let g := t.group c.gk
  (c.fn.xvec ≠ 0 → (∀ l ∈ lanesOf m, (c.g.lane l).sup = true ∧ (c.g.lane l).nest = false) →
    ∀ l ∈ lanesOf m, l < c.g.lanes.length →
      let x := c.g.lane l
      let y := g.lane l
      y.xnpc = x.at ∧ (y.xcause.extractLsb' 0 8 = 0x10 ∧ (cause < 256 → (y.xcause.extractLsb' 8 8).toNat = cause)) ∧ y.xaddr = addr ∧
      y.nest = true ∧ y.pc = c.fn.xvec + 0x40 ∧ y.xpc = x.xpc ∧ y.psup = x.psup ∧ y.sup = true ∧ y.chk = x.chk ∧ y.raoff = x.raoff) ∧
  ((c.fn.xvec = 0 ∧ lanesOf m ≠ [] ∨ ∃ l ∈ lanesOf m, (c.g.lane l).sup = true ∧ (c.g.lane l).nest = true) →
    (tfind c.s.groups c.gk).isSome = true → g.live = 0 ∧ t.cur = none ∧ ∀ l, (g.lane l).wait = .none))

/-! ### Control flow (06) and the return from a trap (19) -/

/-- 06 R117, R118, 02 R41: where every target is a PC that R14 allows (BRX, CALLX, RET) and its TGT bit is 1, each active lane goes
to its own target, CALL and CALLX write the PC of the next slot to D at declared distance 2, and a lane whose guard is 0 falls
through. BRA and CALL reach the line at a signed offset from their own. 06 R117, 01 R14, 02 R41: no lane of the cohort branches and no link is written where one active lane's target fails: a register
target that R14 does not allow raises ILLEGAL, else a target slot whose TGT bit is 0 raises TARGET with that target's address. -/
def Obligations.ControlTransfers : Prop :=
  (∀ (s : State) (c : Ctx) (h : Hdr) (d a : RegCode) (off : BitVec 29) (slot : BitVec 3),
  let rel : Nat → DWord := fun _ => BitVec.ofInt 64 (((c.pc.toNat / 64 : Nat) + off.toInt) * 64 + slot.toNat)
  let reg : Nat → DWord := fun l => c.r2 l a
  let goes (i : Instr) (T : Nat → DWord) (link : Bool) : Prop := ∀ f, Ready i s f c →
    (∀ l ∈ c.lanes, c.tgtOf (T l) = .bit true) →
    let e : Eff := { s := s, jumps := c.lanes.map (fun l => (l, T l)), mode := .fixed 2,
                     wr := if link then c.lanes.flatMap (fun l => wr64 l d (nextPc c.pc)) else [] }
    exec i s = .next (State.commit c f e) ∧
    ∀ l, l < c.g.lanes.length → l < 32 → c.cohort.getLsbD l = true → (c.g.lane l).wait = .none →
      (((State.commit c f e).group c.gk).lane l).pc = (if c.act.getLsbD l then T l else nextPc (c.g.lane l).pc)
  let okAll : Prop := ∀ l ∈ c.lanes, (reg l).toNat % 64 < 5
  goes (.bra h off slot) rel false ∧ goes (.call h d off slot) rel true ∧
  (okAll → goes (.brx h a) reg false ∧ goes (.ret h a) reg false ∧ goes (.callx h d a) reg true)) ∧
  (∀ (s : State) (c : Ctx) (f : Info) (h : Hdr) (d a : RegCode) (off : BitVec 29) (slot : BitVec 3),
  let reg : Nat → DWord := fun l => c.r2 l a
  let fails (i : Instr) (T : Nat → DWord) : Prop := Ready i s f c → ∀ b : Nat → Bool, (∀ l ∈ c.lanes, c.tgtOf (T l) = .bit (b l)) →
    ∀ l, c.lanes.find? (fun l => !b l) = some l → exec i s = .next (c.raise c.cohort 2 (T l))
  fails (.bra h off slot) (fun _ => branchTarget c.pc off slot) ∧ fails (.call h d off slot) (fun _ => branchTarget c.pc off slot) ∧
  ((∀ l ∈ c.lanes, (reg l).toNat % 64 < 5) → fails (.brx h a) reg ∧ fails (.ret h a) reg ∧ fails (.callx h d a) reg) ∧
  ((∃ l ∈ c.lanes, 5 ≤ (reg l).toNat % 64) → ∀ i, (i = .brx h a ∨ i = .ret h a ∨ i = .callx h d a) → Ready i s f c →
    exec i s = .next (c.raise c.cohort 1 0)))

/-- 06 R120 to R123, 01 R25: EXIT ends each active lane and takes it out of every K register; TRAP and BPT raise USER and BPT in the
active lanes, at the instruction itself; NOP and YIELD write nothing, and YIELD places its cohort last, as YLD does; SLEEP parks each
active lane whose length is not 0 until min(B, 2^24) cycles of its core have passed. The lanes that a SLEEP in the lower slot of a
pair parks leave the pair, whose upper slot the others issue next (DEDUCED from 02 R34 and 08 R148, log entry 51). -/
def Obligations.ControlInstructionsComplete : Prop := ∀ (s : State) (c : Ctx) (f : Info) (h : Hdr) (code : BitVec 16) (b : Src),
  let B (l : Nat) : Nat := match b with | .reg r => (c.r1 l r).toNat | .imm v => v.toNat
  (Ready (.exit h) s f c → ∃ t, exec (.exit h) s = .next t ∧ (t.group c.gk).live = c.g.live &&& ~~~c.act ∧ t.mem = s.mem ∧
    ∀ k, tget 0 (t.group c.gk).k k &&& c.act = 0 ∧
      (twf 0 c.g.k = true → tget 0 (t.group c.gk).k k = tget 0 c.g.k k &&& ~~~c.act)) ∧
  (Ready (.nop h) s f c → exec (.nop h) s = .next (State.commit c f { s := s })) ∧
  (Ready (.yield h) s f c → ∃ t, exec (.yield h) s = .next t ∧ t.mem = s.mem ∧
    (c.pos ≠ .lower → (t.group c.gk).yielded = c.cohort ∧ (t.group c.gk).live = c.g.live)) ∧
  (∀ cause i, (cause = 0x0B ∧ i = .trap h code ∨ cause = 0x0C ∧ i = .bpt h code) → Ready i s f c →
    c.g.unsettled c.act = false → c.fn.xvec ≠ 0 → (∀ l ∈ c.lanes, (c.g.lane l).sup = false) →
    ∃ t, exec i s = .next t ∧ ∀ l ∈ c.lanes, l < c.g.lanes.length →
      let y := (t.group c.gk).lane l
      y.xpc = (c.g.lane l).at ∧ y.xcause = BitVec.ofNat 32 cause ∧ y.xaddr = 0 ∧ y.pc = c.fn.xvec ∧ y.sup = true) ∧
  (Ready (.sleep h b) s f c → ∃ t, exec (.sleep h b) s = .next t ∧ t.mem = s.mem ∧
    ∀ l ∈ c.lanes, l < c.g.lanes.length → (c.g.lane l).wait = .none → c.cohort.getLsbD l = true →
      let y := (t.group c.gk).lane l
      if B l = 0 then y.wait = .none ∧ y.pc = nextPc (c.g.lane l).pc
      else y.wait = .sleep (s.cycle c.core + min (B l) (2 ^ 24)) ∧ y.resume = nextPc (c.g.lane l).pc) ∧
  (Ready (.sleep h b) s f c → c.pos = .lower →
    (∀ l ∈ lanesOf c.cohort, l < c.g.lanes.length ∧ c.g.live.getLsbD l = true ∧ (c.g.lane l).wait = .none) →
    let up := maskOf ((lanesOf c.cohort).filter (fun l => !c.act.getLsbD l || decide (B l = 0)))
    ∃ t, exec (.sleep h b) s = .next t ∧ t.cur = if up = 0 then none else some ⟨c.gk, up, .upper⟩)

/-- 19 R346, R333: RTE in supervisor mode. Each active lane goes to XPC in the mode that PSUP holds, or under NEST to XNPC still in
supervisor mode; NEST falls and every register write is visible. A target that R14 does not allow raises ILLEGAL. -/
def Obligations.ReturnFromTrap : Prop := ∀ (s : State) (c : Ctx) (f : Info) (h : Hdr), Ready (.rte h) s f c → c.g.writing c.act = false →
  let target (l : Nat) : DWord := if (c.g.lane l).nest then (c.g.lane l).xnpc else (c.g.lane l).xpc
  ((∃ l ∈ c.lanes, 5 ≤ (target l).toNat % 64) → exec (.rte h) s = .next (c.raise c.cohort 1 0)) ∧
  ((∀ l ∈ c.lanes, (target l).toNat % 64 < 5) → ∃ t, exec (.rte h) s = .next t ∧ t.mem = s.mem ∧
    ∀ l ∈ c.lanes, l < c.g.lanes.length → (c.g.lane l).wait = .none → c.cohort.getLsbD l = true →
      let x := c.g.lane l
      let y := (t.group c.gk).lane l
      y.pc = target l ∧ y.nest = false ∧ y.sup = (x.nest || x.psup) ∧ y.psup = x.psup ∧ y.chk = x.chk ∧ y.raoff = x.raoff ∧
      y.xpc = x.xpc ∧ y.xnpc = x.xnpc ∧ y.xcause = x.xcause ∧ y.xaddr = x.xaddr ∧
      ∀ clk n r, r.toNat < 224 → (t.group c.gk).readAt clk l n r = c.g.lastVal l r)

/-! ### Memory, reset, decoding and the step -/

/-- What a byte of local or host memory reads after a write at its home: the bytes written, and every other byte as before
(00 R3, 14 R240). -/
def Obligations.MemoryReadAfterWrite : Prop := ∀ (s : State) (ma a : Nat) (bs : List Byte),
  tget 0 (s.homeWrite (.loc ma) bs).mem a = (if ma ≤ a ∧ a < ma + bs.length then (bs[a - ma]?).getD 0 else tget 0 s.mem a) ∧
  tget 0 (s.homeWrite (.loc ma) bs).hostMem a = tget 0 s.hostMem a ∧
  tget 0 (s.homeWrite (.host ma) bs).hostMem a = (if ma ≤ a ∧ a < ma + bs.length then (bs[a - ma]?).getD 0 else tget 0 s.hostMem a) ∧
  tget 0 (s.homeWrite (.host ma) bs).mem a = tget 0 s.mem a ∧
  readLE (writeBytes s.mem ma bs) ma bs.length = ofLE bs

/-- The machine after power-on (29 R472, R473, 22 R390, Table 22-1, 14 R244, 29 Table 29-4): no function exists, no team or grid is
resident, every byte of memory reads 0, the clock and %epoch stand at 0, the device is not ready, and the power limit and the core
clock have the values of their table. Reset memory has the canonical form. That the clock and %epoch begin at 0 and that host memory
lists nothing are the model's choices (log entries 3, 7). -/
def Obligations.ResetState : Prop :=
  (let s := State.reset
  s.isReady = false ∧ s.clock = 0 ∧ s.epoch = 0 ∧ s.teams = [] ∧ s.grids = [] ∧ s.cur = none ∧ s.agenda = [] ∧
  (∀ f, (s.func f).exist = false ∧ (s.func f).xvec = 0 ∧ (s.func f).part = none ∧ (s.func f).vdn = none) ∧
  (∀ a, tget 0 s.mem a = 0) ∧ s.pwrlim = 3000 ∧ s.clknow = 4000 ∧ s.ringLen = 0 ∧ s.cmdSeq = 0) ∧
  (State.reset.memWf = true)

/-- Every step keeps the memories in canonical form: addresses strictly rising, no entry that reads as an unlisted byte does. -/
def Obligations.StepKeepsMemoryCanonical : Prop := ∀ s t : State, s.memWf = true → step s = .next t → t.memWf = true

/-- Decoding the word of a well-formed instruction gives the instruction back, every operand at every value its encoding admits
(02 R28 to R31 and the encoding tables of the families). -/
def Obligations.DecodeEncode : Prop := ∀ (i : Instr) (w : InstrWord), i.wf = true → encode i = some w → decode w = .ok i

/-- A step at a chosen cohort whose fetch line has been entered and holds a word that decodes runs the decoded instruction, and one cycle
of the clock passes (02 R31, R33): at a slot that no pair begins, at the upper slot of a pair, and at the lower slot of a pair that 02 R34
allows and that both slots' scoreboards let issue. One cycle a step is the model's choice (log entry 13). -/
def Obligations.StepRunsDecoded : Prop := ∀ (s : State) (cu : Cur) (t : Team) (l : Nat) (ls : List Nat) (il : ILine) (i : Instr),
  s.agenda = [] → s.cur = some cu → s.team? (cu.gk / 32) = some t → lanesOf cu.cohort = l :: ls →
  (∀ k ∈ lanesOf cu.cohort, ((s.group cu.gk).lane k).fline = some il.line) →
  (s.core t.core).iline t.func il.line = some il → il.bad = false → lineReserved il.bytes = false →
  let slot := ((s.group cu.gk).lane l).at.toNat % 8
  decode (slotWord il.bytes slot) = .ok i →
  (cu.pos = .upper ∨ (cu.pos = .single ∧ posOf il.bytes slot = .single) → step s = ticked (exec i s)) ∧
  (∀ (j : Instr) (lo up : Info), cu.pos = .lower → posOf il.bytes slot = .lower → i.info = some lo →
    decode (slotWord il.bytes (slot + 1)) = .ok j → j.info = some up → pairOk il.bytes slot lo (some up.cls) = true →
    pairConflict (pairOps lo (runsFor s cu i)) (pairOps up (runsFor s cu j)) = false →
    (s.group cu.gk).pairReady (s.cycle t.core) lo.h up.h = true → step s = ticked (exec i s))

/-- Words written out from the spec's worked examples decode to the instructions they stand for. -/
def Obligations.DecodeSanity : Prop :=
  let h (stall : BitVec 4) : Hdr := ⟨7, false, 0, 0, false, stall⟩
  decode 0x00000000FF06050438002004 = .ok (.iadd (h 2) .wrap 4 5 (.reg 6)) ∧
  decode 0x00000064FFFF0B0A54001004 = .ok (.iadd ⟨2, true, 0, 0, false, 1⟩ .wrap 10 11 (.imm 100)) ∧
  decode 0x00000080FFFFFF2878001062 = .ok (.call (h 1) 40 16 0) ∧
  decode 0x00000000FFFF28FF38000064 = .ok (.ret (h 0) 40) ∧
  decode 0x00000000FFFFFFFF38000067 = .ok (.nop (h 0)) ∧
  decode 0x00000000FF14FFFF3800006A = .ok (.sleep (h 0) (.reg 20)) ∧
  decode 0x00000000FFFFFFFF380000D0 = .ok (.rte (h 0))

/-! ### Loads and stores (06, 13, 15 R268) -/

/-- What a load writes (06 Table 6-2). -/
def loadWrites (sz : LdSize) (l : Nat) (d : RegCode) (v : Nat) : List Wr :=
  match sz with
  | .u8 | .u16 | .w32 => wr1 l d (BitVec.ofNat 32 v)
  | .s8 => wr1 l d ((BitVec.ofNat 8 v).signExtend 32)
  | .s16 => wr1 l d ((BitVec.ofNat 16 v).signExtend 32)
  | .d64 | .u32d => wr64 l d (BitVec.ofNat 64 v)
  | .s32d => wr64 l d ((BitVec.ofNat 32 v).signExtend 64)
  | .q128 => wr128 l d (BitVec.ofNat 128 v)

/-- 06 R126, R128, R129, R131, 13 R229, 15 R268: LD, LDNC, LDC and LDL of local or host lines. Each active lane reads the bytes at its
aligned address, the youngest buffered ones of its core first, then those of L1, which LDNC passes over, then those of the home;
no memory changes. LDL reads the lane's own window through the function's area, whose pages permit R and W (13 R213), and LDC a uniform base. -/
def Obligations.GlobalLoadsComplete : Prop := ∀ (s : State) (c : Ctx) (h : Hdr) (sz : LdSize) (d a : RegCode) (off : Word) (T : Nat → Tr),
  let n := match sz with | .u8 | .s8 => 1 | .u16 | .s16 => 2 | .w32 | .u32d | .s32d => 4 | .d64 => 8 | .q128 => 16
  let va (l : Nat) : DWord := c.r2 l a + off.signExtend 64
  let wva (l : Nat) : DWord := BitVec.ofNat 64 (c.fn.lpbase.toNat + (1024 * c.t.lpslot.getD 0 + 32 * c.gid + l) * c.fn.lpsize + (va l).toNat)
  let reads (sup : Bool) (addr : Nat → DWord) : Prop := ∀ l ∈ c.lanes, (addr l).toNat % n = 0 ∧
    c.xlAs sup .read (addr l).toNat = .ok (T l) ∧ ((T l).tgt.isFab = false)
  let value (sup l1 : Bool) (l : Nat) : Nat := ofLE ((List.range n).map (fun k => s.loadByte c.core c.t.func (T l) (l1 && (T l).cached sup) k))
  let ws (sup l1 : Bool) : List Wr := c.lanes.flatMap (fun l => loadWrites sz l d (value sup l1 l))
  (reads c.sup va → Completes (.ld h sz d a off) s c [] [] (ws c.sup true) (s.Quiet · c.gk) ∧
    Completes (.ldnc h sz d a off) s c [] [] (ws c.sup false) (s.Quiet · c.gk) ∧
    ((∀ l ∈ c.lanes, ∀ m ∈ c.lanes, c.r2 l a = c.r2 m a) →
      Completes (.ldc h sz d a off) s c [] [] (ws c.sup true) (s.Quiet · c.gk))) ∧
  (c.fn.lpteams ≠ 0 → (∀ l ∈ c.lanes, (va l).toNat % n = 0 ∧ (va l).toNat + n ≤ c.fn.lpsize) → reads true wva →
    (∀ l ∈ c.lanes, bitOf (T l).leaf 1 = true ∧ bitOf (T l).leaf 2 = true) →
    Completes (.ldl h sz d a off) s c [] [] (c.lanes.flatMap (fun l => loadWrites sz l d (value c.sup true l))) (s.Quiet · c.gk))

/-- 06 R126, R129, 13 R228, R229: ST and STL of local or host lines while the write-through buffer has room. The stored bytes of
a lane that shares none with another lane stand in the core's buffer, where every later load of the core reads them; every byte
outside the active lanes' stored bytes stands there as before; memory, registers and every other core are unchanged. -/
def Obligations.GlobalStoresComplete : Prop := ∀ (s : State) (c : Ctx) (h : Hdr) (sz : StSize) (a b : RegCode) (off : Word) (T : Nat → Tr),
  let n := match sz with | .b8 => 1 | .b16 => 2 | .b32 => 4 | .b64 => 8 | .b128 => 16
  let va (l : Nat) : DWord := c.r2 l a + off.signExtend 64
  let wva (l : Nat) : DWord := BitVec.ofNat 64 (c.fn.lpbase.toNat + (1024 * c.t.lpslot.getD 0 + 32 * c.gid + l) * c.fn.lpsize + (va l).toNat)
  let writes (sup : Bool) (addr : Nat → DWord) : Prop := ∀ l ∈ c.lanes, (addr l).toNat % n = 0 ∧ (T l).fpa % n = 0 ∧
    c.xlAs sup .write (addr l).toNat = .ok (T l) ∧ (match (T l).tgt with | .loc _ | .host _ => True | .fab .. | .notify .. => False)
  let after (t : State) : Prop := s.Quiet t c.gk ∧ (∀ k, k ≠ c.core → t.core k = s.core k) ∧
    (∀ l ∈ c.lanes, (∀ m ∈ c.lanes, m ≠ l → (T m).fpa + n ≤ (T l).fpa ∨ (T l).fpa + n ≤ (T m).fpa) → ∀ k, k < n →
      (t.core c.core).wtbByte c.t.func ((T l).fpa + k) =
        some (BitVec.ofNat 8 ((c.r4 l b).toNat / 2 ^ (8 * k)))) ∧
    (∀ x, (∀ l ∈ c.lanes, x < (T l).fpa ∨ (T l).fpa + n ≤ x) →
      (t.core c.core).wtbByte c.t.func x = (s.core c.core).wtbByte c.t.func x)
  (s.core c.core).wtb.length + c.lanes.length ≤ 64 →
  (writes c.sup va → Completes (.st h sz a off b) s c [] [] [] after) ∧
  (c.fn.lpteams ≠ 0 → (∀ l ∈ c.lanes, (va l).toNat % n = 0 ∧ (va l).toNat + n ≤ c.fn.lpsize) → writes true wva →
    (∀ l ∈ c.lanes, bitOf (T l).leaf 1 = true ∧ bitOf (T l).leaf 2 = true) →
    Completes (.stl h sz a off b) s c [] [] [] after)

/-- 15 R268, 13 R214 to R219: LDS, LDCL and LDX read, and STS, STCL and STX write, the bytes at each active lane's aligned offset of the
team's scratchpad, of the scratchpad of a rank of the cluster, and of the function's chip scratchpad. A store changes no byte but
the active lanes', and a lane that shares none with another reads back what it stored. -/
def Obligations.ScratchpadAccessesComplete : Prop := ∀ (s : State) (c : Ctx) (h : Hdr) (lz : LdSize) (sz : StSize) (d a b : RegCode)
    (off : Word) (P : Nat → Pad) (A : Nat → Nat),
  let ln := match lz with | .u8 | .s8 => 1 | .u16 | .s16 => 2 | .w32 | .u32d | .s32d => 4 | .d64 => 8 | .q128 => 16
  let sn := match sz with | .b8 => 1 | .b16 => 2 | .b32 => 4 | .b64 => 8 | .b128 => 16
  let o32 (l : Nat) : Nat := (c.r1 l a + off).toNat
  let o64 (l : Nat) : Nat := (c.r2 l a + off.signExtend 64).toNat
  let own (n : Nat) : Prop := ∀ l ∈ c.lanes, o32 l % n = 0 ∧ o32 l + n ≤ c.t.lrec.spad * 1024 ∧ P l = .team (c.gk / 32) ∧ A l = o32 l
  let mate (n : Nat) : Prop := ∀ l ∈ c.lanes, o32 l % n = 0 ∧ o32 l / 2 ^ 24 < c.t.lrec.w * c.t.lrec.h ∧ o32 l / 2 ^ 18 % 64 = 0 ∧
    o32 l % 2 ^ 18 + n ≤ c.t.lrec.spad * 1024 ∧ A l = o32 l % 2 ^ 18 ∧ ∃ t, c.mate (o32 l / 2 ^ 24) = some t ∧ P l = .team t
  let chip (n : Nat) : Prop := ∀ l ∈ c.lanes, o64 l % n = 0 ∧ o64 l + n ≤ c.fn.grant.length * 2 ^ 20 ∧ P l = .chip ∧
    A l = (c.fn.grant[o64 l / 2 ^ 20]?).getD 0 * 2 ^ 20 + o64 l % 2 ^ 20
  let ws : List Wr := c.lanes.flatMap (fun l => loadWrites lz l d (readLE (s.padBytes (P l)) (A l) ln))
  let same (t : State) : Prop := s.Quiet t c.gk ∧ t.teams = s.teams
  let stored (t : State) : Prop := (∀ x, tget 0 t.mem x = tget 0 s.mem x ∧ tget 0 t.hostMem x = tget 0 s.hostMem x) ∧
    (∀ k, k ≠ c.gk → t.group k = s.group k) ∧
    (∀ l ∈ c.lanes, (∀ m ∈ c.lanes, m ≠ l → P m ≠ P l ∨ A m + sn ≤ A l ∨ A l + sn ≤ A m) → ∀ k, k < sn →
      tget 0 (t.padBytes (P l)) (A l + k) = BitVec.ofNat 8 ((c.r4 l b).toNat / 2 ^ (8 * k))) ∧
    (∀ p x, (∀ l ∈ c.lanes, P l ≠ p ∨ x < A l ∨ A l + sn ≤ x) → tget 0 (t.padBytes p) x = tget 0 (s.padBytes p) x)
  (own ln → Completes (.lds h lz d a off) s c [] [] ws same) ∧ (mate ln → Completes (.ldcl h lz d a off) s c [] [] ws same) ∧
  (chip ln → Completes (.ldx h lz d a off) s c [] [] ws same) ∧
  (own sn → Completes (.sts h sz a off b) s c [] [] [] stored) ∧ (mate sn → Completes (.stcl h sz a off b) s c [] [] [] stored) ∧
  (chip sn → Completes (.stx h sz a off b) s c [] [] [] stored)

/-- 06 R126, R129, R130, 13 R214, R219, 01 R24: an active lane whose address is not a multiple of its size raises MISALIGN with the
address of the first such lane, before any translation; an offset beyond the lane-private window or the scratchpad
raises ACCESS, here for LDL and LDS. PREF raises nothing and writes no register. -/
def Obligations.MisplacedAccessesTrap : Prop := ∀ (s : State) (c : Ctx) (f : Info) (h : Hdr) (lz : LdSize) (sz : StSize) (d a b : RegCode)
    (off : Word) (l2 : Bool) (l : Nat),
  let ln := match lz with | .u8 | .s8 => 1 | .u16 | .s16 => 2 | .w32 | .u32d | .s32d => 4 | .d64 => 8 | .q128 => 16
  let sn := match sz with | .b8 => 1 | .b16 => 2 | .b32 => 4 | .b64 => 8 | .b128 => 16
  let va (l : Nat) : DWord := c.r2 l a + off.signExtend 64
  let o32 (l : Nat) : Nat := (c.r1 l a + off).toNat
  let traps (i : Instr) (cause : Nat) (addr : DWord) : Prop := Ready i s f c → exec i s = .next (c.raise c.cohort cause addr)
  (c.lanes.find? (fun l => (va l).toNat % ln ≠ 0) = some l → traps (.ld h lz d a off) 4 (va l) ∧ traps (.ldnc h lz d a off) 4 (va l) ∧
    traps (.ldl h lz d a off) 4 (va l) ∧ traps (.ldx h lz d a off) 4 (va l)) ∧
  (c.lanes.find? (fun l => (va l).toNat % sn ≠ 0) = some l → traps (.st h sz a off b) 4 (va l) ∧ traps (.stl h sz a off b) 4 (va l) ∧
    traps (.stx h sz a off b) 4 (va l)) ∧
  (c.lanes.find? (fun l => o32 l % ln ≠ 0) = some l → traps (.lds h lz d a off) 4 (BitVec.ofNat 64 (o32 l)) ∧
    traps (.ldcl h lz d a off) 4 (BitVec.ofNat 64 (o32 l))) ∧
  (c.lanes.find? (fun l => o32 l % sn ≠ 0) = some l → traps (.sts h sz a off b) 4 (BitVec.ofNat 64 (o32 l)) ∧
    traps (.stcl h sz a off b) 4 (BitVec.ofNat 64 (o32 l))) ∧
  ((∀ m ∈ c.lanes, (va m).toNat % ln = 0) →
    c.lanes.find? (fun m => decide ((if c.fn.lpteams = 0 then 0 else c.fn.lpsize) < (va m).toNat + ln)) = some l →
    traps (.ldl h lz d a off) 7 (va l)) ∧
  ((∀ m ∈ c.lanes, o32 m % ln = 0) → c.lanes.find? (fun m => decide (c.t.lrec.spad * 1024 < o32 m + ln)) = some l →
    traps (.lds h lz d a off) 7 (BitVec.ofNat 64 (max (o32 l) (c.t.lrec.spad * 1024)))) ∧
  ((∀ m ∈ c.lanes, c.xl .read (va m).toNat ≠ .miss) →
    Completes (.pref h l2 a off) s c [] [] [] (fun t => ∀ x, tget 0 t.mem x = tget 0 s.mem x))

/-! ### Reconvergence and exchange among lanes (09) -/

/-- 09 R156, R157: KJOIN, KLEAVE, KSET and KMOV change K k to the value of their form, within the live mask, when some lane
participates, and no other K register; KMOV to G writes K k to D. No G or P register of the other forms, and no memory, changes. 09 R158, R159: KWAIT parks each active lane on K k; when then every lane whose bit is set in K k is parked on it, every lane parked
on it goes on past its KWAIT, member or not, and otherwise they stay parked. K k is unchanged. The release of a halted lane is recorded
while it stays parked (19 R349), and so is that of a lane whose plane is being saved (21 R366). -/
def Obligations.ReconvergenceRegisters : Prop :=
  (∀ (s : State) (c : Ctx) (h : Hdr) (k j : BitVec 4) (d a : RegCode),
  let K (n : BitVec 4) : Word := tget 0 c.g.k n.toNat
  let sets (i : Instr) (n : BitVec 4) (v : Word) : Prop := ∀ f, Ready i s f c → ∃ t, exec i s = .next t ∧ s.Quiet t c.gk ∧
    c.g.Wrote (t.group c.gk) [] ∧ (t.group c.gk).live = c.g.live ∧
    ∀ m, tget 0 (t.group c.gk).k m = (if m = n.toNat ∧ c.act ≠ 0 then v &&& c.g.live else tget 0 c.g.k m)
  sets (.kjoin h k) k (K k ||| c.act) ∧ sets (.kleave h k) k (K k &&& ~~~c.act) ∧ sets (.ksetCohort h k) k c.act ∧
  sets (.ksetClr h k) k 0 ∧ sets (.ksetLive h k) k c.g.live ∧ sets (.kmovK h k j) j (K k) ∧
  ((∀ l ∈ c.lanes, ∀ m ∈ c.lanes, c.r1 l a = c.r1 m a) → ∀ v, (∀ l ∈ c.lanes, c.r1 l a = v) → sets (.ksetG h k a) k v) ∧
  Gives (.kmov h d k) s c (fun l => wr1 l d (K k))) ∧
  (∀ (s : State) (c : Ctx) (f : Info) (h : Hdr) (k : BitVec 4), Ready (.kwait h k) s f c →
  k.toNat < 12 → c.g.lanes.length = 32 → (∀ l ∈ lanesOf c.cohort, (c.g.lane l).wait = .none ∧ c.g.live.getLsbD l = true) →
  let parked (l : Nat) : Bool := c.g.live.getLsbD l && (c.act.getLsbD l || decide ((c.g.lane l).wait = .k k.toNat))
  let holds : Prop := ∀ l, l < 32 → (tget 0 c.g.k k.toNat).getLsbD l = true → parked l = true
  ∃ t, exec (.kwait h k) s = .next t ∧ s.Quiet t c.gk ∧ (t.group c.gk).k = c.g.k ∧
    ∀ l, l < 32 → parked l = true →
      let x := c.g.lane l
      let y := (t.group c.gk).lane l
      let next := if c.act.getLsbD l then nextPc x.pc else x.resume
      (holds → if c.g.halted.getLsbD l then y.wait = .satisfied (1 + 256 * k.toNat) [] ∧ y.resume = next
        else y.wait = (if s.savingTeam c.t then .woken else .none) ∧ y.pc = next) ∧ (¬ holds → y.wait = .k k.toNat ∧ y.resume = next))

/-- 09 R163: ELECT sets P[D] in the lowest-numbered participating lane alone; VOTE writes to every participating lane whether all, some,
or all or none of the values are 1, or their mask. 09 R154, R164 to R167: SHFL, REDUX, MATCH and RDLANE read the last value in program order of A in each source lane (of an S register, of
the lane's own writes and those that it sees, 08 R145), once every outstanding write of those lanes has landed: till then they do not issue, and a soft-error mark that a last write carries raises ECC. A source lane
number of RDLANE that differs among the participating lanes raises NONUNIF. -/
def Obligations.GroupOperationResults : Prop :=
  (∀ (s : State) (c : Ctx) (h : Hdr) (neg : Bool) (d a : RegCode),
  let yes (l : Nat) : Bool := xor (c.rp l a) neg
  Gives (.elect h d) s c (fun l => wrP l d (decide (∀ m ∈ c.lanes, l ≤ m))) ∧
  Gives (.vote h .all neg d a) s c (fun l => wrP l d (c.lanes.all yes)) ∧
  Gives (.vote h .any neg d a) s c (fun l => wrP l d (c.lanes.any yes)) ∧
  Gives (.vote h .uni neg d a) s c (fun l => wrP l d (c.lanes.all yes || c.lanes.all (fun m => !yes m))) ∧
  (∃ b : Word, (∀ l, b.getLsbD l = (c.act.getLsbD l && yes l)) ∧ Gives (.vote h .ballot neg d a) s c (fun l => wr1 l d b))) ∧
  (∀ (s : State) (c : Ctx) (h : Hdr) (d a p : RegCode) (b : BitVec 6) (lw : BitVec 3) (q : RegCode),
  let A (l : Nat) : Word := c.g.rdLast (s.cycle c.core) l a
  let A2 (l : Nat) : DWord := c.g.rdLast (s.cycle c.core) l (codeAdd a 1) ++ c.g.rdLast (s.cycle c.core) l a
  let vs : List Word := c.lanes.map A
  let waits (i : Instr) (x : Opnd) : Prop := ∀ f, i.info = some f → Issues s f f.opnds [x] c → exec i s = .next { s with cur := none }
  let marked (i : Instr) (x : Opnd) : Prop := ∀ f, i.info = some f → Issues s f f.opnds [x] c → ∀ v, c.lastMark c.lanes (opCodes x) = some v →
    exec i s = .next (c.raise c.cohort 0x0E v)
  (c.unlanded c.lanes = false → (∀ m sb, marked (.shfl h m d a sb p) (rd a)) ∧ (∀ op, marked (.redux h op d a) (rd a)) ∧
    ∀ w m, marked (.matchLanes h w m d a) (if w then rd2 a else rd a)) ∧
  (c.unlanded c.lanes = true → (∀ m, waits (.shfl h m d a (.imm b lw) p) (rd a)) ∧ (∀ op, waits (.redux h op d a) (rd a)) ∧ ∀ w m, waits (.matchLanes h w m d a) (if w then rd2 a else rd a)) ∧
  (c.unlanded c.lanes = false → c.lastMark c.lanes (opCodes (rd a)) = none →
    (∀ (m : ShflMode) (sb : ShflB),
      let w : Nat := match sb with | .reg _ => 32 | .imm _ v => 2 ^ v.toNat
      let n (l : Nat) : Int := match sb with | .reg r => (c.r1 l r).toInt | .imm v _ => v.toInt
      let r (l : Nat) : Nat := (n l % (w : Int)).toNat
      let j (l : Nat) : Int := match m with
        | .pick => (l - l % w + r l : Nat)
        | .shift => l + n l
        | .rot => (l - l % w + (l % w + r l) % w : Nat)
        | .xor => (l - l % w + (l % w ^^^ r l) : Nat)
      let ok (l : Nat) : Bool := (match m with
        | .shift => decide (0 ≤ (l % w : Nat) + n l ∧ (l % w : Nat) + n l < w)
        | .pick | .rot | .xor => true) && c.act.getLsbD (j l).toNat
      GivesEx (.shfl h m d a sb p) s c (rd a) (fun l => wr1 l d (if ok l then A (j l).toNat else A l) ++ wrP l p (ok l))) ∧
    (∃ sum : Word, sum.toNat = (vs.map BitVec.toNat).sum % 2 ^ 32 ∧ GivesEx (.redux h .add d a) s c (rd a) (fun l => wr1 l d sum)) ∧
    (c.act ≠ 0 → ∃ mn mx mnu mxu : Word, mn ∈ vs ∧ mx ∈ vs ∧ mnu ∈ vs ∧ mxu ∈ vs ∧
      (∀ v ∈ vs, mn.toInt ≤ v.toInt ∧ v.toInt ≤ mx.toInt ∧ mnu.toNat ≤ v.toNat ∧ v.toNat ≤ mxu.toNat) ∧
      GivesEx (.redux h .minS d a) s c (rd a) (fun l => wr1 l d mn) ∧ GivesEx (.redux h .maxS d a) s c (rd a) (fun l => wr1 l d mx) ∧
      GivesEx (.redux h .minU d a) s c (rd a) (fun l => wr1 l d mnu) ∧ GivesEx (.redux h .maxU d a) s c (rd a) (fun l => wr1 l d mxu)) ∧
    (c.act ≠ 0 → ∃ x y z : Word, (∀ i, i < 32 → x.getLsbD i = vs.all (fun v => v.getLsbD i) ∧ y.getLsbD i = vs.any (fun v => v.getLsbD i) ∧
        z.getLsbD i = decide ((vs.filter (fun v => v.getLsbD i)).length % 2 = 1)) ∧
      GivesEx (.redux h .and d a) s c (rd a) (fun l => wr1 l d x) ∧ GivesEx (.redux h .or d a) s c (rd a) (fun l => wr1 l d y) ∧
      GivesEx (.redux h .xor d a) s c (rd a) (fun l => wr1 l d z)) ∧
    (c.act ≠ 0 → GivesEx (.redux h .fadd d a) s c (rd a) (fun l => wr1 l d (BitVec.ofNat 32 (roundTo fp32 false .rn
      ((vs.drop 1).foldl (fun x v => x.add false (fp32.value v.toNat)) (fp32.value (vs.headD 0).toNat)))))) ∧
    GivesEx (.matchLanes h false .any d a) s c (rd a) (fun l => wr1 l d (maskOf (c.lanes.filter (fun m => A m = A l)))) ∧
    GivesEx (.matchLanes h false (.all q) d a) s c (rd a) (fun l =>
      if ∀ m ∈ c.lanes, ∀ n ∈ c.lanes, A m = A n then wr1 l d (maskOf c.lanes) ++ wrP l q true else wr1 l d 0 ++ wrP l q false) ∧
    (c.lastMark c.lanes (opCodes (rd2 a)) = none →
      GivesEx (.matchLanes h true .any d a) s c (rd2 a) (fun l => wr1 l d (maskOf (c.lanes.filter (fun m => A2 m = A2 l)))) ∧
      GivesEx (.matchLanes h true (.all q) d a) s c (rd2 a) (fun l =>
        if ∀ m ∈ c.lanes, ∀ n ∈ c.lanes, A2 m = A2 n then wr1 l d (maskOf c.lanes) ++ wrP l q true else wr1 l d 0 ++ wrP l q false))) ∧
  (∀ sb : Src,
    let uni : Prop := match sb with | .reg r => 224 ≤ r.toNat ∨ ∀ l ∈ c.lanes, ∀ m ∈ c.lanes, c.r1 l r = c.r1 m r | .imm _ => True
    let v : Nat := match sb with | .reg r => (c.u1 r).toNat % 32 | .imm i => i.toNat % 32
    let from' : List Nat := if c.act ≠ 0 ∧ c.g.live.getLsbD v = true then [v] else []
    (uni → c.unlanded from' = false →
      (c.lastMark from' (opCodes (rd a)) = none →
        GivesEx (.rdlane h false d a sb) s c (rd a) (fun l => wr1 l d (if c.g.live.getLsbD v then A v else 0))) ∧
      (c.lastMark from' (opCodes (rd2 a)) = none →
        GivesEx (.rdlane h true d a sb) s c (rd2 a) (fun l => wr64 l d (if c.g.live.getLsbD v then A2 v else 0)))) ∧
    (¬ uni → ∀ (w : Bool) (f : Info), (Instr.rdlane h w d a sb).info = some f →
      Issues s f f.opnds [if w then rd2 a else rd a] c → exec (.rdlane h w d a sb) s = .next (c.raise c.cohort 8 0))))

/-! ### The matrix array (10, 11) -/

/-- 10 R170, 11 R185, R186, R189 to R194: a matrix instruction of a whole group whose team owns the bank, with uniform operands and
regions that are aligned and inside the scratchpad, enters the queue of its plane while fewer than 8 are outstanding, with the
operands it captured, and is outstanding, a gang stream (.gang) with the members that are to receive its rows; no bank, register or memory has changed yet but the registers that MDRNR is to write. MZERO
and MBIAS with nothing queued before them take effect at once. When queued instructions read the scratchpad is the model's reading
(log entry 30). -/
def Obligations.MatrixInstructionsIssue : Prop := ∀ (s : State) (c : Ctx) (h : Hdr) (sp set int z : Bool) (a b cc d : RegCode)
    (slot : BitVec 3) (bank : BitVec 2) (q0 : BitVec 8) (rows : Rows) (x : Drain),
  let sl : DWord := c.t.lrec.slot slot.toNat
  let U (r : RegCode) : Nat := (c.u1 r).toNat
  let uni (r : RegCode) : Prop := ∀ l ∈ c.lanes, ∀ m ∈ c.lanes, c.r1 l r = c.r1 m r
  let fits (o n : Nat) : Prop := n ≠ 0 → o % 128 = 0 ∧ o + n ≤ c.t.lrec.spad * 1024
  let P := c.plane
  let kept (t : State) : Prop := s.Quiet t c.gk ∧ t.teams = s.teams ∧ ∀ p, p ≠ P → t.plane p = s.plane p
  let queued (op : MatOp) (t : State) : Prop := kept t ∧ (t.plane P).matq = (s.plane P).matq ++ [op] ∧
    { t.plane P with matq := [] } = { s.plane P with matq := [] }
  let tok (m : BitVec 32) : Token := ⟨c.gk, s.nextTok, m⟩
  let at' : Nat × Nat × Nat := (rows.bank.toNat, rows.q0.toNat, rows.cnt.toNat + 1)
  let mates (gang : Bool) : List (Nat × Nat × Nat) := if gang then c.members else []
  let joined (gang : Bool) : Prop := gang = true → c.t.gang.formed = true ∧ ∀ x ∈ c.members, (s.plane (s.planeOf x.2.1)).swapping = false
  c.act ≠ 0 → c.cohort = c.g.live → s.matLoad c.core < 8 →
  (∀ e cls, matFmt sl = some (e, cls) → uni a → (slotSck sl ≠ 0 → uni b) → (sp = true → uni cc) → c.t.qmask ≠ 0 → fits (U a) (1024 / cls * 64 * e.width / 8) →
    fits (U b) (if slotSck sl = 0 then 0 else scaleBlocks sl (if sp then 2 * (1024 / cls) else 1024 / cls) * 64 * scaleBytes sl) →
    fits (U cc) (if sp then 1024 / cls * 16 else 0) →
    Completes (.mlds h sp a b cc slot) s c ((scaleReg sl b).map rd) [] [] (queued (.load (tok 1) (c.gk / 32) cls sp e.isInt sl (U a) (U b) (U cc)))) ∧
  (c.t.qmask ≠ 0 → Completes (.mswap h) s c [] [] [] (queued (.swap (tok 1)))) ∧
  (∀ (gang : Bool) e cls, matFmt sl = some (e, cls) → c.streamIll gang slot = false → joined gang → uni a → uni b →
    (slotSck sl ≠ 0 → uni cc) → c.t.qmask.getLsbD bank.toNat = true →
    let sps := (s.plane P).firstMeets.2.1
    let n := rowBytes e cls sps
    let m := min (U b) (256 - q0.toNat)
    (m = 0 → Completes (.mstr h set gang a b cc slot bank q0) s c ((scaleReg sl cc).map rd) [] [] (fun t => kept t ∧ t.plane P = s.plane P)) ∧
    (m ≠ 0 → fits (U a) ((m - 1) * ((n + 127) / 128 * 128) + n) → fits (U cc) (streamScales sl (logDepth cls sps) m (U cc)).2 →
      Completes (.mstr h set gang a b cc slot bank q0) s c ((scaleReg sl cc).map rd) [] []
        (queued (.stream (tok 1) bank.toNat q0.toNat 0 m set sps sl (.pad (c.gk / 32) (U a)) (c.gk / 32) (U cc) (mates gang))))) ∧
  (∀ (gang : Bool) e cls run, matFmt sl = some (e, cls) → c.streamIll gang slot = false → joined gang → (slotSck sl ≠ 0 → uni cc) → c.t.qmask.getLsbD rows.bank.toNat = true →
    let sps := (s.plane P).firstMeets.2.1
    let n := rows.cnt.toNat + 1
    mstrrRuns c.t.lrec.regs sps a n = some run →
    c.lastMark (lanesOf c.g.live) (run.flatMap opCodes) = none → c.unlanded (lanesOf c.g.live) = false →
    fits (U cc) (streamScales sl (logDepth cls sps) n (U cc)).2 →
    Completes (.mstrr h set gang a cc slot rows) s c ((scaleReg sl cc).map rd) [] []
      (queued (.stream (tok 1) rows.bank.toNat rows.q0.toNat 0 n set sps sl
        (.regs ((List.range n).map (c.regRow sps a))) (c.gk / 32) (U cc) (mates gang)))) ∧
  (c.t.qmask.getLsbD rows.bank.toNat = true →
    ((s.plane P).matq ≠ [] → Completes (.mzero h rows) s c [] [] [] (queued (.zero (tok 1) at'.1 at'.2.1 at'.2.2))) ∧
    ((s.plane P).matq = [] → Completes (.mzero h rows) s c [] [] [] (fun t => kept t ∧
      t.plane P = (s.plane P).zeroRows at'.1 at'.2.1 at'.2.2)) ∧
    (uni a → fits (U a) 256 →
      ((s.plane P).matq ≠ [] → Completes (.mbias h int a rows) s c [] [] [] (queued (.bias (tok 1) (c.gk / 32) int at'.1 at'.2.1 at'.2.2 (U a)))) ∧
      ((s.plane P).matq = [] → Completes (.mbias h int a rows) s c [] [] [] (fun t => kept t ∧
        t.plane P = s.biasRows (s.plane P) (c.gk / 32) int at'.1 at'.2.1 at'.2.2 (U a)))) ∧
    (c.drainIll x = false → uni a → (slotSck (c.drainSlot x) ≠ 0 → uni b) → fits (U a) ((rows.cnt.toNat + 1) * 64 * (drainFmt x (c.drainSlot x)).width / 8) →
      Completes (.mdrn h x z a b rows) s c ((scaleReg (c.drainSlot x) b).map rd) [] []
        (queued (.drain (tok 1) (c.gk / 32) at'.1 at'.2.1 at'.2.2 x z (c.drainSlot x) (c.u1 b) (U a) none false))) ∧
    (c.drainIll x = false → (slotSck (c.drainSlot x) ≠ 0 → uni b) → ∀ run f, mdrnrRuns c.t.lrec x d b (rows.cnt.toNat + 1) = some run →
      (Instr.mdrnr h x z d b rows).info = some f → Issues s f (f.opnds ++ run) [] c →
      ∃ t, exec (.mdrnr h x z d b rows) s = .next t ∧
        queued (.drain (tok c.act) (c.gk / 32) at'.1 at'.2.1 at'.2.2 x z (c.drainSlot x) (c.u1 b) 0 (some d.toNat) false) t ∧
        ∀ l, l < c.g.lanes.length → l < 32 → ∀ r : RegCode, r.toNat < 224 →
          (c.act.getLsbD l = false ∨ r.toNat < d.toNat ∨ d.toNat + (rows.cnt.toNat + 1) * drainWidth x (c.drainSlot x) ≤ r.toNat) →
          (t.group c.gk).lastVal l r = c.g.lastVal l r))

/-- 11 R185, 10 R169: what turns MSWAP, MZERO and MGANG away, in the order of 01 R24: a cohort that is not the group's live mask raises
PARTMASK, then a team without banks, or one that does not own the bank named, raises QBANK, whatever the guards. A member list that
11 R195 refuses raises ILLEGAL, and so do .lead and .join in a team that is in a gang. With guard 0 in every lane and none of these
the instruction completes and changes nothing. 11 R195, R196: otherwise MGANG.lead completes with the list in its team, MGANG.join with
its leader's rank and the bank, and MGANG.leave, once the rows of the gang are complete (until then it does not issue), with its team
in no gang. The gang is formed when every listed rank of the leader's cluster has joined it, each of these is then a met member,
and no other team changes; a leader that leaves takes every met member of its cluster out with it, and a member that leaves
a formed gang leaves its leader's list. -/
def Obligations.MatrixAndGangInstructions : Prop :=
  (∀ (s : State) (c : Ctx) (f : Info) (h : Hdr) (rows : Rows) (a : RegCode) (bank : BitVec 2),
  let uni : Prop := ∀ l ∈ c.lanes, ∀ m ∈ c.lanes, c.r1 l a = c.r1 m a
  let free (i : Instr) : Prop := c.t.gang ≠ .none → i ≠ .mgangLead h a ∧ i ≠ .mgangJoin h a bank
  let turned (i : Instr) (owns : Prop) : Prop := Ready i s f c → free i → (c.act ≠ 0 → uni) → (i = .mgangLead h a → c.act ≠ 0 →
      gangBad (c.u1 a) c.t.rank (c.t.lrec.w * c.t.lrec.h) = false) →
    (c.cohort ≠ c.g.live → exec i s = .next (c.raise c.cohort 9 0)) ∧
    (c.cohort = c.g.live → ¬ owns → exec i s = .next (c.raise c.cohort 0x0F 0)) ∧
    (c.cohort = c.g.live → owns → c.act = 0 → exec i s = .next (State.commit c f { s := s }))
  turned (.mswap h) (c.t.qmask ≠ 0) ∧ turned (.mzero h rows) (c.t.qmask.getLsbD rows.bank.toNat = true) ∧
  turned (.mgangLead h a) (c.t.qmask ≠ 0) ∧ turned (.mgangJoin h a bank) (c.t.qmask.getLsbD bank.toNat = true) ∧
  turned (.mgangLeave h) (c.t.qmask ≠ 0) ∧
  (∀ i, (i = .mgangLead h a ∨ i = .mgangJoin h a bank) → Ready i s f c → c.t.gang ≠ .none → exec i s = .next (c.raise c.cohort 1 0)) ∧
  (Ready (.mgangLead h a) s f c → c.act ≠ 0 → uni → gangBad (c.u1 a) c.t.rank (c.t.lrec.w * c.t.lrec.h) = true →
    exec (.mgangLead h a) s = .next (c.raise c.cohort 1 0)) ∧
  (c.act ≠ 0 → c.cohort = c.g.live →
    let put (g : Gang) : State := s.setTeam (c.gk / 32) { c.t with gang := g }
    (Ready (.mgangLead h a) s f c → c.t.gang = .none → uni → c.t.qmask ≠ 0 → gangBad (c.u1 a) c.t.rank (c.t.lrec.w * c.t.lrec.h) = false →
      exec (.mgangLead h a) s = .next (State.commit c f { s := (put (.lead (gangRanks (c.u1 a)) false)).gangMeet (c.gk / 32) })) ∧
    (Ready (.mgangJoin h a bank) s f c → c.t.gang = .none → uni → c.t.qmask.getLsbD bank.toNat = true →
      let s' := put (.member ((c.u1 a).toNat % 256) bank.toNat false)
      let met : State := match c.mate ((c.u1 a).toNat % 256) with | some l => s'.gangMeet l | none => s'
      exec (.mgangJoin h a bank) s = .next (State.commit c f { s := met })) ∧
    (Ready (.mgangLeave h) s f c → c.t.qmask ≠ 0 → exec (.mgangLeave h) s =
      .next (if s.gangIdle (c.gk / 32) then State.commit c f { s := s.gangLeave (c.gk / 32) } else { s with cur := none })))) ∧
  (∀ (s : State) (lead : Nat) (t : Team) (ranks : List (Option Nat)) (formed : Bool), s.team? lead = some t → t.gang = .lead ranks formed →
    (∀ e ∈ s.teams, s.team? e.1 = some e.2) →
    let held (r i : Nat) (m : Team) : Prop :=
      s.teams.find? (fun e => decide (e.2.grid = t.grid) && decide (e.2.idx = t.idx - t.rank + r)) = some (i, m)
    let joined (r : Nat) : Prop := ∃ i m b k, held r i m ∧ m.gang = .member t.rank b k
    let u := s.gangMeet lead
    (∃ f', (u.team? lead).map (fun x => x.gang) = some (.lead ranks f') ∧ (f' = true ↔ formed = true ∨ ∀ r ∈ ranks.filterMap id, joined r)) ∧
    (∀ r ∈ ranks.filterMap id, ∀ i m b k, held r i m → m.gang = .member t.rank b k → i ≠ lead →
      u.team? i = some { m with gang := .member t.rank b true }) ∧
    (∀ i, i ≠ lead → (∀ r ∈ ranks.filterMap id, ∀ m, ¬ held r i m) → u.team? i = s.team? i)) ∧
  (∀ (s : State) (tid : Nat) (t : Team), s.team? tid = some t →
    let u := s.gangLeave tid
    let same (m : Team) : Prop := m.grid = t.grid ∧ m.idx - m.rank = t.idx - t.rank
    u.team? tid = some { t with gang := .none } ∧
    (∀ i m, i ≠ tid → s.team? i = some m →
      (∀ ranks f b, t.gang = .lead ranks f → m.gang = .member t.rank b true → same m → u.team? i = some { m with gang := .none }) ∧
      (∀ l b k ranks, t.gang = .member l b k → m.gang = .lead ranks true → m.rank = l → same m →
        u.team? i = some { m with gang := .lead (ranks.map (fun r => if r = some t.rank then none else r)) true }) ∧
      (¬ same m → u.team? i = some m)))

/-- 10 R176, R177, 11 R191: the row of a stream. In each column the exact sums of the eight chunks' products are rounded to binary32 one
after the other and added to the bank word with one rounding each, in ascending order; an integer tile adds every product
modulo 2^32, whatever the chunks. -/
def Obligations.StreamRowAccumulates : Prop := ∀ (w : WPlane) (xs : List Xv) (q : List Word) (n : Nat), q.length = 64 → n < 64 →
  w.sparse = false → (w.cls = 16 ∨ w.cls = 8 ∨ w.cls = 4) → twf 0 w.w = true →
  let m := 128 / w.cls
  let product (k : Nat) : Xv := Xv.mul ((xs[k]?).getD .nan) (fmtX.value (tget 0 w.w (k * 64 + n)))
  let chunk (i : Nat) : Xv := ((List.range (m - 1)).map (fun j => product (i * m + j + 1))).foldl (Xv.add false) (product (i * m))
  let word (v : Word) (i : Nat) : Word := BitVec.ofNat 32 (roundTo fp32 false .rn
    ((fp32.value v.toNat).add false (fp32.value (roundTo fp32 false .rn (chunk i)))))
  (w.int = false → (accRow w xs q)[n]? = some ((List.range 8).foldl word ((q[n]?).getD 0))) ∧
  (w.int = true → (accRow w xs q)[n]? = some ((List.range 8).foldl (fun v i => v + BitVec.ofInt 32 (xToInt (chunk i))) ((q[n]?).getD 0)))

/-- 10 R170, R179, 11 R189 to R194: the steps of the array. The head of a plane's queue completes and leaves it: MLDS_COMPLETE puts the
loaded tile into the shadow plane, MSWAP_WAVEFRONT exchanges the planes, MSTR_ROW_WRITE writes the next row of a stream, and
DRAIN_COMPLETE writes the elements to the scratchpad, or to the registers that still wait for them, and under .z zeroes the rows. Every other plane stands, but that a row of a gang
stream enters the queue of a joined member as the leader's array takes it (10 R181; stated for one member). The order of the queue, the moment at which a gang row
arrives, and that a drain to scratchpad has a first step in which any of its bytes are written, are the model's reading (log entry 30). -/
def Obligations.MatrixQueueCompletes : Prop := ∀ (s : State) (pl : Nat) (rest : List MatOp),
  let p := s.plane pl
  let after (i : Instr) (q : State → Prop) : Prop := ∃ t, exec i s = .next t ∧ (∀ k, k ≠ pl → t.plane k = s.plane k) ∧
    (∀ x, tget 0 t.mem x = tget 0 s.mem x) ∧ q t
  let quiet : Prop := match rest with | .zero .. :: _ | .bias .. :: _ => False | _ => True
  quiet →
  let seen (team : Nat) (tok : Token) : State := s.padSeen team tok.tok
  (∀ tok team cls sp int slot a b c, p.matq = .load tok team cls sp int slot a b c :: rest →
    after (.mldsComplete pl) (fun t => t.plane pl = { p with shadowW := (seen team tok).loadTile team cls sp int slot a b c, matq := rest })) ∧
  (∀ tok, p.matq = .swap tok :: rest →
    after (.mswapWavefront pl) (fun t => t.plane pl = { p with liveW := p.shadowW, shadowW := p.liveW, matq := rest })) ∧
  (∀ tok bank q0 nxt rows set sp slot src team c e, p.matq = .stream tok bank q0 nxt rows set sp slot src team c [] :: rest →
    matFmt slot = some e → p.liveW.sparse = sp → p.liveW.cls = e.2 → p.liveW.int = e.1.isInt →
    let row := accRow p.liveW ((seen team tok).actRow e.1 e.2 sp slot src team c nxt).1
      (if set then List.replicate 64 0 else p.row bank (q0 + nxt))
    after (.mstrRowWrite pl) (fun t =>
      (t.plane pl).banks = (p.setRow bank (q0 + nxt) row).banks ∧ (t.plane pl).liveW = p.liveW ∧
      (t.plane pl).matq = (if nxt + 1 < rows then .stream tok bank q0 (nxt + 1) rows set sp slot src team c [] :: rest else rest))) ∧
  (∀ tok bank q0 nxt rows set sp slot src team c e pos tm b m,
    p.matq = .stream tok bank q0 nxt rows set sp slot src team c [(pos, tm, b)] :: rest → matFmt slot = some e →
    s.team? tm = some m → m.gang.isMember = true → 3 * m.core + m.plane ≠ pl →
    ∃ t, exec (.mstrRowWrite pl) s = .next t ∧ (t.plane (3 * m.core + m.plane)).matq = (s.plane (3 * m.core + m.plane)).matq ++
      [.stream ⟨tok.gk, tok.tok, if nxt + 1 < rows then 0 else maskOf [pos]⟩ b (q0 + nxt) 0 1 set sp slot
        ((seen team tok).readRow e.1 e.2 sp slot src team c nxt) 0 0 []]) ∧
  (∀ tok team bank q0 n x z slot scale a, p.matq = .drain tok team bank q0 n x z slot scale a none false :: rest →
    after (.drainComplete pl) (fun t => t.plane pl = { p with matq := .drain tok team bank q0 n x z slot scale a none true :: rest })) ∧
  (∀ tok team bank q0 n x z slot scale a dest half, p.matq = .drain tok team bank q0 n x z slot scale a dest half :: rest →
    (dest = none → half = true) →
    let e := drainFmt x slot
    let elem (i : Nat) : Nat := (((tspan 0 p.banks (bankAt bank q0) (n * 64)).map (drainElem x slot scale))[i]?).getD 0
    after (.drainComplete pl) (fun t => (t.plane pl).matq = rest ∧
      (t.plane pl).banks = (if z then p.zeroRows bank q0 n else p).banks ∧ (t.plane pl).liveW = p.liveW ∧
      (dest = none → (s.team? team).isSome = true → ∀ i, i < n * 64 * e.width / 8 →
        tget 0 (t.padBytes (.team team)) (a + i) = ((p.drainBytes bank q0 n x slot scale)[i]?).getD 0) ∧
      (∀ d, dest = some d → (s.group tok.gk).ra = none → (tfind s.groups tok.gk).isSome = true → ∀ l j r v, l < 32 →
        tok.lanes.getLsbD l = true → l < (s.group tok.gk).lanes.length → j < n → d + j * drainWidth x slot + r < 224 →
        (drainWords e.width (elem (j * 64 + 2 * l)) (elem (j * 64 + 2 * l + 1)))[r]? = some v →
        (∃ fl, (((s.group tok.gk).lane l).flights.filter (fun y => y.dest = d + j * drainWidth x slot + r)).getLast? = some fl ∧
          fl.tok = tok.tok ∧ fl.due = none) →
        (t.group tok.gk).lastVal l (BitVec.ofNat 8 (d + j * drainWidth x slot + r)) = v)))

/-! ### Synchronisation (14, 15) -/

/-- The value that an atomic of `n` bytes leaves where it found `m`, with its operands `b` and, for CAS, `x` (15 Table 15-4). -/
def atomicResult (op : AtomOp) (n m b x : Nat) : Nat :=
  let sg (v : Nat) : Int := if 2 ^ (8 * n - 1) ≤ v then (v : Int) - 2 ^ (8 * n) else v
  match op with
  | .add => (m + b) % 2 ^ (8 * n)
  | .minS => if sg b < sg m then b else m
  | .maxS => if sg m < sg b then b else m
  | .minU => if b < m then b else m
  | .maxU => if m < b then b else m
  | .and => m &&& b
  | .or => m ||| b
  | .xor => m ^^^ b
  | .exch => b
  | .cas _ => if m = x then b else m
  | .inc => if b ≤ m then 0 else m + 1
  | .dec => if m = 0 ∨ b < m then b else m - 1
  | .fadd => roundTo fp32 false .rn ((fp32.value m).add false (fp32.value b))
  | .fmin => minmaxCode fp32 false m b
  | .fmax => minmaxCode fp32 true m b

/-- 15 R269 to R271, 14 R258: ATOM, RED, RELOP and ATOMS at a local or host home, or at a scratchpad, complete when nothing of the core
is on its way to a home. Where one lane is active, its location holds the result of the operation, D of ATOM, RELOP and ATOMS
the value before it, and no byte beyond the location changes, but in the block of a cell that a release publishes to. -/
def Obligations.AtomicsComplete : Prop := ∀ (s : State) (c : Ctx) (h : Hdr) (op : AtomOp) (sz : AtSize) (ord : Ord4) (sc : Scope) (rel cl : Bool)
    (d a b : RegCode) (T : Nat → Tr) (P : Nat → Pad) (A : Nat → Nat),
  let n := match sz with | .w32 => 4 | .d64 => 8 | .q128 => 16
  let B (l : Nat) : Nat := (c.r4 l b).toNat % 2 ^ (8 * n)
  let X (l : Nat) : Nat := match op with | .cas r => (c.r4 l r).toNat % 2 ^ (8 * n) | _ => 0
  let ws (l m : Nat) : List Wr := match sz with
    | .w32 => wr1 l d (BitVec.ofNat 32 m)
    | .d64 => wr64 l d (BitVec.ofNat 64 m)
    | .q128 => wr128 l d (BitVec.ofNat 128 m)
  let M (l : Nat) : Nat := ofLE (s.homeBytes (T l).tgt n)
  let at' (k : Nat) : Prop := ∀ l ∈ c.lanes, (c.r2 l a).toNat % k = 0 ∧ c.xl .write (c.r2 l a).toNat = .ok (T l) ∧ (T l).tgt.home
  let does (i : Instr) (pub dst : Bool) : Prop := ∀ f, Ready i s f c → ∃ t, exec i s = .next t ∧
    ∀ l, c.lanes = [l] → l < c.g.lanes.length → (c.g.lane l).wait = .none →
      c.g.WroteIn (t.group c.gk) l (if dst then ws l (M l) else []) ∧
      (if pub && isCellAddr (c.r2 l a).toNat then s.OnlyAt t (T l).tgt.block 512
       else t.homeBytes (T l).tgt n = leBytes (atomicResult op n (M l) (B l) (X l)) n ∧ s.OnlyAt t (T l).tgt n)
  (c.calm → at' n → does (.atom h op sz ord sc d a b) (ordRel ord) true ∧ does (.red h op sz rel sc a b) rel false) ∧
  (c.calm → at' 512 → n ≤ 8 → does (.relop h op sz sc d a b) true true) ∧
  ((∀ l ∈ c.lanes, (c.r1 l a).toNat % n = 0 ∧ (if cl then c.clusterLoc n (c.r1 l a).toNat else c.spadLoc n (c.r1 l a).toNat) = .ok (P l, A l)) →
    ∀ f, Ready (.atoms h op sz cl d a b) s f c → ∃ t, exec (.atoms h op sz cl d a b) s = .next t ∧ s.Quiet t c.gk ∧
      ∀ l, c.lanes = [l] → l < c.g.lanes.length →
        let m := readLE (s.padBytes (P l)) (A l) n
        c.g.WroteIn (t.group c.gk) l (ws l m) ∧
        readLE (t.padBytes (P l)) (A l) n = atomicResult op n m (B l) (X l) ∧
        ∀ p x, (p ≠ P l ∨ x < A l ∨ A l + n ≤ x) → tget 0 (t.padBytes p) x = tget 0 (s.padBytes p) x)

/-- 15 R272, R274, R275, R280, 14 R242 to R246, R255: RELST, ACQLD, FENCE, REMACQ, CCTL and SIGRD complete, those that wait when nothing
of the core, or of REMACQ's victim, is on its way to a home; with guard 0 in every lane they complete at once and change nothing.
RELST leaves a lane's value at its home, local or host, where no other lane stores to the same bytes or cell, and changes no byte
beyond the stored ones but in the block of a cell, to which it publishes; ACQLD brings the home's value, leaves no copy of its
sector in L1 and at CLUSTER or wider drops from L1 what the cell's slots name or, at no cell or beyond DEVICE, all of the
function's lines but local STABLE ones; so do FENCE with acquire and REMACQ, the latter in the victim where that core holds
the function. CCTL.ivl and CCTL.ivi leave no line of the active lanes' addresses in L1 and in the instruction cache, CCTL.ivall and
CCTL.iviall none of the function, and none of these changes a byte of memory or a register. 15 R281, 14 R248: SIGRD reads the plane's
ring: which slots hold the line of an address and which have their SAT bit set, the four hash places of a line, or a word of a
slot. That a release drains within its own step, and holds its issue while a request is on its way, are the model's readings (log
entries 24, 26). -/
def Obligations.OrderingInstructionsComplete : Prop :=
  (∀ (s : State) (c : Ctx) (h : Hdr) (sz : WSize) (ord : Ord4) (sc : Scope) (d a b : RegCode) (off : Word) (slot : BitVec 2)
    (word : BitVec 5) (T : Nat → Tr),
  let n := match sz with | .w32 => 4 | .d64 => 8
  let va (l : Nat) : DWord := c.r2 l a
  let line (l : Nat) : DWord := c.r2 l a + off.signExtend 64
  let at' (acc : Acc) : Prop := ∀ l ∈ c.lanes, (va l).toNat % n = 0 ∧ c.xl acc (va l).toNat = .ok (T l) ∧ (T l).tgt.home
  let reach : Prop := ∀ l ∈ c.lanes, c.xl .read (line l).toNat = .ok (T l)
  let done (i : Instr) (P : State → Prop) : Prop := Completes i s c [] [] [] (fun t => s.Quiet t c.gk ∧ P t)
  let kept (t : State) (k : Nat) : Prop := ∀ x ∈ (t.core k).l1, x.func = c.t.func → x.loc = true ∧ x.stable = true
  let reg (l : Nat) : Tgt × Nat := if isCellAddr (va l).toNat then ((T l).tgt.block, 512) else ((T l).tgt, n)
  let apart (x y : Tgt × Nat) : Prop := match x.1, y.1 with
    | .loc p, .loc q | .host p, .host q => p + x.2 ≤ q ∨ q + y.2 ≤ p
    | _, _ => True
  let V : Nat := 160 * ((c.u1 a).toNat / 256) + (c.u1 a).toNat % 256
  let holds (p : Nat) : Prop := p < 3 ∧ (s.plane (3 * V + p)).func = some c.t.func
  (c.act = 0 → ∀ i : Instr, (i = .relst h sz sc a b ∨ i = .acqld h sz sc d a ∨ i = .fence h ord sc ∨ i = .remacq h a ∨
      i = .cctlIvl h a off ∨ i = .cctlIvi h a off ∨ i = .cctlIvall h ∨ i = .cctlIviall h ∨ i = .cctlDrain h ∨ i = .sigrdTest h d a ∨
      i = .sigrdHash h d a ∨ i = .sigrdWord h d slot word) → Completes i s c [] [] [] (s.Quiet · c.gk)) ∧
  (c.calm → at' .write → ∀ f, Ready (.relst h sz sc a b) s f c → ∃ t, exec (.relst h sz sc a b) s = .next t ∧
    (∀ l ∈ c.lanes, (∀ m ∈ c.lanes, m ≠ l → apart (reg m) (reg l)) → t.homeBytes (T l).tgt n = leBytes (c.r2 l b).toNat n) ∧
    (∀ x, (∀ l ∈ c.lanes, ∀ p, (reg l).1 = .loc p → x < p ∨ p + (reg l).2 ≤ x) → tget 0 t.mem x = tget 0 s.mem x) ∧
    (∀ x, (∀ l ∈ c.lanes, ∀ p, (reg l).1 = .host p → x < p ∨ p + (reg l).2 ≤ x) → tget 0 t.hostMem x = tget 0 s.hostMem x) ∧
    t.chip = s.chip ∧ ∀ l, l < c.g.lanes.length → (c.g.lane l).wait = .none → c.g.WroteIn (t.group c.gk) l []) ∧
  (c.calm → at' .read → Completes (.acqld h sz sc d a) s c [] [] (c.lanes.flatMap (fun l => match sz with
      | .w32 => wr1 l d (BitVec.ofNat 32 (ofLE (s.homeBytes (T l).tgt 4)))
      | .d64 => wr64 l d (BitVec.ofNat 64 (ofLE (s.homeBytes (T l).tgt 8))))) (fun t => s.Quiet t c.gk ∧ ∀ l ∈ c.lanes,
    (t.core c.core).l1Hit c.t.func s.epoch (T l).fpa = none ∧
    (3 ≤ sc.code.toNat → (isCellAddr (va l).toNat = false ∨ 6 < sc.code.toNat) → kept t c.core) ∧
    (3 ≤ sc.code.toNat → sc.code.toNat ≤ 6 → isCellAddr (va l).toNat = true → ∀ r ∈ s.cellSlots (T l).tgt.block,
      epochDiff s.epoch r.epoch ≤ 2 → ∀ x ∈ (t.core c.core).l1, x.func = c.t.func → x.loc = true → x.stable = false →
      sigHas r.bits x.line = false ∧ (r.sat = true → 2 < epochDiff r.epoch x.fepoch)))) ∧
  (c.calm → done (.fence h ord sc) (fun t => (ord = .acquire ∨ ord = .acqRel) → 3 ≤ sc.code.toNat → c.act ≠ 0 → kept t c.core)) ∧
  (c.calm → c.act ≠ 0 → (∀ l ∈ c.lanes, ∀ m ∈ c.lanes, c.r1 l a = c.r1 m a) → (c.u1 a).toNat % 256 < 160 → (c.u1 a).toNat < 512 →
    (s.core V).wtb = [] → done (.remacq h a) (fun t => ((∃ p, holds p) → kept t V) ∧ ((¬ ∃ p, holds p) → kept t c.core))) ∧
  (reach → done (.cctlIvl h a off) (fun t => ∀ l ∈ c.lanes, ∀ x ∈ (t.core c.core).l1, x.func = c.t.func → x.line ≠ (T l).fpa / 512)) ∧
  (c.calm → reach → done (.cctlIvi h a off) (fun t => ∀ l ∈ c.lanes, ∀ x ∈ (t.core c.core).icache, x.func = c.t.func →
    x.line / 8 ≠ (T l).fpa / 512)) ∧
  done (.cctlIvall h) (fun t => c.act ≠ 0 → ∀ x ∈ (t.core c.core).l1, x.func ≠ c.t.func) ∧
  (c.calm → done (.cctlIviall h) (fun t => c.act ≠ 0 → ∀ x ∈ (t.core c.core).icache, x.func ≠ c.t.func) ∧
    done (.cctlDrain h) (fun t => (t.core c.core).wtb = []))) ∧
  (∀ (s : State) (c : Ctx) (h : Hdr) (d a : RegCode) (slot : BitVec 2) (word : BitVec 5) (T : Nat → Tr),
  let R (k : Nat) : RSlot := ((s.plane c.plane).ring[k]?).getD {}
  let L (l : Nat) : Nat := (T l).fpa / 512
  let hit (k l : Nat) : Nat := if (R k).bits &&& sigBits (L l) = sigBits (L l) then 2 ^ k else 0
  let full (k : Nat) : Nat := if (R k).sat then 2 ^ (3 + k) else 0
  ((∀ l ∈ c.lanes, c.xl1 (c.r2 l a).toNat = .ok (T l)) →
    Completes (.sigrdTest h d a) s c [] [] (c.lanes.flatMap (fun l =>
      wr1 l d (BitVec.ofNat 32 (hit 0 l + hit 1 l + hit 2 l + full 0 + full 1 + full 2)))) (s.Quiet · c.gk) ∧
    Completes (.sigrdHash h d a) s c [] [] (c.lanes.flatMap (fun l =>
      wr64 l d (BitVec.ofNat 64 (sigHash (L l) 0 + 2 ^ 10 * sigHash (L l) 1 + 2 ^ 20 * sigHash (L l) 2 + 2 ^ 30 * sigHash (L l) 3))))
      (s.Quiet · c.gk)) ∧
  Completes (.sigrdWord h d slot word) s c [] [] (c.lanes.flatMap (fun l =>
    wr1 l d ((R slot.toNat).bits.extractLsb' (32 * word.toNat) 32))) (s.Quiet · c.gk))

/-- 15 R276, R277, R279, 14 R256: BARINIT, BARARV, BARTST, BAREXP and BARDROP of a barrier cell at a local or host home. BARINIT sets it
up with no arrival; an arrival beyond EXPECT, or at a cell that is broken or no barrier, sets BROKEN and writes 0 to P[C]; the phase
passes when ARRIVED reaches EXPECT with nothing pending. What BARINIT does to lanes that are parked, and a cell of KIND 0, are the
model's readings (log entry 25). -/
def Obligations.BarriersComplete : Prop := ∀ (s : State) (c : Ctx) (h : Hdr) (sc : Scope) (grp : Bool) (d p a b : RegCode) (X : Tr),
  let B : Tgt := X.tgt
  let f (s : State) (off n : Nat) : Nat := ofLE (s.homeBytes (B.add off) n)
  let bit (s : State) (i : Nat) : Bool := bitOf (f s 12 2) i
  let n : Nat := if grp then 1 else c.lanes.length
  let V : Nat := (c.u1 b).toNat
  let at' (acc : Acc) : Prop := c.xl acc (c.u2 a).toNat = .ok X ∧ B.home ∧ (c.u2 a).toNat % 512 = 0 ∧
    (∀ l ∈ c.lanes, ∀ m ∈ c.lanes, c.r2 l a = c.r2 m a ∧ c.r1 l b = c.r1 m b)
  let does (i : Instr) (ws : Nat → List Wr) (Q : State → Prop) : Prop := ∀ f, Ready i s f c → ∃ t, exec i s = .next t ∧
    s.OnlyAt t B 512 ∧ Q t ∧
    ∀ l ∈ c.lanes, l < c.g.lanes.length → (c.g.lane l).wait = .none → c.g.WroteIn (t.group c.gk) l (ws l)
  let tested (t : State) (arr ex pend : Nat) : Prop :=
    f t 28 4 = (if arr = ex ∧ pend = 0 then (f s 28 4 + 1) % 2 ^ 32 else f s 28 4) ∧ f t 4 4 = (if arr = ex ∧ pend = 0 then 0 else arr) ∧
    f t 0 4 = ex ∧ f t 32 8 = pend
  let st : Nat := if (let k := (f s 28 4 + 2 ^ 32 - V) % 2 ^ 32; 1 ≤ k ∧ k < 2 ^ 31) then 0 else if bit s 0 || !bit s 8 then 1 else 2
  c.act ≠ 0 → c.calm →
  (at' .write → does (.barinit h a b) (fun _ => []) (fun t => f t 0 4 = V ∧ f t 4 4 = 0 ∧ f t 28 4 = f s 28 4 ∧ f t 32 8 = 0 ∧
      bit t 8 = true ∧ bit t 0 = decide (V = 0) ∧ f t 40 4 = (f s 40 4 + 1) % 2 ^ 32)) ∧
  (at' .write → bit s 8 = true → bit s 0 = false → f s 4 4 + n ≤ f s 0 4 → does (.bararv h grp sc d p a)
    (fun l => wr1 l d (BitVec.ofNat 32 (f s 28 4)) ++ wrP l p true) (fun t => tested t (f s 4 4 + n) (f s 0 4) (f s 32 8))) ∧
  (at' .write → (bit s 8 = false ∨ bit s 0 = true ∨ f s 0 4 < f s 4 4 + n) → does (.bararv h grp sc d p a)
    (fun l => wr1 l d (BitVec.ofNat 32 (f s 28 4)) ++ wrP l p false) (fun t => bit t 0 = true ∧ f t 4 4 = f s 4 4)) ∧
  (at' .read → does (.bartst h sc d p a b) (fun l => wr1 l d (BitVec.ofNat 32 st) ++ wrP l p (decide (st = 0)))
    (fun t => f t 28 4 = f s 28 4 ∧ f t 4 4 = f s 4 4 ∧ bit t 0 = (bit s 0 || !bit s 8))) ∧
  (at' .write → bit s 8 = true → does (.barexp h a b) (fun _ => []) (fun t => tested t (f s 4 4) (f s 0 4) ((f s 32 8 + V) % 2 ^ 64))) ∧
  (at' .write → bit s 8 = true → f s 4 4 + n ≤ f s 0 4 → does (.bardrop h grp a) (fun _ => [])
    (fun t => tested t (f s 4 4) (f s 0 4 - n) (f s 32 8) ∧ f t 40 4 = (f s 40 4 + 1) % 2 ^ 32)) ∧
  (at' .write → (bit s 8 = false ∨ f s 0 4 < f s 4 4 + n) → does (.bardrop h grp a) (fun _ => []) (fun t => bit t 0 = true ∧ f t 0 4 = f s 0 4))

/-- 15 R267, R273, R278: the waits. A lane of ACQWT whose location satisfies the comparison goes on with status 0 and P[C] = 1; one
that watches a broken sync cell with status 1 and 0; any other parks. BARWT does the same with the passing of its phase. -/
def Obligations.WaitsParkOrGoOn : Prop := ∀ (s : State) (c : Ctx) (h : Hdr) (m : Cmp) (sz : WSize) (sc : Scope) (d p a b : RegCode) (T : Nat → Tr) (X : Tr),
  let n := match sz with | .w32 => 4 | .d64 => 8
  let V (l : Nat) : Nat := ofLE (s.homeBytes (T l).tgt n)
  let O (l : Nat) : Nat := (c.r2 l b).toNat % 2 ^ (8 * n)
  let sg (v : Nat) : Int := if 2 ^ (8 * n - 1) ≤ v then (v : Int) - 2 ^ (8 * n) else v
  let meets (l : Nat) : Bool := match m with
    | .ltS => decide (sg (V l) < sg (O l)) | .leS => decide (sg (V l) ≤ sg (O l)) | .gtS => decide (sg (O l) < sg (V l))
    | .geS => decide (sg (O l) ≤ sg (V l)) | .eq | .eqU => decide (V l = O l) | .ne | .neU => decide (V l ≠ O l)
    | .ltU => decide (V l < O l) | .leU => decide (V l ≤ O l) | .gtU => decide (O l < V l) | .geU => decide (O l ≤ V l)
  let broken (l : Nat) : Bool := isCellAddr (c.r2 l a).toNat && !s.cellKind (T l).tgt.block && s.cellBroken (T l).tgt.block
  let goesOn (t : State) (l st : Nat) : Prop := c.g.WroteIn (t.group c.gk) l (wr1 l d (BitVec.ofNat 32 st) ++ wrP l p (decide (st = 0))) ∧
    ((t.group c.gk).lane l).wait = .none ∧ ((t.group c.gk).lane l).pc = nextPc (c.g.lane l).pc
  let waits (t : State) (l : Nat) : Prop := c.g.WroteIn (t.group c.gk) l [] ∧ ((t.group c.gk).lane l).wait ≠ .none ∧
    ((t.group c.gk).lane l).resume = nextPc (c.g.lane l).pc
  let at' (l : Nat) : Prop := l < c.g.lanes.length ∧ (c.g.lane l).wait = .none
  c.calm → (∀ l ∈ c.lanes, at' l) →
  ((∀ l ∈ c.lanes, (c.r2 l a).toNat % n = 0 ∧ c.xl .read (c.r2 l a).toNat = .ok (T l) ∧ (T l).tgt.home) →
    ∀ f, Ready (.acqwt h m sz sc d a b p) s f c → ∃ t, exec (.acqwt h m sz sc d a b p) s = .next t ∧ s.Quiet t c.gk ∧
      ∀ l ∈ c.lanes, if broken l then goesOn t l 1 else if meets l then goesOn t l 0 else waits t l) ∧
  (c.act ≠ 0 → c.xl .read (c.u2 a).toNat = .ok X → X.tgt.home → (c.u2 a).toNat % 512 = 0 → s.cellKind X.tgt = true →
    (∀ l ∈ c.lanes, ∀ m ∈ c.lanes, c.r2 l a = c.r2 m a ∧ c.r1 l b = c.r1 m b) →
    let k := (ofLE (s.homeBytes (X.tgt.add 28) 4) + 2 ^ 32 - (c.u1 b).toNat) % 2 ^ 32
    ∀ f, Ready (.barwt h sc d p a b) s f c → ∃ t, exec (.barwt h sc d p a b) s = .next t ∧ s.Quiet t c.gk ∧
      ∀ l ∈ c.lanes, if 1 ≤ k ∧ k < 2 ^ 31 then goesOn t l 0 else if s.cellBroken X.tgt then goesOn t l 1 else waits t l)

/-! ### Engine commands and children (17, 18), the fabric's own instructions (25, 26) -/

/-- What a command does when its card forms: the card is last in the queue of its die's scheduler, its tag counts one card more and
is not ready, and no register of the group and no byte of memory has changed. -/
def Formed (s : State) (c : Ctx) (i : Instr) (tag : Option (BitVec 6)) (x : Card) : Prop :=
  Completes i s c [] [] [] (fun t => s.Quiet t c.gk ∧
    (t.die (c.core / 160)).cardQ = (s.die (c.core / 160)).cardQ ++ [{ x with sig := (s.plane c.plane).ring.map (fun r => { epoch := r.epoch }) }] ∧
    t.nextCard = s.nextCard + 1 ∧
    match tag with
    | some n => tget 0 (t.plane c.plane).tagCount n.toNat = tget 0 (s.plane c.plane).tagCount n.toNat + 1 ∧
        (t.plane c.plane).tagReady.getLsbD n.toNat = false
    | none => t.plane c.plane = s.plane c.plane)

/-- There is room for a card of the team on its die and under its tag, the tag is the team's (17 R299, R302, 18 R313), and the lanes' earlier
loads have returned (14 R242). -/
def CardRoom (s : State) (c : Ctx) (tag : Option (BitVec 6)) : Prop :=
  (s.die (c.core / 160)).inFlight none < 1024 ∧ (s.die (c.core / 160)).inFlight (some c.t.func) < 256 ∧ c.loadsOut = false ∧
  match tag with
  | some n => tget 0 (s.plane c.plane).tagCount n.toNat < 255 ∧ c.t.tagBase ≤ n.toNat ∧ n.toNat < c.t.tagBase + c.t.lrec.tags
  | none => True

/-- 18 R313 to R317, R318 to R322: XCOPY, XGATH, XSCAT, XPACK, XUNPK and XFILL. With uniform operands, valid records at aligned addresses
that translate, an aligned counter that stage 1 lets be written, and a coordinate run that is uniform and inside its register file,
the command forms one card with everything it read, as one step. -/
def Obligations.CommandsFormCards : Prop := ∀ (s : State) (c : Ctx) (h : Hdr) (cmd : Cmd) (slot : BitVec 3) (cvd : CvD) (cv : Cv) (sat auto : Bool)
    (d a b cc : RegCode) (R : Nat → List Byte) (regs : List RegCode),
  let U (r : RegCode) : Nat := (c.u2 r).toNat
  let uni (r : RegCode) : Prop := ∀ l ∈ c.lanes, ∀ m ∈ c.lanes, c.r2 l r = c.r2 m r
  let vd : Nat := if d = 255 then 0 else U d
  let rec' (x : Nat) : Prop := x % 64 = 0 ∧ c.recRead x 64 = .ok (R x) ∧ (viewOf (R x) []).isSome = true
  let a2 := (U a + 64) % 2 ^ 64
  let b2 := (U b + 64) % 2 ^ 64
  let sl : DWord := c.t.lrec.slot slot.toNat
  let sck : Bool := decide (slotSck sl ≠ 0)
  let imm : Nat := cmd.scope.code.toNat * 256 + (if cmd.bar then 128 else 0) + (match cmd.tag with | some t => 64 + t.toNat | none => 0)
  let run (k : Nat) : Prop := coordRun c.t.lrec.regs cc k = some regs ∧ c.coordTrap h regs = none ∧ (cc.toNat < 224 → cc.toNat < c.t.lrec.regs)
  let card (maj fn imm : Nat) (pattern slot : DWord) (srec drec xrec : List Byte) : Card :=
    { id := s.nextCard, func := c.t.func, team := c.gk / 32, tidx := c.t.idx, plane := c.plane, core := c.core, maj := maj, fn := fn,
      imm := imm, sup := c.sup, pattern := pattern, slot := slot, counter := vd, orig := regs.map (fun r => (c.u1 r).toInt),
      srec := srec, drec := drec, xrec := xrec }
  let forms (i : Instr) (x : Card) : Prop := x.recordsOk = true → Formed s c i cmd.tag x
  let two : Prop := rec' (U a) ∧ rec' (U b) ∧ run (recRank (R (U a)) + recRank (R (U b)))
  c.act ≠ 0 → uni a → uni b → uni d → vd % (if cmd.bar then 512 else 8) = 0 → CardRoom s c cmd.tag →
  (vd = 0 ∨ ∃ t, c.xl .write vd = .ok t) →
  (two → forms (.xcopy h cmd d a b cc) (card 0xC0 0 imm 0 0 (R (U a)) (R (U b)) [])) ∧
  (two → rec' a2 → forms (.xgath h cmd d a b cc) (card 0xC1 0 imm 0 0 (R (U a)) (R (U b)) (R a2))) ∧
  (two → rec' b2 → forms (.xscat h cmd d a b cc) (card 0xC2 0 imm 0 0 (R (U a)) (R (U b)) (R b2))) ∧
  (two → (sck = true → rec' b2) → c.packIll slot = false → (auto = true → slotSck sl = 1) →
    forms (.xpack h cvd sat auto cmd slot d a b cc) (card 0xC3
      ((match cvd with | .rn => 0 | .rz => 1 | .ro => 2 | .slot => 3) + (if sat then 4 else 0) + (if auto then 8 else 0))
      (slot.toNat * 4096 + imm) 0 sl (R (U a)) (R (U b)) (if sck then R b2 else []))) ∧
  (two → (sck = true → rec' a2) → c.packIll slot = false →
    forms (.xunpk h cv sat cmd slot d a b cc) (card 0xC4 ((match cv with | .rn => 0 | .rz => 1 | .ro => 2) + (if sat then 4 else 0))
      (slot.toNat * 4096 + imm) 0 sl (R (U a)) (R (U b)) (if sck then R a2 else []))) ∧
  (rec' (U b) → run (recRank (R (U b))) → forms (.xfill h cmd d a b cc) (card 0xC5 0 imm (c.u2 a) 0 [] (R (U b)) []))

/-- 26 R445 to R448, R439, R441, 25 R429: XRESH, XRED.push and XMCAST form a collective card of the function's mesh from their records.
XRED.cancel ends, with status REFUSED, the function's collective cards of its record's handle that have a slot to ask for and have pushed
nothing, and no other card; where the function has no card of the handle it asks the switch to cancel the handle's persistent channel
(DEDUCED, log entry 62). PFENCE completes at once where every remote request that its group has issued before it, to the VDN that it
names if it names one, is answered; else it stands in the group's list of fences, outstanding, until then. -/
def Obligations.CollectiveInstructionsComplete : Prop := ∀ (s : State) (c : Ctx) (h : Hdr) (cmd : ReshCmd) (sc : Scope) (tag : Option (BitVec 6))
    (d a b cc : RegCode) (R : Nat → List Byte),
  let U (r : RegCode) : Nat := (c.u2 r).toNat
  let uni2 (r : RegCode) : Prop := ∀ l ∈ c.lanes, ∀ m ∈ c.lanes, c.r2 l r = c.r2 m r
  let uni1 (r : RegCode) : Prop := ∀ l ∈ c.lanes, ∀ m ∈ c.lanes, c.r1 l r = c.r1 m r
  let rec' (x : Nat) : Prop := x % 64 = 0 ∧ c.recRead x 64 = .ok (R x)
  let vd : Nat := if d = 255 then 0 else U d
  let imm (sc : Scope) (tag : Option (BitVec 6)) : Nat := sc.code.toNat * 256 + (match tag with | some t => 64 + t.toNat | none => 0)
  let card (maj fn imm counter : Nat) (orig : List Int) (srec drec : List Byte) : Card :=
    { id := s.nextCard, func := c.t.func, team := c.gk / 32, tidx := c.t.idx, plane := c.plane, core := c.core, maj := maj, fn := fn,
      imm := imm, sup := c.sup, counter := counter, orig := orig, srec := srec, drec := drec }
  let resh := card 0xE0 (if cmd.pers then 1 else 0) (imm cmd.scope cmd.tag) vd [0, 0, 0] (R (U a)) (R (U b))
  let tiles (maj : Nat) := card maj 0 (imm sc tag) 0 [((c.u1 b).toNat : Int), ((c.u1 cc).toNat : Int), 0] (R (U a)) []
  let okTiles (maj : Nat) : Prop := ∃ r m x, s.redOf (tiles maj) = some (r, m, x) ∧ (c.u1 cc).toNat ≠ 0 ∧
    (c.u1 b).toNat + (c.u1 cc).toNat ≤ r.alg.ntile
  c.act ≠ 0 →
  ((s.meshOf c.t.func).isSome = true →
    (uni2 a → uni2 b → uni2 d → rec' (U a) → rec' (U b) → (vd = 0 ∨ ∃ t, c.xl .write vd = .ok t) → vd % (if cmd.pers then 16 else 8) = 0 →
      (cmd.pers = true → d ≠ 255) → (s.reshOf resh).isSome = true → CardRoom s c cmd.tag → Formed s c (.xresh h cmd d a b) cmd.tag resh) ∧
    (uni2 a → uni1 b → uni1 cc → rec' (U a) → CardRoom s c tag →
      (okTiles 0xE1 → Formed s c (.xredPush h sc tag a b cc) tag (tiles 0xE1)) ∧
      (okTiles 0xE2 → Formed s c (.xmcast h sc tag a b cc) tag (tiles 0xE2))) ∧
    (uni2 a → rec' (U a) → ∀ r m x, s.redOf (card 0xE1 0 0 0 [] (R (U a)) []) = some (r, m, x) →
      let of' (y : Card) : Prop := y.func = c.t.func ∧ (s.slotOf y).map (fun x => x.1) = some r.handle
      let ends (y : Card) : Prop := of' y ∧ y.unpushed = true
      Completes (.xredCancel h a) s c [] [] [] (fun t => s.Quiet t c.gk ∧
        (∀ y ∈ s.allCards, ends y → (∀ z ∈ s.allCards, z.id = y.id → z = y) →
          ∃ y' ∈ t.allCards, y'.id = y.id ∧ (∃ e, y'.st = .finished e) ∧ y'.status = max y.status 3) ∧
        (∀ y ∈ s.allCards, (∀ z ∈ s.allCards, z.id = y.id → ¬ ends z) → y ∈ t.allCards)) ∧
      ((∀ y ∈ s.allCards, ¬ of' y) →
        Does (.xredCancel h a) s c { s := c.dropRbuf (s.cancelSlot c.t.func r.handle 0 true r.alg) }))) ∧
  (∀ vdn : Option RegCode, (∀ r, vdn = some r → uni1 r) →
    let v : Option Nat := vdn.map (fun r => (c.u1 r).toNat % 4096)
    let out : Bool := s.groupRemote c.core c.gk s.nextTok (fun x => v.all (fun y => decide (y = x)))
    (out = false → Completes (.pfence h vdn) s c [] [] [] (fun t => s.Quiet t c.gk ∧ (t.group c.gk).fences = c.g.fences)) ∧
    (out = true → ∀ f, Ready (.pfence h vdn) s f c → ∃ t, exec (.pfence h vdn) s = .next t ∧ s.Quiet t c.gk ∧
      c.g.Wrote (t.group c.gk) [] ∧ (t.group c.gk).fences = c.g.fences ++ [⟨s.nextTok, c.act, v⟩] ∧
      ⟨s.nextTok, f.h.wsb.toNat, c.act⟩ ∈ (t.group c.gk).outs))

/-- 18 R324, R325, 17 R302: the tag instructions on a mask inside the team's range. WTANY and WTALL go on with the lowest ready tag and its
status, or the greatest status of all, and else park; FFRDY answers at once; TAGCLR clears the tags that no card is counted on. 18 R326 to R328, 17 R304, R305, 26 R448: CNTWT and CWAIT go on with their status where the counter or the channel is far enough and
else park; RNGINIT writes the five fields of a range object, and RNGNXT hands out its next chunk and moves NEXT. -/
def Obligations.TagCounterAndRangeInstructions : Prop :=
  (∀ (s : State) (c : Ctx) (h : Hdr) (d a : RegCode),
  let p := s.plane c.plane
  let m : DWord := c.u2 a
  let hits : List Nat := (List.range 64).filter (fun t => m.getLsbD t && p.tagReady.getLsbD t)
  let st (t : Nat) : Nat := tget 0 p.tagStatus t
  let low : Word := match hits with | t :: _ => BitVec.ofNat 32 (t + 256 * st t) | [] => 0x80000000
  let top : Nat := hits.foldl (fun x t => max x (st t)) 0
  let parked (i : Instr) (all : Bool) : Prop := ∀ f, Ready i s f c → ∃ t, exec i s = .next t ∧ s.Quiet t c.gk ∧
    ∀ l ∈ c.lanes, l < c.g.lanes.length → ((t.group c.gk).lane l).wait = .tags all m d
  c.act ≠ 0 → (∀ l ∈ c.lanes, ∀ n ∈ c.lanes, c.r2 l a = c.r2 n a) → m &&& ~~~c.t.tagMask = 0 →
  (hits ≠ [] → Completes (.wtany h d a) s c [] [] (c.lanes.flatMap (fun l => wr1 l d low)) (s.Quiet · c.gk)) ∧
  (hits = [] → m ≠ 0 → parked (.wtany h d a) false) ∧
  (m &&& ~~~p.tagReady = 0 → Completes (.wtall h d a) s c [] [] (c.lanes.flatMap (fun l => wr1 l d (BitVec.ofNat 32 top))) (s.Quiet · c.gk)) ∧
  (m &&& ~~~p.tagReady ≠ 0 → parked (.wtall h d a) true) ∧
  Completes (.ffrdy h d a) s c [] [] (c.lanes.flatMap (fun l => wr1 l d low)) (s.Quiet · c.gk) ∧
  Completes (.tagclr h a) s c [] [] [] (fun t => s.Quiet t c.gk ∧ ∀ n, n < 64 →
    let free := m.getLsbD n && decide (tget 0 p.tagCount n = 0)
    (t.plane c.plane).tagReady.getLsbD n = (p.tagReady.getLsbD n && !free) ∧
    tget 0 (t.plane c.plane).tagStatus n = (if free then 0 else st n) ∧ tget 0 (t.plane c.plane).tagCount n = tget 0 p.tagCount n)) ∧
  (∀ (s : State) (c : Ctx) (h : Hdr) (sc : Scope) (d p a b : RegCode) (T : Nat → Tr),
  let H (l off n : Nat) (s : State) : Nat := ofLE (s.homeBytes ((T l).tgt.add off) n)
  let at' (acc : Acc) (n : Nat) : Prop := ∀ l ∈ c.lanes, (c.r2 l a).toNat % n = 0 ∧ c.xl acc (c.r2 l a).toNat = .ok (T l) ∧ (T l).tgt.home ∧
    l < c.g.lanes.length ∧ (c.g.lane l).wait = .none
  let goesOn (t : State) (l : Nat) (ws : List Wr) : Prop := c.g.WroteIn (t.group c.gk) l ws ∧ ((t.group c.gk).lane l).wait = .none ∧
    ((t.group c.gk).lane l).pc = nextPc (c.g.lane l).pc
  let waits (t : State) (l : Nat) : Prop := c.g.WroteIn (t.group c.gk) l [] ∧ ((t.group c.gk).lane l).wait ≠ .none
  let broken (l : Nat) : Bool := isCellAddr (c.r2 l a).toNat && !s.cellKind (T l).tgt.block && s.cellBroken (T l).tgt.block
  c.calm →
  (at' .read 8 → ∀ f, Ready (.cntwt h sc d p a b) s f c → ∃ t, exec (.cntwt h sc d p a b) s = .next t ∧ s.Quiet t c.gk ∧ ∀ l ∈ c.lanes,
    if broken l then goesOn t l (wr1 l d 1 ++ wrP l p false)
    else if (c.r2 l b).toNat ≤ H l 0 8 s then goesOn t l (wr1 l d 0 ++ wrP l p true) else waits t l) ∧
  (at' .read 16 → ∀ f, Ready (.cwait h sc d p a b) s f c → ∃ t, exec (.cwait h sc d p a b) s = .next t ∧ s.Quiet t c.gk ∧ ∀ l ∈ c.lanes,
    let n := (H l 4 4 s + 2 ^ 32 - (c.r1 l b).toNat) % 2 ^ 32
    if 1 ≤ n ∧ n < 2 ^ 31 then goesOn t l (wr1 l d (BitVec.ofNat 32 (256 * (H l 8 4 s % 4))) ++ wrP l p (decide (H l 8 4 s % 4 = 0)))
    else waits t l) ∧
  (at' .write 32 →
    (∀ f, Ready (.rnginit h d a b p) s f c → ∃ t, exec (.rnginit h d a b p) s = .next t ∧ ∀ l, c.lanes = [l] →
      s.OnlyAt t (T l).tgt 32 ∧ H l 0 8 t = (c.r2 l b).toNat ∧ H l 8 8 t = ((c.r2 l b).toNat + (c.r2 l p).toNat) % 2 ^ 64 ∧
      H l 16 4 t = (c.r2 l d).toNat % 2 ^ 32 ∧ H l 20 4 t = (c.r2 l d).toNat / 2 ^ 32 ∧ H l 24 8 t = 0) ∧
    (∀ f, Ready (.rngnxt h d a) s f c → ∃ t, exec (.rngnxt h d a) s = .next t ∧ ∀ l, c.lanes = [l] →
      let nx := H l 0 8 s
      let stop := H l 8 8 s
      let pw := H l 16 4 s
      let mc := H l 20 4 s
      let len := if pw = 0 ∨ mc = 0 ∨ stop ≤ nx then 0 else min (stop - nx) (max mc ((stop - nx + pw - 1) / pw))
      s.OnlyAt t (T l).tgt 8 ∧ H l 0 8 t = nx + len ∧
      c.g.WroteIn (t.group c.gk) l (wr64 l d (BitVec.ofNat 64 nx) ++ wr64 l (codeAdd d 2) (BitVec.ofNat 64 len)))))

/-- 18 R329, R331, 17 R306, R309: a lane of LAUNCH or LAUNCH.wait offers the record at its own address: a record that 08 R140 refuses gets
status 2 and changes no count; with room in the pool a new grid of the team's function stands in it, the team's count rises and the
status is 0; with room in neither the pool nor the spill area LAUNCH gets status 1 and LAUNCH.wait parks. CJOIN goes on while the team's count is 0 and else parks. -/
def Obligations.ChildrenComplete : Prop := ∀ (s : State) (c : Ctx) (h : Hdr) (wait : Bool) (d a : RegCode) (l : Nat) (bs : List Byte),
  (c.calm → c.lanes = [l] → (c.r2 l a).toNat % 128 = 0 → c.recRead (c.r2 l a).toNat 128 = .ok bs → ∀ p g, c.fn.part = some p →
    s.grid? c.t.grid = some g → s.spillHold (c.gk / 32) 1 = none →
    (recOk bs = false → Completes (.launch h wait d a) s c [] [] (wr1 l d 2) (fun t => s.Quiet t c.gk ∧ t.grids = s.grids)) ∧
    (recOk bs = true → g.spillRoom = false → (s.prt p).pool.length = 4096 →
      (wait = false → Completes (.launch h wait d a) s c [] [] (wr1 l d 1) (s.Quiet · c.gk)) ∧
      (wait = true → ∀ f, Ready (.launch h wait d a) s f c → ∃ t, exec (.launch h wait d a) s = .next t ∧ s.Quiet t c.gk ∧
        (l < c.g.lanes.length → ((t.group c.gk).lane l).wait = .launch bs d))) ∧
    (recOk bs = true → s.launchAhead c.t.grid s.nextTok = false → c.t.children < 2 ^ 32 - 1 → g.spillHead = g.spillTail → (s.prt p).pool.length < 4096 → (tfind s.grids s.nextGrid).isNone = true →
      Completes (.launch h wait d a) s c [] [] (wr1 l d 0) (fun t => s.Quiet t c.gk ∧
        (t.team? (c.gk / 32)).map (fun x => x.children) = some (c.t.children + 1) ∧
        (t.prt p).pool = (s.prt p).pool ++ [s.nextGrid] ∧
        (t.grid? s.nextGrid).map (fun x => (x.func, x.lrec, x.parent)) = some (c.t.func, recFields bs, some (c.gk / 32))))) ∧
  (c.act ≠ 0 → (c.calm → c.t.children = 0 → Completes (.cjoin h) s c [] [] [] (s.Quiet · c.gk)) ∧
    (c.t.children ≠ 0 → ∀ f, Ready (.cjoin h) s f c → ∃ t, exec (.cjoin h) s = .next t ∧ s.Quiet t c.gk ∧
      ∀ k ∈ c.lanes, k < c.g.lanes.length → ((t.group c.gk).lane k).wait = .cjoin))

/-! ### System instructions (19) -/

/-- 19 R333, R334, R347: MOVX and MOVXW read every register of Table 19-1, low 32 bits or all of it; MOVX.w and MOVXW.w write a lane's
own registers, the reserved and read-only fields of XCAUSE and XSTATE staying as they are; a code without a register, and a write
that the table does not allow, raise ILLEGAL. -/
def Obligations.SupervisorRegisters : Prop := ∀ (s : State) (c : Ctx) (f : Info) (h : Hdr) (d a : RegCode) (code : BitVec 12),
  let F := c.fn
  let V (l : Nat) : Option DWord :=
    let x := c.g.lane l
    match code.toNat with
    | 0x000 => some F.xvec | 0x001 => some x.xpc | 0x002 => some x.xnpc | 0x003 => some x.xaddr
    | 0x004 => some (x.xcause.setWidth 64) | 0x005 => some (x.xstate.setWidth 64)
    | 0x008 => some (tget 0 x.xsave 0) | 0x009 => some (tget 0 x.xsave 1) | 0x00A => some (tget 0 x.xsave 2) | 0x00B => some (tget 0 x.xsave 3)
    | 0x010 => some F.lpbase | 0x011 => some (BitVec.ofNat 64 F.lpsize) | 0x012 => some (BitVec.ofNat 64 F.lpteams)
    | 0x018 => some F.fqbase | 0x019 => some (BitVec.ofNat 64 F.fqlen)
    | 0x01A => some (F.fqhead.setWidth 64) | 0x01B => some (F.fqtail.setWidth 64)
    | _ => none
  let wide : Bool := [1, 2, 3, 8, 9, 0xA, 0xB].contains code.toNat
  let narrow : Bool := [4, 5].contains code.toNat
  let written (i : Instr) (v : Nat → DWord) : Prop := ∀ f, Ready i s f c → ∃ t, exec i s = .next t ∧ s.Quiet t c.gk ∧
    ∀ l ∈ c.lanes, l < c.g.lanes.length → (c.g.lane l).wait = .none →
      let x := c.g.lane l
      let y := (t.group c.gk).lane l
      y.pc = nextPc x.pc ∧
      y.xpc = (if code.toNat = 1 then v l else x.xpc) ∧ y.xnpc = (if code.toNat = 2 then v l else x.xnpc) ∧
      y.xaddr = (if code.toNat = 3 then v l else x.xaddr) ∧
      y.xcause = (if code.toNat = 4 then (v l).setWidth 32 &&& 0xFFFF else x.xcause) ∧
      (code.toNat ≠ 5 → y.xstate = x.xstate) ∧
      (code.toNat = 5 → y.sup = x.sup ∧ y.nest = x.nest ∧ y.psup = (v l).getLsbD 1 ∧ y.chk = (v l).getLsbD 2 ∧
        y.raoff = (v l).getLsbD 4 ∧ y.xstate.toNat < 32) ∧
      ∀ k, k < 4 → tget 0 y.xsave k = (if code.toNat = 8 + k then v l else tget 0 x.xsave k)
  (∀ v : Nat → DWord, (∀ l ∈ c.lanes, V l = some (v l)) → (V 0).isSome = true →
    Gives (.movx h d code) s c (fun l => wr1 l d ((v l).setWidth 32)) ∧ Gives (.movxw h d code) s c (fun l => wr64 l d (v l))) ∧
  (V 0 = none → ∀ i, (i = .movx h d code ∨ i = .movxw h d code) → Ready i s f c → exec i s = .next (c.raise c.cohort 1 0)) ∧
  (narrow = true → written (.movxW h a code) (fun l => (c.r1 l a).setWidth 64)) ∧
  (wide = true ∨ narrow = true → written (.movxwW h a code) (fun l => c.r2 l a)) ∧
  (narrow = false → Ready (.movxW h a code) s f c → exec (.movxW h a code) s = .next (c.raise c.cohort 1 0)) ∧
  (narrow = false → wide = false → Ready (.movxwW h a code) s f c → exec (.movxwW h a code) s = .next (c.raise c.cohort 1 0))

/-- 19 R348, R349, R351, R352: TLBIV and TLBIA leave no cached stage-1 translation of the function that covers an active lane's address, or
none at all, in any core or die; HALTT.others halts the team but for its own cohort and .release lets it go on; FLTQ.ack consumes
records, and FLTQ.resume and .fail let every paused card of the function run or end, but that one whose fault record is not written yet goes on once
it is (R338); DUMPR writes the item its selector names. 19 R350: XDRAIN. With no card of the team in flight .wait and .cancel complete at once; else they stay outstanding until the cards
formed so far have completed, and .cancel leaves no card of the team that goes on: each has ended with status 2 or more, or ends with the
segment that it carries, and none of them increments a counter. -/
def Obligations.SystemInstructionsComplete : Prop :=
  (∀ (s : State) (c : Ctx) (h : Hdr) (d a : RegCode) (off : Word),
  let page (l : Nat) : Nat := (c.r2 l a + off.signExtend 64).toNat / 2 ^ 16 % 2 ^ 39
  let gone (t : State) (p : TlbE → Prop) : Prop :=
    (∀ k, ∀ e ∈ (t.core k).tlb.s1, e.func = c.t.func → ¬ p e) ∧ ∀ k, ∀ e ∈ (t.die k).tlb.s1, e.func = c.t.func → ¬ p e
  (c.act ≠ 0 → c.calm →
    Completes (.tlbiv h a off) s c [] [] [] (fun t => s.Quiet t c.gk ∧ gone t (fun e => ∃ l ∈ c.lanes, e.base ≤ page l ∧ page l < e.base + e.len)) ∧
    Completes (.tlbia h) s c [] [] [] (fun t => s.Quiet t c.gk ∧ gone t (fun _ => True))) ∧
  (c.act ≠ 0 → (∀ f, Ready (.halttOthers h) s f c → ∃ t, exec (.halttOthers h) s = .next t ∧
      (∀ x, tget 0 t.mem x = tget 0 s.mem x) ∧ (t.team? (c.gk / 32)).map (fun x => x.halter) = some (some (c.gk % 32)) ∧
      ((tfind s.groups c.gk).isSome = true → (t.group c.gk).halted = c.g.halted ||| (c.g.live &&& ~~~c.cohort)) ∧
      (∀ k, k ≠ c.gk → k / 32 = c.gk / 32 → (t.group k).halted = (s.group k).live) ∧ ∀ k, k / 32 ≠ c.gk / 32 → t.group k = s.group k) ∧
    (∀ f, Ready (.halttRelease h) s f c → ∃ t, exec (.halttRelease h) s = .next t ∧
      (t.team? (c.gk / 32)).map (fun x => x.halter) = some none ∧
      (∀ k, k / 32 = c.gk / 32 → (tfind s.groups k).isSome = true → (t.group k).halted = 0) ∧ ∀ k, k / 32 ≠ c.gk / 32 → t.group k = s.group k)) ∧
  ((∀ l ∈ c.lanes, ∀ m ∈ c.lanes, c.r1 l a = c.r1 m a) → c.act ≠ 0 →
    (s.allCards = [] → Completes (.fltqAck h a) s c [] [] [] (fun t => s.Quiet t c.gk ∧
      ((t.func c.t.func).fqhead - c.fn.fqhead).toNat = min (c.u1 a).toNat (c.fn.fqtail - c.fn.fqhead).toNat ∧ (t.func c.t.func).fqtail = c.fn.fqtail))) ∧
  (c.act ≠ 0 → Completes (.fltqResume h) s c [] [] [] (fun t => s.Quiet t c.gk ∧
      ∀ x ∈ t.allCards, x.func = c.t.func → ∀ e va u, x.st = .paused e va u → u = true ∧ x.again = true) ∧
    Completes (.fltqFail h) s c [] [] [] (fun t => s.Quiet t c.gk ∧
      ∀ x ∈ t.allCards, x.func = c.t.func → ∀ e va u, x.st ≠ .paused e va u)) ∧
  (∀ X : Nat → Nat × Nat × Nat, (∀ l ∈ c.lanes, c.dumpSel (c.r1 l a) = some (X l) ∧
      (s.group (32 * (c.gk / 32) + (X l).2.1)).writing (1#32 <<< (X l).1) = false ∧
      c.dumpMark (X l).1 (X l).2.1 (X l).2.2 = none) →
    Gives (.dumpr h d a) s c (fun l => wr1 l d (c.dumpVal (X l).1 (X l).2.1 (X l).2.2)))) ∧
  (∀ (s : State) (c : Ctx) (h : Hdr), c.act ≠ 0 →
  let tok : Token := ⟨c.gk, s.nextTok, c.act⟩
  ((∀ x ∈ s.allCards, x.team ≠ c.gk / 32) →
    Completes (.xdrainWait h) s c [] [] [] (fun t => s.Quiet t c.gk ∧ t.teams = s.teams) ∧
    Completes (.xdrainCancel h) s c [] [] [] (fun t => s.Quiet t c.gk ∧ t.teams = s.teams)) ∧
  ((∃ x ∈ s.allCards, x.team = c.gk / 32) →
    Completes (.xdrainWait h) s c [] [] [] (fun t => s.Quiet t c.gk ∧
      (t.team? (c.gk / 32)).map (fun x => x.drains) = some (c.t.drains ++ [(tok, s.nextCard)])) ∧
    ((∀ x ∈ s.allCards, x.bar = false) → Completes (.xdrainCancel h) s c [] [] [] (fun t => s.Quiet t c.gk ∧
      (t.team? (c.gk / 32)).map (fun x => x.drains) = some (c.t.drains ++ [(tok, s.nextCard)]) ∧
      ∀ x ∈ t.allCards, x.team = c.gk / 32 → x.counter = 0 ∧
        (x.status ≥ 2 ∧ (∃ e, x.st = .finished e) ∨ x.ending = true ∧ x.inseg = true ∧ ∃ e, x.st = .running e))) ∧
    (∀ f, Ready (.xdrainCancel h) s f c → ∃ t n m, exec (.xdrainCancel h) s = .next t ∧
      (t.team? (c.gk / 32)).map (fun x => x.drains) = some (c.t.drains ++ [(⟨c.gk, n, c.act⟩, m)]) ∧
      ∀ x ∈ t.allCards, x.team = c.gk / 32 → x.counter = 0 ∧
        (x.status ≥ 2 ∧ (∃ e, x.st = .finished e) ∨ x.ending = true ∧ x.inseg = true ∧ ∃ e, x.st = .running e))))

/-! ### The machine's own moves (02, 08, 09, 12 to 14, 20) -/

/-- 02 R33, 06 R123, 08 R148, R149, R151, 09 R161, 12 R208, 14 R244, R245: a fetch line that comes is held by the core and wakes the lanes
that wait for it, and one that fails CHECK is fetched once more; a pipe issues next from the oldest ready group passed over 64 times,
else the oldest that did not yield, else the oldest,
unless a cohort chosen before is still to issue; a group in which every live lane is parked in KWAIT and no condition can hold
takes trap 0x0A; a sleeping lane goes on once its clock has come; the next epoch clears its slot of every ring, and the core has
by then an acknowledgement for every write that a home has performed (R241; log entry 24); an expired line leaves
L1. 13 R228, 14 R246, R249, 02 R37: an entry of the write-through buffer leaves behind the earlier entries of its slice, its home
writes the bytes of its mask and no others, and its acknowledgement takes it out of the buffer, enters its line in the ring of its
plane and completes the stores that wait for it; a fill completes its load and installs its blocks in L1. The moment of each is the
model's agenda (log entry 1); that a slice's earlier responses come first is R246. -/
def Obligations.CoreEventsComplete : Prop :=
  (∀ (s : State) (core i gk l : Nat),
  let k := s.core core
  (∀ f, k.fetches[i]? = some f → f.tgt.isFab = false →
    let bytes := s.homeBytes f.tgt 64
    ∃ t, exec (.fetchLineArrival core i) s = .next t ∧ t.mem = s.mem ∧
      (lineGood bytes = false → f.retried = false → { f with retried := true } ∈ (t.core core).fetches ∧ (k.loads = [] → t.groups = s.groups)) ∧
      (lineGood bytes = true ∨ f.retried = true → f ∉ (t.core core).fetches ∧
        (t.core core).iline f.func f.line = some { func := f.func, line := f.line, bytes := bytes, bad := !lineGood bytes } ∧
        ∀ tm, s.team? (gk / 32) = some tm → tm.func = f.func → tm.core = core → ((s.group gk).lane l).wait = .fetch f.line →
          ((t.group gk).lane l).wait = .none ∧ ((t.group gk).lane l).pc = ((s.group gk).lane l).resume)) ∧
  (∀ f v ma, k.fetches[i]? = some f → f.tgt = .fab v ma →
    (f.sent = true → exec (.fetchLineArrival core i) s = .next s) ∧
    (f.sent = false → ∀ s', s.request core f.func v 1 (ma / 128 * 128) [] (.fetch f.func f.line) = some s' →
      ∃ t, exec (.fetchLineArrival core i) s = .next t ∧ t.mem = s'.mem ∧ t.groups = s'.groups ∧
        (t.core core).fetches = updAt (fun x => { x with sent := true }) (s'.core core).fetches i)) ∧
  (s.cur.isSome = true → exec (.pipeGroupChoice core i) s = .next s) ∧
  (∀ g m, s.cur = none → s.pipeFetch core i = some (g, m) → exec (.pipeGroupChoice core i) s = .next { s with cur := some ⟨g, m, .single⟩ }) ∧
  (let rs := s.pipeGroups core i
   let old (r : Nat × BitVec 32 × PairPos) : Bool := decide (64 ≤ (s.group r.1).pskip)
   let fresh (r : Nat × BitVec 32 × PairPos) : Bool := decide (some r.1 ≠ tfind k.yld i)
   s.cur = none → s.pipeFetch core i = none → ∃ t, exec (.pipeGroupChoice core i) s = .next t ∧ t.mem = s.mem ∧ (rs = [] → t = s) ∧ ∀ r,
     ((rs.filter old).head? = some r ∨ rs.filter old = [] ∧ (rs.filter fresh).head? = some r ∨
       rs.filter old = [] ∧ rs.filter fresh = [] ∧ rs.head? = some r) → t.cur = some ⟨r.1, r.2.1, r.2.2⟩) ∧
  (let g := s.group gk
   ∀ tm, s.team? (gk / 32) = some tm → (s.func tm.func).xvec ≠ 0 → (s.func tm.func).frozen = false →
    g.live ≠ 0 → g.halted = 0 → g.unsettled g.live = false →
    (∀ j ∈ lanesOf g.live, j < g.lanes.length ∧ (g.lane j).sup = false ∧ ∃ n, (g.lane j).wait = .k n ∧ g.kHolds n = false) →
    ∃ t, exec (.kdeadDetect gk) s = .next t ∧ s.Quiet t gk ∧ ∀ j ∈ lanesOf g.live, let y := (t.group gk).lane j
      y.xcause = 0x0A ∧ y.xpc = (g.lane j).pc ∧ y.xaddr = 0 ∧ y.sup = true ∧ y.psup = false ∧ y.pc = (s.func tm.func).xvec ∧ y.wait = .none) ∧
  (∀ till, ((s.group gk).lane l).wait = .sleep till → l < 32 → l < (s.group gk).lanes.length →
    (s.cycleOf gk < till → exec (.sleepExpiry gk l) s = .next s) ∧
    (till ≤ s.cycleOf gk → (s.group gk).live.getLsbD l = true → ∃ t, exec (.sleepExpiry gk l) s = .next t ∧ s.Quiet t gk ∧
      let y := (t.group gk).lane l
      let saving := (s.team? (gk / 32)).any s.savingTeam
      if (s.group gk).halted.getLsbD l then y.wait = .satisfied 9 [] else
        y.wait = (if saving then .woken else .none) ∧ y.pc = ((s.group gk).lane l).resume)) ∧
  (s.clock / 4096 ≤ s.epoch → exec .epochAdvance s = .next s) ∧
  (s.epoch < s.clock / 4096 → ∃ t, exec .epochAdvance s = .next t ∧ t.epoch = s.epoch + 1 ∧ t.mem = s.mem ∧
    (∀ c, ∀ e ∈ (t.core c).wtb, e.st ≠ .performed) ∧
    ((∀ c ∈ s.cores, ∀ e ∈ c.2.wtb, e.st ≠ .performed) → t.groups = s.groups ∧
    ∀ p pl, tfind s.planes p = some pl → pl.ring.length = 3 → ∀ n, n < 3 →
      (t.plane p).ring[n]? = if n = (s.epoch + 1) % 2 ^ 32 % 3 then some { epoch := (s.epoch + 1) % 2 ^ 32 } else pl.ring[n]?)) ∧
  (∀ x, k.l1[i]? = some x → ∃ t, exec (.l1LineExpiry core i) s = .next t ∧ t.mem = s.mem ∧ t.groups = s.groups ∧
    (t.core core).l1 = if x.stable = true ∨ epochDiff s.epoch x.fepoch ≤ 2 then k.l1 else delAt k.l1 i)) ∧
  (∀ (s : State) (core i : Nat),
  let k := s.core core
  (∀ e before, k.entryAt i = some (e, before) →
    (e.st = .buffered → (∀ x ∈ before, x.st ≠ .buffered) → ∃ t, exec (.wtbDrain core i) s = .next t ∧ t.mem = s.mem ∧
      (t.core core).wtb = updAt (fun x => { x with st := .sent }) k.wtb i ∧ { t with cores := s.cores } = s) ∧
    (∀ ma, e.tgt = .loc ma → e.st = .sent → (∀ x ∈ before, x.st = .performed) → s.snooped e.tgt = false →
      ∃ t, exec (.homeAccess core i) s = .next t ∧
        (∀ j, j < 32 → tget 0 t.mem (ma + j) = if e.mask.getLsbD j then tget 0 e.data j else tget 0 s.mem (ma + j)) ∧
        (∀ x, x < ma ∨ ma + 32 ≤ x → tget 0 t.mem x = tget 0 s.mem x) ∧ t.hostMem = s.hostMem) ∧
    (k.ackDue e before = true → ∃ t, exec (.storeAck core i) s = .next t ∧ t.mem = s.mem ∧
      (t.core core).wtb = delAt k.wtb i ∧
      (∀ p, (t.plane p).ring = if p ∈ e.rings then ringInsert (s.plane p).ring s.epoch (e.fpa / 512) else (s.plane p).ring) ∧
      ∀ x ∈ e.toks, ∀ o ∈ (t.group x.gk).outs, o.tok = x.tok → o.lanes &&& x.lanes = 0)) ∧
  (∀ d, k.loads[i]? = some d → k.loadDue i = true → ∃ t, exec (.loadFill core i) s = .next t ∧ t.mem = s.mem ∧ (t.core core).loads = delAt k.loads i ∧
    (d.install = false → (t.core core).l1 = k.l1) ∧
    (∀ o ∈ (t.group d.what.gk).outs, o.tok = d.what.tok → o.lanes &&& d.what.lanes = 0) ∧
    ∀ l, d.what.lanes.getLsbD l = true → ∀ f ∈ ((t.group d.what.gk).lane l).flights, f.tok = d.what.tok → f.due.isSome = true))

/-- 20 R358 to R362, 19 R336, R337, R342: a free walker takes the oldest walk of a function that holds fewer walkers than WRSV, else of one that holds fewer than
WMAX where walkers are left beside those reserved to others, and what
a walk finds reaches the caches of its agents, whose lanes go on or ask for their fetch line; a group whose run-ahead has stopped goes back to its checkpoint, its batch
is written to the fault queue and the faulting lanes trap; a Success of the host for a page lets the lanes that wait for it go on, once the
host has given the leaf's line back, anything
else freezes the function; S2INV leaves no stage-2 translation of the range in any core or die, S2SET gives a function its stage-2 root,
and after an ATS invalidation no write to the host range is buffered and no translation of it is kept. When a walk ends, and MOVE back to 0
at the response, are the model's readings (log entry 40). -/
def Obligations.TranslationEventsComplete : Prop := ∀ (s : State) (die gk func fpa len root : Nat),
  (let d := s.die die
   let held (f : Nat) : Nat := (d.walking.filter (fun r => decide (r.func = f))).length
   let res (f : Nat) : Prop := held f < tget 0 (s.func f).wrsv die
   let room (f : Nat) : Prop := held f < tget 64 (s.func f).wmax die
   let takes : Prop := d.walking.length < 64 ∧
     ((∃ r ∈ d.walkq, res r.func) ∨ ((∃ r ∈ d.walkq, room r.func) ∧ d.walking.length + s.walkRest die < 64))
   (takes →
    ∃ t i r, exec (.pageWalk die) s = .next t ∧ d.walkq[i]? = some r ∧ (res r.func ∨ (∀ x ∈ d.walkq, ¬ res x.func) ∧ room r.func) ∧ (∀ j x, j < i → d.walkq[j]? = some x → x.func ≠ r.func) ∧
      (t.die die).walkq = delAt d.walkq i ∧ (t.die die).walking = d.walking ++ [r] ∧ t.mem = s.mem ∧ t.groups = s.groups) ∧
   (∀ r rest, d.walking = r :: rest → ¬ takes →
    (∀ a ∈ r.agents, ∀ ma, (s.walkOf d r.func r.page r.one a).1 ≠ .unbacked ma) →
    ∃ t, exec (.pageWalk die) s = .next t ∧ (t.die die).walking = rest ∧ (t.die die).walkq = d.walkq ∧ t.mem = s.mem ∧
      (∀ l c tm, some c ∈ r.agents → s.team? (gk / 32) = some tm → tm.func = r.func → tm.core = c → l < 32 → ((s.group gk).lane l).wait = .walk r.page →
        let y := (t.group gk).lane l
        (y.wait = .none ∧ y.pc = ((s.group gk).lane l).resume) ∨ ∃ line, y.wait = .fetch line) ∧
      ∀ a ∈ r.agents,
        let tlb : Tlb := match a with | some c => (t.core c).tlb | none => (t.die die).tlb
        let fails := match a with | some c => (t.core c).wfail | none => (t.die die).wfail
        match (s.walkOf d r.func r.page r.one a).1 with
        | .found s1 s2 => (∀ e ∈ s1, e ∈ tlb.s1) ∧ (∀ e ∈ s2, e ∈ tlb.s2) ∧ ∀ e ∈ fails, ¬ (e.func = r.func ∧ e.page = r.page)
        | .fail s1 x => (∀ e ∈ s1, e ∈ tlb.s1) ∧ ⟨r.func, r.page, x⟩ ∈ fails
        | .unbacked _ => False) ∧
   (d.walking = [] → ¬ takes → exec (.pageWalk die) s = .next s)) ∧
  (s.batchDue gk = false → exec (.runAheadStop gk) s = .next s) ∧
  (∀ r tm, (s.group gk).ra = some r → s.team? (gk / 32) = some tm → s.batchDue gk = true → r.s2pages = [] →
    let g := (s.group gk).restore
    let f := s.func tm.func
    let s0 := s.setGroup gk g
    (r.s1pages = [] → r.page1 = false → f.frozen = false → ∃ t, exec (.runAheadStop gk) s = .next t ∧ t.group gk = g ∧ t.mem = s.mem ∧
      t.func tm.func = f ∧ ∀ k, k ≠ gk → t.group k = s.group k) ∧
    (r.s1pages ≠ [] → r.sent = none → (∀ e ∈ f.fqOut, e.1 ≠ s.nextTok) → r.page1 = true → f.frozen = false → f.xvec ≠ 0 → (∀ l ∈ lanesOf r.mask, l < g.lanes.length ∧ (g.lane l).sup = false) →
      f.fqFull = false →
      let va := f.fqbase.toNat + 512 * (f.fqNext.toNat % f.fqlen)
      ∀ x ma, (s0.xlKeep tm.func va).xlSpan tm.func true .write va 512 = .ok x → x.tgt = .loc ma → s.biSpan x.tgt 512 = none →
      ∃ t, exec (.runAheadStop gk) s = .next t ∧ (t.func tm.func).fqtail = f.fqtail + 1 ∧ (t.func tm.func).fqLost = 0 ∧
        readLE t.mem ma 4 = f.fqNext.toNat ∧ readLE t.mem (ma + 4) 1 = 1 ∧
        (∀ a, a < ma ∨ ma + 512 + 8 * r.s1pages.length ≤ a → tget 0 t.mem a = tget 0 s.mem a) ∧
        ∀ l ∈ lanesOf r.mask, ((t.group gk).lane l).xcause = 5 ∧ ((t.group gk).lane l).xaddr = r.fva ∧ ((t.group gk).lane l).pc = f.xvec ∧
          ((t.group gk).lane l).sup = true)) ∧
  (let page := fpa / 65536 * 65536
   (∀ r ∈ (s.func func).pri, r.page ≠ page) → ∀ ok, exec (.priResponse func fpa ok) s = .next s) ∧
  (let page := fpa / 65536 * 65536
   (∃ r ∈ (s.func func).pri, r.page = page) →
    (∀ ok, ∃ t, exec (.priResponse func fpa ok) s = .next t ∧ (ok = false → (t.func func).frozen = true) ∧
      (ok = false → (s.func func).priWait = [] → ∀ r ∈ (t.func func).pri, r.page ≠ page)) ∧
    ((s.leaf2Addr func page).any (fun a => s.snooped (.loc a)) = true →
      ∃ t, exec (.priResponse func fpa true) s = .next t ∧ t.afterBi = s.afterBi ++ [.priResponse func fpa true] ∧ t.groups = s.groups ∧
        t.mem = s.mem) ∧
    ((s.leaf2Addr func page).any (fun a => s.snooped (.loc a)) = false →
     ∃ t, exec (.priResponse func fpa true) s = .next t ∧ ∀ l tm, s.parkedLaunches = [] → s.team? (gk / 32) = some tm →
      tm.func = func → ((s.group gk).lane l).wait = .pri [page] → ((t.group gk).lane l).wait = .none ∧ ((t.group gk).lane l).pc = ((s.group gk).lane l).resume)) ∧
  (s.recovery = false → func < 128 →
    (∃ t, exec (.s2inv func fpa len) s = .next t ∧ t.cmdSeq = s.cmdSeq + 1 ∧ (s.parkedLaunches = [] → (∀ b ∈ s.breaks, b.func ≠ func) → t.mem = s.mem) ∧
      let out (e : TlbE) : Prop := e.func = func → (e.base + e.len) * 65536 ≤ fpa ∨ fpa + len ≤ e.base * 65536
      (s.parkedLaunches = [] → (∀ c, ∀ e ∈ (t.core c).tlb.s2, out e) ∧ ∀ d, ∀ e ∈ (t.die d).tlb.s2, out e)) ∧
    (∃ t, exec (.s2set func root) s = .next t ∧ t.cmdSeq = s.cmdSeq + 1 ∧ t.mem = s.mem ∧ (t.func func).s2root = root % 2 ^ 64 ∧
      ∀ f, f ≠ func → t.func f = s.func f)) ∧
  (∃ t, exec (.atsInvalidation func fpa len) s = .next t ∧
    ((∀ c ∈ s.cores, ∀ e ∈ c.2.wtb, ∃ ha, e.tgt = .host ha) → t.mem = s.mem) ∧
    (∀ p ∈ (t.func func).atc, (p + 1) * 4096 ≤ fpa ∨ fpa + len ≤ p * 4096) ∧
    ((∀ c ∈ s.cores, ∀ e ∈ c.2.wtb, s.snooped e.tgt = false) →
     ∀ c, ∀ e ∈ (t.core c).wtb, e.func = func → ∀ ha, e.tgt = .host ha → ha + 31 < fpa ∨ fpa + len ≤ ha))

/-! ### The life of a card (17, 14) -/

/-- 17 R296 to R303, 14 R262, 21 R365: the oldest card formed is accepted with an edge to each earlier card of its function whose regions
conflict, and joins its virtual queue when it has none; a free engine of its class takes the card at the head of a queue; a segment
that is written counts, and the last one finishes the card; a completed card whose plane is not saved leaves its die, its counter one higher and its tag one
nearer to ready, with the highest status, or without a tag and with status 2 its KIND 3 record written or counted as lost (19 R337, R338).
Readings of the model: log entry 32. -/
def Obligations.CardEventsComplete : Prop := ∀ (s : State) (die cls card : Nat),
  let d := s.die die
  (∀ c r, d.cardQ = c :: r → c.st = .formed →
    let edges := (d.cards.filter (fun e => decide (e.func = c.func) && !e.out && s.needsEdge c e)).map (fun e => e.id)
    ∃ t, exec (.cardAccept die) s = .next t ∧ { t with dies := s.dies } = s ∧ (t.die die).cardQ = r ∧
      (edges = [] → (t.die die).cards = d.cards ++ [{ c with st := .ready d.place }] ∧ (t.die die).place = d.place + 1) ∧
      (edges ≠ [] → (t.die die).cards = d.cards ++ [{ c with st := .waiting, edges := edges }])) ∧
  (d.freeEngine cls = none → exec (.cardStart die cls) s = .next s) ∧
  (∀ e, d.freeEngine cls = some e → (∃ f, f < 128 ∧ (s.func f).frozen = false ∧ s.readyCards die cls f ≠ []) →
    ∃ t f c x, exec (.cardStart die cls) s = .next t ∧ { t with dies := s.dies } = s ∧ f < 128 ∧ (s.func f).frozen = false ∧
      (s.readyCards die cls f).head? = some c ∧ x ∈ (t.die die).cards ∧ x.id = c.id ∧ x.st = .running e) ∧
  (∀ c e r, d.cardQ = c :: r → c.st = .finished e → ∃ t, exec (.cardAccept die) s = .next t ∧ (t.die die).cardQ = r ∧
    (t.die die).cards = d.cards ++ [c]) ∧
  (∀ c e s1 w, d.cards.find? (fun c => decide (c.id = card)) = some c → c.st = .running e → (s.func c.func).frozen = false → c.maj < 0xE0 →
    c.bar = false → c.ending = false → c.inseg = false → c.outq = [] → c.tok = none → c.done < c.segs →
    s.drain c.core (fun x => decide (x.func = c.func)) = .ok s1 → (s1.team? c.team).any s1.checkpointing = false →
    CW.carryAll (c.begin s1).todo ⟨s1.useFree, c.begin s1⟩ = (w, [], none) → w.c.outq = [] →
    ∃ t, exec (.cardSegmentDone die card) s = .next t ∧ t.mem = w.s.mem ∧ t.hostMem = w.s.hostMem ∧ t.chip = w.s.chip ∧
      ∀ x ∈ t.allCards, x.id = card → x.done = c.done + 1 ∧ x.sig = w.c.sig ∧ x.status = w.c.status ∧ x.inseg = false ∧
        x.st = (if c.segs ≤ c.done + 1 then .finished e else .running e)) ∧
  (∀ c e, d.cards.find? (fun c => decide (c.id = card)) = some c → c.st = .finished e → (s.func c.func).frozen = false → c.die = die → c.out = false →
    c.outq = [] → c.tok = none →
    let left (t : State) : Prop := ∀ x ∈ (t.die die).cards ++ (t.die die).cardQ, x.id ≠ card
    (∀ k, c.tag = some k →
      let gone (t : State) : Prop := left t ∧
        let p := s.plane c.plane
        let q := t.plane c.plane
        let n := tget 0 p.tagCount k - 1
        tget 0 q.tagCount k = n ∧ tget 0 q.tagStatus k = max (tget 0 p.tagStatus k) c.status ∧
        ∀ j, j < 64 → q.tagReady.getLsbD j = (p.tagReady.getLsbD j || decide (j = k ∧ n = 0))
      (c.counter = 0 → ∃ t, exec (.cardComplete die card) s = .next t ∧ t.mem = s.mem ∧ gone t) ∧
      (∀ x ma, c.counter ≠ 0 → c.bar = false → c.maj < 0xE0 → isCellAddr c.counter = false → s.cardXl c .write c.counter = .ok x →
        x.tgt = .loc ma → s.snooped x.tgt = false → ∃ t, exec (.cardComplete die card) s = .next t ∧ gone t ∧
          readLE t.mem ma 8 = (readLE s.mem ma 8 + 1) % 2 ^ 64 ∧ ∀ a, a < ma ∨ ma + 8 ≤ a → tget 0 t.mem a = tget 0 s.mem a)) ∧
    (c.tag = none → c.counter = 0 →
      (c.status ≠ 2 → ∃ t, exec (.cardComplete die card) s = .next t ∧ t.mem = s.mem ∧ left t) ∧
      (c.status = 2 → s.cardRecord c 3 c.fva = .full → ∃ t, exec (.cardComplete die card) s = .next t ∧ t.mem = s.mem ∧ left t ∧
        (t.func c.func).fqLost = (s.func c.func).fqLost + 1) ∧
      (∀ s', c.status = 2 → s.cardRecord c 3 c.fva = .written s' → ∃ t, exec (.cardComplete die card) s = .next t ∧ t.mem = s'.mem ∧ left t)))

/-! ### Dispatch, teams and grids (08, 12, 17) -/

/-- 12 R202 to R207, 08 R138, R140, R142, R143: what a die's dispatcher, a core and a queue do. The dies decide in turn. The head unit of the highest level that
fits is placed and its teams start with the state of R138; the head unit with the most pass-overs, 1,024 or more, takes the hold of its
level, the lower function of two; a core
makes the plane of the highest priority live; the next record of a queue is accepted or rejected; a team whose groups and cards have
ended gives its place back, and the last one of a grid completes it with its counter one higher. 17 R307, R311, 08 R138, 12 R200,
R201, 13 R219, R220: a spilled child comes back into the pool while it has room, in order; a partition whose planes hold only blocked
teams saves the oldest; an empty plane is cleared; a bind record is written and its function's running values return to 0; granules of
chip scratchpad that a function gains or loses read 0. Readings of the model: log entry 33. -/
def Obligations.DispatchEventsComplete : Prop :=
  (∀ (s : State) (part die level core func queue tid gid : Nat),
  ((s.prt part).turn ≠ die → exec (.dispatchDecision part die) s = .next s) ∧
  (∀ f g at', (s.prt part).turn = die → level < 24 → f < 128 → (s.func f).part = some part → ((s.prt part).bind f).isSome = true →
    s.headUnit f level = some (.grid gid) → s.grid? gid = some g → gid < s.nextGrid → s.fitUnit part die f level (.grid gid) = some at' → g.lrec.gpt ≤ 32 →
    (∀ x v u, x < 128 → v < 24 → (level < v ∨ v = level ∧ x ≠ f) → (s.func x).part = some part → s.headUnit x v = some u →
      s.fitUnit part die x v u = none) →
    ∃ t, exec (.dispatchDecision part die) s = .next t ∧ (t.grid? gid).map (fun g => g.placed) = some (g.placed + at'.length) ∧
      ∀ r p, at'[r]? = some p →
        (t.team? (s.nextTeam + r)).map (fun x => (x.func, x.grid, x.idx, x.rank, x.core, x.plane)) =
          some (g.func, gid, g.placed + r, r, p.1, p.2) ∧
        ∀ i, i < g.lrec.gpt → t.group (32 * (s.nextTeam + r) + i) = startGroup g.lrec) ∧
  (let p := s.prt part
   ((s.holder part level).isSome = true → exec (.headUnitHold part level) s = .next s) ∧
   ∀ f h, f < 128 → s.holder part level = none → s.headUnit f level = some h → 1024 ≤ s.passCount part level f → (p.bind f).isSome = true →
    (∀ g, g < 128 → s.passCount part level g ≤ s.passCount part level f ∧ (g < f → s.passCount part level g < s.passCount part level f)) →
    ∃ t, exec (.headUnitHold part level) s = .next t ∧ tfind (t.prt part).holds level = some (f, s.unitId h) ∧ { t with parts := s.parts } = s) ∧
  (let k := s.core core
   let pri (p : Nat) : Int := if s.saving.any (fun j => decide (j.plane = 3 * core + p) && j.out.isSome) then -1 else
     match s.planePri (s.plane (3 * core + p)) with | some x => (x : Int) | none => -1
   ((∀ p, p < 3 → pri p ≤ pri k.live) → exec (.planeSwitch core) s = .next s) ∧
   (∀ p, p < 3 → pri k.live < pri p → (∀ q, q < 3 → q ≠ p → pri q < pri p) → (s.curIn (3 * core + k.live) && s.midPair) = false →
      ∃ t, exec (.planeSwitch core) s = .next t ∧
      (t.core core).live = p ∧ t.mem = s.mem ∧ t.planes = s.planes ∧ (s.curIn (3 * core + k.live) = true → t.cur = none) ∧ ∀ gk tm, s.team? (gk / 32) = some tm → tm.core = core →
        (tm.plane = k.live → t.group gk = (s.group gk).restore) ∧ (tm.plane ≠ k.live → t.group gk = s.group gk))) ∧
  (∀ bs rest b, tget [] (s.func func).queues queue = bs :: rest → (s.func func).frozen = false → s.stopping func = false →
    s.bindOf func = some b → bindQueue b queue = true → ∃ t, exec (.launchAccept func queue) s = .next t ∧
      tget [] (t.func func).queues queue = rest ∧ t.mem = s.mem ∧
      (recOk bs = true → t.nextGrid = s.nextGrid + 1 ∧ ∃ g, t.grid? s.nextGrid = some g ∧ g.func = func ∧ g.queue = queue ∧
        g.lrec = recFields bs ∧ g.eff = min (max (recFields bs).prio (bindFloor b)) (bindMax b) ∧ g.parent = none ∧ g.placed = 0) ∧
      (recOk bs = false → t.grids = s.grids ∧ (tget 0 (t.func func).err queue).getLsbD 0 = true)) ∧
  (∀ tm, s.team? tid = some tm → s.groupsEnded tid tm = true → s.teamCards tid = false → s.gangIdle tid = true → ∃ t, exec (.teamEnd tid) s = .next t ∧
    t.team? tid = none ∧ tid ∉ (t.plane (3 * tm.core + tm.plane)).teams ∧ t.mem = s.mem ∧
    (∀ gk, gk / 32 = tid → tfind t.groups gk = none) ∧
    ∀ g, s.grid? tm.grid = some g → (t.grid? tm.grid).map (fun x => x.ended) = some (g.ended + 1) ∧
      (g.ended + 1 = g.lrec.teams → .gridComplete tm.grid ∈ t.agenda)) ∧
  (∀ g s1, s.grid? gid = some g → g.ended = g.lrec.teams → g.abandoned = false → g.waitPri = none → (s.func g.func).frozen = false →
    s.stopping g.func = false → g.parent = none → s.drainAll g.func = .ok s1 →
    (g.lrec.ccnt = 0 → ∃ t, exec (.gridComplete gid) s = .next t ∧ t.grid? gid = none ∧ t.mem = s1.mem) ∧
    (∀ x ma, g.lrec.ccnt ≠ 0 → (s1.xlKeep g.func g.lrec.ccnt).xlDirect g.func .write g.lrec.ccnt = .ok x → x.tgt = .loc ma →
      s1.snooped x.tgt = false → ∃ t, exec (.gridComplete gid) s = .next t ∧ t.grid? gid = none ∧
        readLE t.mem ma 8 = (readLE s1.mem ma 8 + 1) % 2 ^ 64 ∧
        (ma % 512 ≠ 0 → ∀ a, a < ma ∨ ma + 8 ≤ a → tget 0 t.mem a = tget 0 s1.mem a) ∧
        (ma % 512 = 0 → readLE t.mem (ma + 8) 4 = (readLE s1.mem (ma + 8) 4 + 1) % 2 ^ 32 ∧
          ∀ a, a < ma ∨ ma + 512 ≤ a → tget 0 t.mem a = tget 0 s1.mem a)))) ∧
  (∀ (s : State) (part gid pl slot func : Nat) (bytes : List Byte) (granules : List Nat),
  (∀ g p parent more s1 bs, s.grid? gid = some g → (s.func g.func).part = some p → g.spillParents = parent :: more → s.spillDue g = true →
    (∀ e ∈ s.cores, s.devBusy e.1 ⟨spillKey, gid, 0⟩ = false) → s.devRead 0 g.func true (g.spillVa g.spillHead) 128 = .ok s1 bs →
    (recOk bs = true → s1.parkedLaunches = [] → gid ≠ s1.nextGrid → ∃ t, exec (.spillReturn gid) s = .next t ∧ t.mem = s1.mem ∧
      (t.grid? gid).map (fun g => (g.spillHead, g.spillParents)) = some (g.spillHead + 1, more) ∧
      (t.grid? s1.nextGrid).map (fun g => (g.func, g.queue, g.lrec, g.parent)) = some (g.func, g.queue, recFields bs, some parent) ∧
      (t.prt p).pool = (s1.prt p).pool ++ [s1.nextGrid] ∧ t.nextGrid = s1.nextGrid + 1) ∧
    (recOk bs = false → s1.parkedLaunches = [] → ∃ t, exec (.spillReturn gid) s = .next t ∧ t.mem = s1.mem ∧
      (t.grid? gid).map (fun g => (g.spillHead, g.spillParents)) = some (g.spillHead + 1, more) ∧
      (tget 0 (t.func g.func).err g.queue).getLsbD 3 = true)) ∧
  (s.swapDue part = false → exec (.blockedUnitSwap part) s = .next s) ∧
  (s.swapDue part = true → (∀ e ∈ s.partTeams part, e.2.plane < 3 ∧ (s.plane (3 * e.2.core + e.2.plane)).teams ≠ []) →
    ∃ t e, exec (.blockedUnitSwap part) s = .next t ∧ e ∈ s.partTeams part ∧ (∀ x ∈ s.partTeams part, e.2.order ≤ x.2.order) ∧ t.mem = s.mem ∧
      t.planes = s.planes ∧ (∃ j ∈ t.saving, j.plane = 3 * e.2.core + e.2.plane ∧ j.why = .swap) ∧ .contextSave e.2.core e.2.plane ∈ t.agenda) ∧
  ((s.plane pl).teams = [] → ∃ t, exec (.planeCleared pl) s = .next t ∧ { t with planes := s.planes } = s ∧
    let p := t.plane pl
    p.cleared = true ∧ p.teams = [] ∧ p.tagReady = 0 ∧ p.tagCount = [] ∧ p.tagStatus = [] ∧ p.banks = [] ∧ p.liveW = {} ∧ p.shadowW = {}) ∧
  (part < 32 → slot < 128 → bytes.length = 64 → s.retiredCores = [] → ∃ t, exec (.bindRecordWrite part slot bytes) s = .next t ∧
    tget 0 (t.prt part).slots slot = ofLE bytes ∧ (∀ j, j ≠ slot → tget 0 (t.prt part).slots j = tget 0 (s.prt part).slots j) ∧
    (∀ v, tget 0 (t.prt part).cur (128 * v + bindFunc (ofLE bytes)) = 0) ∧
    ∀ e ∈ (t.prt part).holds, ((t.prt part).bind e.2.1).isSome = true) ∧
  (granules.length ≤ 64 → granules.eraseDups.length = granules.length →
    (∀ g ∈ granules, g < 64 ∧ ∀ e ∈ s.funcs, e.1 ≠ func → g ∉ e.2.grant) →
    ∃ t, exec (.chipScratchpadGrant func granules) s = .next t ∧ (t.func func).grant = granules ∧ t.mem = s.mem ∧ ∀ a,
      tget 0 t.chip a = if ((s.func func).grant.contains (a / 2 ^ 20)) = granules.contains (a / 2 ^ 20) then tget 0 s.chip a else 0))

/-! ### Contexts, partitions and gangs (21, 22) -/

/-- 21 R363 to R368, 22 R377, R385, R386: the end of a time slice asks for a save of every plane of the partition; a save whose plane is
quiet writes its image and empties the plane, and a dump ends its teams; the images of one save come back together on the planes that
the dispatcher gave them, with their teams, and one that is damaged freezes the function. PART, LEND and RECALL move cores and functions between partitions, and a gang starts when every
part finds its place, or tries again 1 µs later, as the lowest core clock counts it (00 R5). Readings of the model: log entry 34. -/
def Obligations.ContextAndPartitionEventsComplete : Prop := ∀ (s : State) (part core plane func image src dst : Nat) (l : List (Nat × Nat × Nat)),
  let pl := 3 * core + plane
  let done (code : Nat) (i : Instr) (k : State → State) : Prop :=
    exec i s = .next ((k { s with cmdSeq := s.cmdSeq + 1 }).cmdEvent code s.cmdSeq none)
  let fail (code : Nat) (i : Instr) (why : Nat) : Prop := exec i s = .next ({ s with cmdSeq := s.cmdSeq + 1 }.cmdEvent code s.cmdSeq (some why))
  (s.saving = [] → (∀ e ∈ s.partTeams part, (s.plane (3 * e.2.core + e.2.plane)).teams ≠ []) → ∃ t, exec (.timeSliceEnd part) s = .next t ∧
    t.mem = s.mem ∧ t.planes = s.planes ∧ ∀ e ∈ s.partTeams part, ∃ j ∈ t.saving, j.plane = 3 * e.2.core + e.2.plane ∧ j.why = .slice) ∧
  ((s.plane pl).teams ≠ [] → s.saving = [] → plane < 3 →
    (∃ t, exec (.contextSave core plane) s = .next t ∧ t.mem = s.mem ∧ ∃ j ∈ t.saving, j.plane = pl ∧ j.why = .slice) ∧
    exec (.contextDump core plane) s = .next { s with saving := [{ plane := pl, batch := s.nextBatch, why := .dump }], nextBatch := s.nextBatch + 1 }) ∧
  (∀ j s2, s.saving.find? (fun j => decide (j.plane = pl)) = some j → s.cur = none → (s.plane pl).teams ≠ [] → (s.plane pl).matq = [] →
    (s.haltPlane pl).rowsOut (s.plane pl).teams.contains = [] → (∀ e ∈ s.planes, e.2.sends (s.plane pl).teams.contains = false) →
    (s.haltPlane pl).groupsQuiet pl = true →
    (s.haltPlane pl).cardsQuiet (s.plane pl).teams = true →
    (s.haltPlane pl).drain (pl / 3) (fun e => decide (some e.func = (s.plane pl).func)) = .ok s2 →
    exec (.contextSave core plane) s = .next (s2.writeImage pl j) ∧ exec (.contextDump core plane) s = .next (s2.writeImage pl j)) ∧
  (∀ j f va s3 r, j.why ≠ .dump → j.out = none → (s.plane pl).func = some f → (∀ q, q < 3 → s.streams (pl / 3 * 3 + q) = false) →
    let s2 := s.landPlane (s.plane pl).teams
    let bytes := s2.imageOf pl (s2.srcAt f)
    let tok : Token := ⟨saveKey, s.nextTok, 0⟩
    s.savePlace f bytes.length = some va → { s2 with nextTok := s.nextTok + 1 }.devPut (pl / 3) f tok va bytes = .ok s3 r →
    let t := s.writeImage pl j
    (s3.devBusy (pl / 3) tok = true → t.mem = s3.mem ∧ ∀ x ∈ s3.saving, x = j →
      { j with out := some (s.nextTok, va, bytes.length) } ∈ t.saving) ∧
    (s3.devBusy (pl / 3) tok = false → t.plane pl = {} ∧ t.mem = s3.mem ∧ (∀ x ∈ (s.plane pl).teams, t.team? x = none) ∧
      ∃ x ∈ t.saved, x.func = f ∧ x.va = va ∧ x.len = bytes.length ∧ x.core = pl / 3 ∧ x.plane = pl % 3)) ∧
  (∀ x places s1 m, (s.func func).frozen = false → s.stopping func = false →
    s.saved.find? (fun x => decide (x.func = func) && decide (x.va = image)) = some x →
    s.placedBatch x = some places → x.place.map (fun p => p.1) = some core →
    (∀ e ∈ places, ∀ q, q < 3 → s.streams (3 * e.2.1 + q) = false) → s.readBatch places = .ok (s1, m) →
    ((∀ e ∈ m, e.2.2.2.isSome = true) → s1.cardsFit m = true → (m.flatMap (fun e => e.1.teams.map (·.1))).Nodup →
      (m.map (fun e => 3 * e.2.1 + e.2.2.1)).Nodup → ∃ t, exec (.contextResume func image core) s = .next t ∧ ∀ e ∈ m,
        (t.plane (3 * e.2.1 + e.2.2.1)).func = some e.1.func ∧ (∀ y ∈ t.saved, ¬ (y.func = e.1.func ∧ y.va = e.1.va)) ∧
        ∀ y ∈ e.1.teams, (t.team? y.1).map (fun z => (z.func, z.grid, z.core, z.plane)) = some (e.1.func, y.2, e.2.1, e.2.2.1)) ∧
    (∀ e, m.find? (fun e => e.2.2.2.isNone) = some e → ∃ t, exec (.contextResume func image core) s = .next t ∧ (t.func func).frozen = true ∧
      t.planes = s1.planes)) ∧
  (s.recovery = false → func < 128 → src < 32 → dst < 32 → core < 320 →
    (∃ t, exec (.part (.func func) dst) s = .next t ∧ t.cmdSeq = s.cmdSeq + 1 ∧ (t.func func).part = some dst) ∧
    ((s.core core).lentTo = none → ∃ t, exec (.part (.cores [core]) dst) s = .next t ∧ (t.core core).part = some dst) ∧
    ((s.core core).lentTo ≠ none → fail 3 (.part (.cores [core]) dst) 3) ∧
    ((s.core core).part = some src → (s.core core).lentTo = none →
      done 4 (.lend core src dst) (fun s => s.setCore core { s.core core with lentTo := some dst })) ∧
    ((s.core core).part ≠ some src → fail 4 (.lend core src dst) 3) ∧
    ((s.core core).part = some dst → (s.core core).lentTo = some src → s.recalls = [] →
      ∃ t, exec (.recallCore core src dst) s = .next t ∧ t.cmdSeq = s.cmdSeq + 1 ∧ t.mem = s.mem ∧
        (∀ n, bindCore (tget 0 (t.prt src).slots n) core = false) ∧ (s.borrowed core src = [] → (t.core core).lentTo = none))) ∧
  (s.recovery = false → 2 ≤ l.length → l.length ≤ 8 → (l.map (fun p => (s.func p.1).part)).eraseDups.length = l.length →
    (∀ p ∈ l, p.1 < 128 ∧ p.2.1 < 64 ∧ (s.func p.1).part ≠ none) →
    ((s.gangRecs l).isSome = true ∨ (s.gangWait l).isSome = true → ∃ t, exec (.gang l) s = .next t ∧ t.cmdSeq = s.cmdSeq + 1 ∧ t.gangs = s.gangs ++ [⟨s.cmdSeq, l, s.clock⟩]) ∧
    (s.gangRecs l = none → s.gangWait l = none → let s1 := s.gangRefused l
      exec (.gang l) s = .next ({ s1 with cmdSeq := s1.cmdSeq + 1 }.cmdEvent 6 s1.cmdSeq (some 3)))) ∧
  (∀ g s', s.gangs.find? (fun g => decide (g.next ≤ s.clock)) = some g →
    (∀ p ∈ g.parts, (s.func p.1).frozen = false ∧ (s.func p.1).exist = true) → s.gangWait g.parts = some s' → exec .gangAttempt s =
      .next { s' with gangs := s'.gangs.map (fun x => if x = g then { x with next := s'.clock + s'.bound 4000 } else x) }) ∧
  (∀ g recs, s.gangs.find? (fun g => decide (g.next ≤ s.clock)) = some g →
    (∀ p ∈ g.parts, (s.func p.1).frozen = false ∧ (s.func p.1).exist = true) → s.gangWait g.parts = none → s.gangRecs g.parts = some recs →
    (∀ s', recs.foldl (fun (r : Option State) p => r.bind (fun s => s.gangPart p.1 p.2.1 p.2.2)) (some s) = some s' →
      exec .gangAttempt s = .next ({ s' with gangs := s.gangs.filter (fun x => x ≠ g) }.cmdEvent 6 g.seq none)) ∧
    (recs.foldl (fun (r : Option State) p => r.bind (fun s => s.gangPart p.1 p.2.1 p.2.2)) (some s) = none →
      ∃ t, exec .gangAttempt s = .next t ∧ { g with next := s.clock + s.bound 4000 } ∈ t.gangs ∧ t.teams = s.teams ∧ t.grids = s.grids ∧ t.mem = s.mem))

/-! ### The host interface (22, 29) -/

/-- 22 R382 to R384: an event is held while there is no ring, put at entry tail mod length with its sequence number while the ring has
room, and otherwise lost, with OVERFLOW. 20 R358, R360, R361, 22 R378 to R381, R385, R387, R389, 23 R391, 27 R460, 29 R469: submission and notify pages,
the registers of the function and of the device as the host writes them, QTHAW, RINGSET, METRD, meter reports, and the VFs that exist.
Readings of the model: log entry 39. -/
def Obligations.HostInterfaceComplete : Prop := ∀ (s : State) (func queue v m : Nat) (bytes : List Byte) (detail : List (Nat × Nat × Nat)),
  let fn := s.func func
  (let t := s.post func queue v detail
   (s.ringLen = 0 → s.held.length < 256 → t = { s with held := s.held ++ [eventBytes func queue v detail] }) ∧
   (s.ringLen ≠ 0 → (s.ringTail - s.ringHead).toNat ≠ s.ringLen → 8 ≤ (eventBytes func queue v detail).length → t.ringTail = s.ringTail + 1 ∧
     let a := s.ringBase + 64 * (s.ringTail.toNat % s.ringLen)
     readLE t.hostMem (a + 4) 4 = s.ringTail.toNat ∧ t.mem = s.mem ∧ t.ringOverflow = s.ringOverflow ∧
     (∀ i, i < (eventBytes func queue v detail).length → i < 4 ∨ 8 ≤ i →
       tget 0 t.hostMem (a + i) = ((eventBytes func queue v detail)[i]?).getD 0)) ∧
   (s.ringLen ≠ 0 → (s.ringTail - s.ringHead).toNat = s.ringLen → t.ringOverflow = true ∧ t.ringTail = s.ringTail ∧ t.hostMem = s.hostMem)) ∧
  (s.isReady = true → s.recovery = false → fn.exist = true →
    (bytes.length = 128 → queue < 64 → s.queueBusy func queue = false → ∃ t, exec (.queueSubmit func queue true bytes) s = .next t ∧
      tget [] (t.func func).queues queue = tget [] fn.queues queue ++ [bytes] ∧ { t with funcs := s.funcs } = s) ∧
    (bytes.length = 128 → queue < 64 → s.queueBusy func queue = true → exec (.queueSubmit func queue true bytes) s = .next s) ∧
    (bytes.length ≠ 128 → ∃ t, exec (.queueSubmit func queue true bytes) s = .next t ∧ (t.func func).frozen = true)) ∧
  (s.isReady = true → s.recovery = false → fn.exist = false → func < 128 →
    (fn.gone = true → exec (.queueSubmit func queue true bytes) s = .next s) ∧
    (fn.gone = false → ∃ t, exec (.queueSubmit func queue true bytes) s = .next t ∧ (t.func func).frozen = true)) ∧
  (∀ n rest, s.notifyQ = n :: rest →
    (n.bytes.length = 4 → exec .notify s = .next ({ s with notifyQ := rest }.post n.func 0xFF 0x20
      [(16, 4, ofLE n.bytes), (20, 1, (n.off - 512) / 4), (21, 1, n.page)])) ∧
    (∀ s1, n.bytes.length = 8 → s.releaseWait n.core n.writer .part = .ok s1 →
      (s1.queueBusy n.func (n.off / 8) = true → ∃ t, exec .notifyEnqueue s = .next t ∧ t.notifyQ = rest ∧
        (tget 0 (t.func n.func).err (n.off / 8)).getLsbD 1 = true) ∧
      (∀ s2 rec, s1.queueBusy n.func (n.off / 8) = false → s1.devRead n.core n.writer n.sup (ofLE n.bytes) 128 = .ok s2 rec →
        ∃ t, exec .notifyEnqueue s = .next t ∧ t.notifyQ = rest ∧
          tget [] (t.func n.func).queues (n.off / 8) = tget [] (s2.func n.func).queues (n.off / 8) ++ [rec]))) ∧
  (let changed (i : Instr) (f : Func) : Prop := exec i s = .next (s.setFunc func f)
   let v64 := v % 2 ^ 64
   let v32 := v % 2 ^ 32
   let lenOk (lo hi n : Nat) : Bool := decide (lo ≤ n) && decide (n ≤ hi) && (List.range 64).any (fun k => decide (n = 2 ^ k))
   (func < 128 → changed (.domfailClear func) { fn with domFail := 0 }) ∧
   (s.hasPage func = false → exec (.registerWrite (.xvec func) v) s = .next s ∧ exec (.registerWrite (.s1root func) v) s = .next s ∧
     exec (.metreqWrite func v) s = .next s ∧ exec (.errWordClear func queue v) s = .next s ∧
     (∀ b, exec (.fqSetupWrite func b v) s = .next s) ∧ ∀ r, exec (.lpSaveRegWrite func r v) s = .next s) ∧
   (∀ die, func < 128 → die < 2 →
     (v + s.wrsvOthers func die ≤ 64 → changed (.registerWrite (.wrsv func die) v) { fn with wrsv := tput 0 fn.wrsv die v }) ∧
     (64 < v + s.wrsvOthers func die → exec (.registerWrite (.wrsv func die) v) s = .next s) ∧
     (1 ≤ v → v ≤ 64 → changed (.registerWrite (.wmax func die) v) { fn with wmax := tput 64 fn.wmax die v })) ∧
   (1 ≤ v → v ≤ 10 → exec (.registerWrite .doorbell v) s = .next s) ∧
   (10 < v → s.recovery = false → exec (.registerWrite .doorbell v) s =
     .next ({ s with cmdSeq := s.cmdSeq + 1 }.cmdEvent (v % 256) s.cmdSeq (some 1))) ∧
   (s.hasPage func = true →
   changed (.registerWrite (.xvec func) v) { fn with xvec := BitVec.ofNat 64 (v / 64 * 64) } ∧
   changed (.registerWrite (.s1root func) v) { fn with s1root := BitVec.ofNat 64 v } ∧
   changed (.registerWrite (.priAlloc func) v) { fn with priMax := min v 512 } ∧
   changed (.registerWrite (.pasid func) v) { fn with pasid := v % 2 ^ 20 } ∧
   changed (.registerWrite (.ats func) v) { fn with ats := v.testBit 0, atc := if v.testBit 0 then fn.atc else [] } ∧
   changed (.metreqWrite func v) { fn with metreq := some (v / 512 * 512), metstat := fn.metstat / 2 * 2 + 1 } ∧
   (queue < 64 → changed (.errWordClear func queue v)
     { fn with err := tput 0 fn.err queue (tget 0 fn.err queue &&& ~~~(BitVec.ofNat 32 v &&& 0xDF)) }) ∧
   (s.allCards = [] →
     changed (.fqSetupWrite func true v) { fn with fqhead := 0, fqtail := 0, fqOut := [], fqlen := if lenOk 16 4096 v32 then v32 else 0 } ∧
     changed (.fqSetupWrite func false v) { fn with fqhead := 0, fqtail := 0, fqOut := [], fqbase := BitVec.ofNat 64 (v / 65536 * 65536) }) ∧
   (s.hasTeams func = false →
     changed (.lpSaveRegWrite func .lpbase v) { fn with lpbase := BitVec.ofNat 64 (v / 65536 * 65536) } ∧
     changed (.lpSaveRegWrite func .lpsize v) { fn with lpsize := if lenOk 1024 262144 v then v else 0 } ∧
     changed (.lpSaveRegWrite func .lpteams v) { fn with lpteams := v % 65536 } ∧
     changed (.lpSaveRegWrite func .savebase v) { fn with savebase := v64 / 65536 * 65536 } ∧
     changed (.lpSaveRegWrite func .savelen v) { fn with savelen := v32 }) ∧
   (∀ r, s.hasTeams func = true → ∃ t, exec (.lpSaveRegWrite func r v) s = .next t ∧ (tget 0 (t.func func).err 0).getLsbD 6 = true ∧
     (t.func func).lpbase = fn.lpbase ∧ (t.func func).lpsize = fn.lpsize ∧ (t.func func).savebase = fn.savebase)) ∧
   (let x := tget {} s.migs m
    m < 8 → x.idle = true →
      exec (.registerWrite (.mfunc m) v) s = .next { s with migs := tput {} s.migs m { x with func := v % 128 } } ∧
      exec (.registerWrite (.mpeer m) v) s = .next { s with migs := tput {} s.migs m { x with peer := v % 4096 } } ∧
      exec (.registerWrite (.mbudget m) v) s = .next { s with migs := tput {} s.migs m { x with budget := v32 } } ∧
      exec (.registerWrite (.mbw m) v) s = .next { s with migs := tput {} s.migs m { x with bw := v32 } })) ∧
  exec (.ringheadWrite v) s = .next (if s.ringLen < (s.ringTail - BitVec.ofNat 32 v).toNat then s else { s with ringHead := BitVec.ofNat 32 v }) ∧
  exec .overflowClear s = .next { s with ringOverflow := false } ∧
  exec (.pwrlimWrite v) s = .next (if 1500 ≤ v ∧ v ≤ 3000 then { s with pwrlim := v } else s) ∧
  (s.recovery = false → func < 128 →
    (queue < 64 → ∃ t, exec (.qthaw func queue) s = .next t ∧ t.cmdSeq = s.cmdSeq + 1 ∧
      tget 0 (t.func func).err queue = tget 0 fn.err queue &&& ~~~0x20#32) ∧
    (∀ k, 4 ≤ k → k ≤ 16 → s.held = [] → ∃ t, exec (.ringset v (2 ^ k)) s = .next t ∧ t.ringBase = v ∧ t.ringLen = 2 ^ k ∧ t.ringHead = 0 ∧
      t.ringTail = 1 ∧ tget 0 t.hostMem (v + 2) = 1 ∧ tget 0 t.hostMem (v + 16) = 8) ∧
    (∀ r x ma, fn.meter.final = some r → v % 512 = 0 → (s.fpaKeep 0 v).fpaXl 0 v 512 false = .ok x → x.tgt = .loc ma →
      s.biSpan x.tgt 512 = none → ∃ t, exec (.metrd func v) s = .next t ∧
      (∀ i, i < r.length → some (tget 0 t.mem (ma + i)) = r[i]?) ∧ ∀ a, a < ma ∨ ma + r.length ≤ a → tget 0 t.mem a = tget 0 s.mem a) ∧
    (fn.meter.final = none → ∃ t, exec (.metrd func v) s = .next t ∧ t.mem = s.mem ∧ t.cmdSeq = s.cmdSeq + 1)) ∧
  (fn.metreq = none → exec (.meterReport func) s = .next s) ∧
  (∀ fpa, fn.metreq = some fpa → (s.fpaKeep func fpa).fpaXl func fpa 512 true = .access2 → ∃ t, exec (.meterReport func) s = .next t ∧
    t.mem = s.mem ∧ (t.func func).metreq = none ∧ (t.func func).metstat = fn.metstat / 2 * 2 ∧ (t.func func).frozen = true) ∧
  (∀ fpa x ma, fn.metreq = some fpa → (s.fpaKeep func fpa).fpaXl func fpa 512 true = .ok x → x.tgt = .loc ma → s.biSpan x.tgt 512 = none →
    ∃ t, exec (.meterReport func) s = .next t ∧
    (t.func func).metreq = none ∧ (t.func func).metstat = 2 ∧ (t.func func).meter.seq = fn.meter.seq + 1 ∧
    readLE t.mem (ma + 24) 8 = (fn.meter.seq + 1) % 2 ^ 64 ∧ tget 0 t.mem (ma + 16) = BitVec.ofNat 8 func ∧
    ∀ a, a < ma ∨ ma + 512 ≤ a → tget 0 t.mem a = tget 0 s.mem a) ∧
  (func ≠ 0 → fn.exist = true → ∃ t, exec (.vfFlr func) s = .next t ∧ (t.func func).frozen = false ∧ (t.func func).queues = [] ∧
    (t.func func).xvec = 0 ∧ (t.func func).err = [] ∧ ∀ tid tm, t.team? tid = some tm → tm.func ≠ func) ∧
  (∃ t, exec (.vfEnableSet v) s = .next t ∧ t.vfEnable = true ∧ t.numVFs = min v 127 ∧
    (s.isReady = true → s.recovery = false → ∀ f, f < 128 → (t.func f).exist = decide (f ≤ v))) ∧
  (∃ t, exec .vfEnableClear s = .next t ∧ t.vfEnable = false ∧ ∀ f, f < 128 → f ≠ 0 → (t.func f).exist = false)

/-! ### Reset, power, soft errors, host memory (22, 29) -/

/-- 22 R388 to R390, 29 R465 to R474, 01 R23: a queue, an engine, a partition, a die, every function or the module is reset; the Keystone
pair restarts, or resets the module at its second mismatch; power-on and DEVICE_READY; power samples, ageing, soft errors and ports;
and what the host does to device memory and to the lines it holds. Readings of the model: log entry 41; what a die's L2 held when it
is reset: log entry 14. -/
def Obligations.DeviceEventsComplete : Prop := ∀ (s : State) (func queue die part v : Nat) (b : Bool),
  let off (t : State) : Prop := t.isReady = false ∧ t.teams = [] ∧ t.groups = [] ∧ t.cores = [] ∧ t.funcs = [] ∧ t.grids = [] ∧ t.clock = 0 ∧
    t.epoch = 0 ∧ t.ringLen = 0 ∧ t.caps = 0 ∧ t.lag = [] ∧ t.pwrlim = 3000 ∧ t.agestat = s.agestat ∧ t.agehrs = s.agehrs
  (s.recovery = false →
    (func < 128 → queue < 64 → ∃ t, exec (.resetQueue func queue) s = .next t ∧ tget [] (t.func func).queues queue = [] ∧
      tget 0 (t.func func).err queue = 0 ∧ ∀ f, f ≠ func → t.func f = s.func f) ∧
    (∀ (cls : EngCls) i, die < 2 → i < engines (engCls cls) → ∃ t, exec (.resetEngine die cls i) s = .next t ∧ t.cmdSeq = s.cmdSeq + 1 ∧
      ∀ c ∈ (s.die die).cards, c.st.engine = some (64 * engCls cls + i) → ∀ x ∈ (t.die die).cards, x.id = c.id →
        x.counter = 0 ∧ (x.st = .finished (64 * engCls cls + i) ∧ 2 ≤ x.status ∨ x.st = .running (64 * engCls cls + i) ∧ x.ending = true)) ∧
    (part < 32 → ∃ t, exec (.resetPartition part) s = .next t ∧ ∀ f, f < 128 → (s.func f).part = some part → (s.func f).exist = true →
      (t.func f).frozen = false ∧ (t.func f).xvec = 0 ∧ (t.func f).s1root = 0 ∧ (t.func f).err = [] ∧ ∀ tid tm, t.team? tid = some tm → tm.func ≠ f) ∧
    (die < 2 → ∃ t, exec (.resetDie die) s = .next t ∧ (t.die die).tlb = {} ∧
      (∀ c, c / 160 = die → (t.core c).l1 = [] ∧ (t.core c).icache = [] ∧ (t.core c).tlb = {} ∧ (t.core c).part = (s.core c).part) ∧
      ∀ tid tm, t.team? tid = some tm → tm.core / 160 ≠ die) ∧
    (∃ t, exec .resetFlr s = .next t ∧ t.cmdSeq = 0 ∧ t.ringLen = 0 ∧ t.migs = [] ∧ t.wins = [] ∧
      ∀ f, f < 128 → (s.func f).exist = true → (t.func f).xvec = 0 ∧ (t.func f).queues = [] ∧ (t.func f).frozen = false ∧
        ∀ tid tm, t.team? tid = some tm → tm.func ≠ f) ∧
    (∃ t, exec .resetDevice s = .next t ∧ off t ∧ t.mem = [] ∧ t.hostMem = s.hostMem ∧ t.held.length = 1)) ∧
  (∃ t, exec .moduleResetPin s = .next t ∧ off t ∧ t.mem = [] ∧ t.hostMem = s.hostMem ∧ t.held = [] ∧
    ∀ f, f < 128 → (s.func f).exist = true → (tfind t.flashMeters f).isSome = true) ∧
  (∃ t, exec .powerOn s = .next t ∧ off t ∧ t.mem = [] ∧ t.hostMem = s.hostMem ∧ t.held = []) ∧
  ((b = true ∨ ∃ x, s.ksLast = some x ∧ s.clock < x + 4000000000) → ∃ t, exec (.keystoneRestart b) s = .next t ∧ off t) ∧
  (b = false → (∀ x, s.ksLast = some x → x + 4000000000 ≤ s.clock) →
    exec (.keystoneRestart b) s = .next ({ s with ksLast := some s.clock }.post 0 0xFF 0x62 [(16, 1, 1)])) ∧
  (s.isReady = false → ∃ t, exec .deviceReady s = .next t ∧ t.isReady = true ∧ t.mem = [] ∧
    t.recovery = decide (s.flashOk = false ∨ s.flashVer < s.minVer) ∧ (t.func 0).exist = !t.recovery) ∧
  exec (.configImageWrite v b) s = .next { s with flashVer := v, flashOk := b } ∧
  (let avg := ((v :: s.powerHist).take 10).foldl (· + ·) 0 / 10
   let clock (r : Nat) : Nat := max 2000 (tget 4000 s.plan r - 125 * s.caps)
   ∃ t, exec (.powerSample v) s = .next t ∧ t.pwrnow = avg ∧ t.mem = s.mem ∧ t.funcs = s.funcs ∧ t.plan = s.plan ∧
    (s.pwrlim < avg → (∃ r, r < 22 ∧ 2000 < clock r) → t.caps = s.caps + 1) ∧
    (s.pwrlim < avg → (∀ r, r < 22 → clock r ≤ 2000) → t.caps = s.caps) ∧
    (avg ≤ s.pwrlim → avg * 100 ≤ s.pwrlim * 95 → t.caps = s.caps - 1) ∧
    (avg ≤ s.pwrlim → s.pwrlim * 95 < avg * 100 → t.caps = s.caps)) ∧
  (∃ t, exec (.ageingReplan none) s = .next t ∧ t.agehrs = (s.agehrs + 1) % 2 ^ 32 ∧
    { t with agehrs := s.agehrs, freeCtr := s.freeCtr, plan := s.plan } = s ∧
    ∀ r, r < 22 → 2000 ≤ tget 4000 t.plan r ∧ tget 4000 t.plan r ≤ 4000) ∧
  (v < 22 → bitOf s.agestat v = false → s.retireWait = [] → s.regionPlanes v = [] → ∃ t, exec (.ageingReplan (some v)) s = .next t ∧
    bitOf t.agestat v = true ∧ t.retireWait = [] ∧ ∀ c ∈ regionCores v, ∀ p, p < 32 → ∀ n, bindCore (tget 0 (t.prt p).slots n) c = false) ∧
  (v < 64 → ∃ t, exec (.airanPortChange v b) s = .next t ∧ t = { s with ports := t.ports } ∧ ∀ j, j < 64 →
    t.ports.getLsbD j = if j = v then b else s.ports.getLsbD j) ∧
  (∀ p, s.errPlaced p = true → ∃ t, exec (.softError p b) s = .next t ∧ t.mem = s.mem ∧
    (t.die (s.errDie p)).errlog = (s.die (s.errDie p)).errlog + 1) ∧
  (∀ p, s.errPlaced p = false → exec (.softError p b) s = .next s) ∧
  (maBacked v = true → ∃ t, exec (.softError (.mem v) false) s = .next t ∧ v ∈ t.memMarks) ∧
  (∀ ma bytes, maBacked ma = true → maBacked (ma + (bytes.length - 1)) = true → ma / 2 ^ 40 = (ma + (bytes.length - 1)) / 2 ^ 40 → s.hostWaits (.write ma bytes) = false → ∃ t, exec (.hostMemAccess (.write ma bytes)) s = .next t ∧
    (∀ i, i < bytes.length → some (tget 0 t.mem (ma + i)) = bytes[i]?) ∧
    ∀ a, a < ma ∨ ma + bytes.length ≤ a → tget 0 t.mem a = tget 0 s.mem a) ∧
  (∀ ma bytes, s.hostWaits (.write ma bytes) = false → maBacked ma = false ∨ maBacked (ma + (bytes.length - 1)) = false →
    exec (.hostMemAccess (.write ma bytes)) s = .next s) ∧
  (∀ a, s.hostWaits a = true → exec (.hostMemAccess a) s = .next { s with hostWait := s.hostWait ++ [a] }) ∧
  (∀ bytes : List Byte, v / 512 ∈ s.biPend → bytes.length = 512 → s.netWait = [] → s.breaks = [] → ∃ t, exec (.birsp v bytes) s = .next t ∧ v / 512 ∉ t.snoop ∧
    v / 512 ∉ t.biPend ∧ v / 512 ∈ t.biGo ∧ (∀ i, i < 512 → some (tget 0 t.mem (v / 512 * 512 + i)) = bytes[i]?)) ∧
  (∃ t, exec (.hostSnoop v) s = .next t ∧ tfind t.hostLines (v / 512) = none ∧ (∀ a ∈ t.hostMarks, a / 512 ≠ v / 512) ∧
    { t with hostLines := s.hostLines, hostMarks := s.hostMarks } = s)

/-! ### The fabric (25) -/

/-- 25 R418 to R426: a request of an accepted source is performed at the line that its redirect entry names and answered with the bytes or
an acknowledgement; one with a reserved field counts as an error of its port, one from a source that is not accepted or to no redirected line
is denied. A request whose function has moved away is answered MOVED. The response frees its slot and completes the load, DENIED freezes the requester, MOVED sends the packet again while the
VDN table routes it; a request
MOVED for 1 ms, or a slot with no response for 2 ms, is a violation. What the fabric manager writes stands in its entry. The layout of
payloads and the codes of violations are the model's (log entries 20, 36). -/
def Obligations.FabricEventsComplete : Prop := ∀ (s : State) (p : Packet) (core i v w func : Nat),
  let clear : Prop := ∀ e ∈ s.funcs, e.2.domState = 0
  let leaves (q : Packet) : Packet := { q with port := (s.portOf q.dst q.addr).getD 0 }
  (∀ f ma, clear → pktSound p = true → 1 ≤ p.type → p.type ≤ 4 → p.stat = 0 → p.sealed = none → s.funcOfVdn p.dst = some f →
    s.migs = [] → s.netWait = [] →
    ((tget {} s.vdnTable p.src).accept = true → s.servedAt p = some ma → maBacked ma = true →
      (p.type = 1 → s.memMarks = [] → ∃ t, exec (.remoteRequestReceive p) s = .next t ∧ t.mem = s.mem ∧
        t.netOut = s.netOut ++ [leaves (answer p 0 (readBytes s.mem ma 128))]) ∧
      (p.type = 2 → s.snooped (.loc ma) = false → p.payload.length = 144 → ∃ t, exec (.remoteRequestReceive p) s = .next t ∧
        t.netOut = s.netOut ++ [leaves (answer p 0 [])] ∧
        (∀ j, j < 128 → tget 0 t.mem (ma + j) = if bitOf (ofLE (p.payload.drop 128)) j then (p.payload[j]?).getD 0 else tget 0 s.mem (ma + j)) ∧
        ∀ a, a < ma ∨ ma + 128 ≤ a → tget 0 t.mem a = tget 0 s.mem a)) ∧
    ((tget {} s.vdnTable p.src).accept = false ∨ s.servedAt p = none →
      ∃ t, exec (.remoteRequestReceive p) s = .next t ∧ t.mem = s.mem ∧ t.netOut = s.netOut ++ [leaves (answer p 2 [])])) ∧
  (pktSound p = true → 1 ≤ p.type → p.type ≤ 4 → p.stat = 0 → s.funcOfVdn p.dst = none →
    (s.forwards p.dst = true → exec (.remoteRequestReceive p) s =
      .next { s with netOut := s.netOut ++ [leaves { p with vc := 3 }], fwd := s.fwd ++ [p] }) ∧
    (s.forwards p.dst = false → exec (.remoteRequestReceive p) s =
      .next { s with netOut := s.netOut ++ [leaves (answer p (if p.dst ∈ s.movedVdns then 1 else 2) [])] })) ∧
  (p.broken = true ∨ p.type = 0 ∨ 4 < p.type ∨ (p.vc ≠ 0 ∧ p.vc ≠ 3) ∨ 14 < pktLen p ∨ p.stat ≠ 0 → exec (.remoteRequestReceive p) s =
    .next { s with portErr := tput 0 s.portErr p.port (tget 0 s.portErr p.port + 1) }) ∧
  (∀ f e r pkt, clear → pktSound p = true → p.type = 0x10 → p.sealed = none → s.funcOfVdn p.dst = some f →
    tfind (s.core (ridCore p.rid)).peers (ridPeer p.rid) = some e → tfind e.slots (ridSlot p.rid) = some r → e.vdn = p.src →
    tfind r.pkts (p.addr % 128) = some pkt → pkt.addr = p.addr →
    let slot (t : State) : Option RReq := (tfind (t.core (ridCore p.rid)).peers (ridPeer p.rid)).bind (fun e => tfind e.slots (ridSlot p.rid))
    (∀ gk tok sz d lanes va, r.what = .load gk tok sz d lanes va none none → p.stat = 0 → tdel r.pkts (p.addr % 128) = [] →
      (tfind s.groups gk).isSome = true → (s.core (ridCore p.rid)).later = [] →
      ∃ t, exec (.remoteResponseReceive p) s = .next t ∧ t.mem = s.mem ∧ slot t = none ∧
        ∀ o ∈ (t.group gk).outs, o.tok = tok → o.lanes &&& maskOf (lanes.map (fun x => x.1)) = 0) ∧
    ((∀ x, r.what ≠ .cardCtr 2 x) → p.stat = 2 ∨ p.stat = 1 ∧ s.routes p.src = false →
      ∃ t, exec (.remoteResponseReceive p) s = .next t ∧ (t.func r.func).frozen = true ∧ slot t = none) ∧
    (p.stat = 1 → s.routes p.src = true → ∃ t, exec (.remoteResponseReceive p) s = .next t ∧
      t.netOut = s.netOut ++ [leaves { pkt with sealed := none, stat := 0 }] ∧
      ∃ r', slot t = some r' ∧ r'.what = r.what ∧ r'.movedAt = some (r.movedAt.getD s.clock))) ∧
  (∀ e r, i < 128 → tfind (s.core core).peers (i / 8) = some e → tfind e.slots (i % 8) = some r →
    (∀ x, r.movedAt = some x → x + 4000000 ≤ s.clock → ∃ t, exec (.movedTimeout core i) s = .next t ∧ (t.func r.func).frozen = true) ∧
    (r.movedAt = none → exec (.movedTimeout core i) s = .next s) ∧
    (r.since + 8000000 ≤ s.clock → (s.core core).later = [] → ∃ t, exec (.responseSlotTimeout core i) s = .next t ∧ (t.func r.func).frozen = true ∧
      (((tfind (t.core core).peers (i / 8)).bind (fun e => tfind e.slots (i % 8))) = none)) ∧
    (s.clock < r.since + 8000000 → exec (.responseSlotTimeout core i) s = .next s)) ∧
  (∀ e r x, tfind (s.core core).peers i = some e → e.stores = [r] → r.movedAt = some x → x + 4000000 ≤ s.clock →
    ∃ t, exec (.movedTimeout core (128 + i)) s = .next t ∧ (t.func r.func).frozen = true) ∧
  (func < 128 → v < 4096 → (∀ e ∈ s.funcs, e.2.vdn = some v → e.1 = func) → ∃ t, exec (.fmVdnBind func v) s = .next t ∧
    (t.func func).vdn = some v ∧ v ∉ t.movedVdns ∧ ∀ f, f ≠ func → t.func f = s.func f) ∧
  (v < 4096 → ∃ t, exec (.fmVdnTableWrite v w) s = .next t ∧ (∀ j, j ≠ v → tget {} t.vdnTable j = tget {} s.vdnTable j) ∧
    let e := tget {} t.vdnTable v
    e.ports = BitVec.ofNat 64 (w / 2 ^ 64) ∧ e.valid = bitOf w 63 ∧ e.accept = bitOf w 62) ∧
  (v < 1024 → ∃ t, exec (.fmRedirectWrite v w) s = .next t ∧ (∀ j, j ≠ v → tget {} t.redirect j = tget {} s.redirect j) ∧
    let e := tget {} t.redirect v
    e.vdn = w / 2 ^ 116 % 4096 ∧ e.w = bitOf w 113 ∧ e.r = bitOf w 112 ∧ e.old = w / 2 ^ 76 % 2 ^ 36 ∧ e.new = w / 2 ^ 40 % 2 ^ 36 ∧
    e.len = w / 2 ^ 8 % 2 ^ 32 ∧ e.valid = bitOf w 0)

/-! ### Live migration (23) -/

/-- 23 R391 to R406: START opens track windows with every bit set over the local pages, tells the destination of them and copies; ACCEPT waits
for the copies on the destination, which must map those pages; ABORT, FORCE and CLEAR; a round of the Trowel clears the maps and copies
the blocks that were dirty, a block by quarters, and its end predicts the blackout and stops the function when that fits the budget; the last move of
the stop phase forwards the VDN; 64 us later, as the lowest core clock counts them (00 R5), the source frees what it held; a copy that comes
is written through the destination's own stage 2, step 6 brings the VDN, and a source that has given up ends the destination's block; the
first issue of the function there ends the blackout. A command that does not apply fails with its reason. The layout of copies and the
codes of failed commands are the model's (log entries 22, 38). -/
def Obligations.MigrationEventsComplete : Prop := ∀ (s : State) (m gk : Nat) (p : Packet),
  let x := s.mig m
  let goes (t : State) (st : Nat) : Prop := (t.mig m).st = st ∧ (t.mig m).func = x.func
  let clear : Prop := ∀ e ∈ s.funcs, e.2.domState = 0
  let leaves (q : Packet) : Packet := { q with port := (s.portOf q.dst q.addr).getD 0 }
  let fails (i : Instr) (cmd why : Nat) : Prop := exec i s = .next (s.cmdEvent cmd s.cmdSeq (some why))
  m < 8 →
    (x.st = 0 → (s.func x.func).exist = true → (s.func x.func).frozen = false → (∀ e ∈ s.migs, e.1 ≠ m → e.2.func = x.func → e.2.st = 0) →
      (x.bw = 0 ∨ 1024 < x.bw → fails (.migStart m) 1 2) ∧
      (1 ≤ x.bw → x.bw ≤ 1024 → s.growWins x.func = none → fails (.migStart m) 1 3) ∧
      (∀ s1, 1 ≤ x.bw → x.bw ≤ 1024 → s.growWins x.func = some s1 → ∃ t, exec (.migStart m) s = .next t ∧ goes t 1 ∧ (t.mig m).phase = 2 ∧
        t.mem = s.mem ∧
        (∀ e ∈ s.leavesOf x.func, ∃ w ∈ t.wins, w.func = x.func ∧ w.base ≤ e.2 ∧ e.2 < w.base + w.len) ∧
        ∀ w ∈ t.wins, w ∈ s.wins ∨ w.func = x.func ∧ w.dirty = (List.range (w.len * 128)).map (· + w.base * 128))) ∧
    (x.st ≠ 0 → fails (.migStart m) 1 3 ∧ fails (.migAccept m) 2 3) ∧
    (x.st = 0 → (s.func x.func).exist = true → s.hasTeams x.func = false →
      (s.mapsAll x.func x.map = true → ∃ t, exec (.migAccept m) s = .next t ∧ goes t 8 ∧ t.mem = s.mem ∧
        t.netOut = s.netOut ++ x.owed.map (fun q => leaves (copyAck q 0))) ∧
      (s.mapsAll x.func x.map = false → fails (.migAccept m) 2 3)) ∧
    ((x.st = 1 ∨ x.st = 2) → s.retireWait = [] → ∃ t, exec (.migAbort m) s = .next t ∧ goes t 6 ∧ t.mem = s.mem ∧ (∀ w ∈ t.wins, w.func ≠ x.func) ∧
      (clear → t.netOut = s.netOut ++ [leaves (s.migPacket x 0x30 0 (leBytes 2 1))])) ∧
    (x.st ≠ 1 → x.st ≠ 2 → fails (.migAbort m) 3 3) ∧
    (x.st ≠ 2 → fails (.migForce m) 4 3) ∧
    (x.st = 2 → s.saving = [] → ∃ t, exec (.migForce m) s = .next t ∧ goes t 3 ∧ (t.func x.func).pri = [] ∧ t.mem = s.mem ∧
      ∀ e ∈ s.teams, e.2.func = x.func → (s.plane (3 * e.2.core + e.2.plane)).teams ≠ [] → ∃ j ∈ t.saving, j.plane = 3 * e.2.core + e.2.plane) ∧
    ((x.st = 5 ∨ x.st = 6 ∨ x.st = 7 ∨ x.st = 9) → ∃ t, exec (.migClear m) s = .next t ∧ goes t 0 ∧ (t.mig m).bw = x.bw ∧ (t.mig m).budget = x.budget) ∧
    (x.st < 5 ∨ x.st = 8 → fails (.migClear m) 5 3) ∧
    (x.st = 1 → x.phase = 2 → (0 < x.unacked → exec (.trowelRound m) s = .next s) ∧
      (x.unacked = 0 → exec (.trowelRound m) s = .next (s.setMig m { x with phase := 0 }))) ∧
    (x.st = 1 → x.phase ≠ 2 ∧ s.copyLate x = true ∨ x.phase = 0 ∧ s.growWins x.func = none → s.retireWait = [] →
      ∃ t, exec (.trowelRound m) s = .next t ∧ goes t 7 ∧ t.mem = s.mem ∧ ∀ w ∈ t.wins, w.func ≠ x.func) ∧
    (∀ s1, x.st = 1 → x.phase = 0 → s.copyLate x = false → s.growWins x.func = some s1 → ∃ t, exec (.trowelRound m) s = .next t ∧ goes t 1 ∧
      (t.mig m).phase = 1 ∧ (∀ w ∈ t.wins, w.func = x.func → w.dirty = []) ∧
      (t.mig m).todo = (s1.wins.filter (fun w => decide (w.func = x.func))).flatMap (fun w => w.dirty)) ∧
    (∀ b r page, x.st = 1 → x.phase = 1 → s.copyLate x = false → x.todo = b :: r → x.kept = [] →
      (s.leavesOf x.func).filter (fun e => decide (e.2 = b / 128)) = [(page, b / 128)] → clear →
      ∃ t, exec (.trowelRound m) s = .next t ∧ goes t 1 ∧ (t.mig m).todo = r ∧ (t.mig m).unacked = x.unacked + 4 ∧
        t.netOut = s.netOut ++ (List.range 4).map (fun i => leaves (s.migPacket x 0x30 0
          (leBytes 0 1 ++ leBytes (page * 65536 + b % 128 * 512 + 128 * i) 8 ++ ((readBytes s.mem (b * 512) 512).drop (128 * i)).take 128 ++
            bitBytes 16 (fun j => s.memMarks.contains (b * 512 + 128 * i + j)))))) ∧
    (let r := s.resid x.func
     x.st = 1 → x.phase = 1 → x.todo = [] → x.unacked = 0 → ∃ t, exec (.trowelRound m) s = .next t ∧ t.mem = s.mem ∧
      (t.mig m).round = x.round + 1 ∧ (t.mig m).resid = r ∧ (t.mig m).pred = 250000 + r / x.bw ∧
      (t.mig m).st = if 250000 + r / x.bw ≤ 1000 * x.budget then 3 else if 16 ≤ x.round + 1 then 2 else 1) ∧
    (x.st = 3 → x.phase = 2 → x.unacked = 0 → s.retireWait = [] → clear → ∃ t, exec (.trowelRound m) s = .next t ∧ goes t 4 ∧
      (t.func x.func).vdn = none ∧ (t.mig m).vdn = (s.func x.func).vdn ∧
      t.netOut = s.netOut ++ [leaves (s.migPacket x 0x30 0 (leBytes 4 1 ++ leBytes (if (s.func x.func).vdn.isSome then 1 else 0) 1))] ++
        x.hold.map (fun q => leaves { q with vc := 3 })) ∧
    (x.st = 4 → s.clock < x.since + s.bound 256000 → exec (.forwardingEnd m) s = .next s) ∧
    (x.st = 4 → x.since + s.bound 256000 ≤ s.clock → ∃ t, exec (.forwardingEnd m) s = .next t ∧ goes t 5 ∧ (t.func x.func).queues = [] ∧
      (t.func x.func).grant = [] ∧ (∀ y ∈ t.saved, y.func ≠ x.func) ∧ (∀ e ∈ t.grids, e.2.func ≠ x.func) ∧ (∀ v, x.vdn = some v → v ∈ t.movedVdns) ∧
      ∀ a, (s.func x.func).grant.contains (a / 2 ^ 20) = true → tget 0 t.chip a = 0) ∧
    (let kind := recNum p.payload 0 1
     x.st = 8 → pktSound p = true → p.type = 0x30 → p.sealed = none → (s.func x.func).domState = 0 →
     (∀ ma, kind = 0 → x.phase = 0 → 137 ≤ p.payload.length → s.copyAt x p = some ma → s.snooped (.loc ma) = false →
      ∃ t, exec (.migCopyReceive m p) s = .next t ∧ goes t 8 ∧ t.netOut = s.netOut ++ [leaves (copyAck p 0)] ∧ ma / 128 ∈ (t.mig m).recv ∧
        (∀ i, i < 128 → some (tget 0 t.mem (ma + i)) = p.payload[9 + i]?) ∧ ∀ a, a < ma ∨ ma + 128 ≤ a → tget 0 t.mem a = tget 0 s.mem a) ∧
     (kind = 4 → x.phase = 0 → x.manifest.isSome = true → ∃ t, exec (.migCopyReceive m p) s = .next t ∧ goes t 8 ∧ (t.mig m).phase = 1 ∧
       t.mem = s.mem ∧ (recNum p.payload 1 1 = 1 → (t.func x.func).vdn = some p.src)) ∧
     (kind = 2 → ∃ t, exec (.migCopyReceive m p) s = .next t ∧ goes t 7 ∧ (x.phase ≠ 0 → t.mem = s.mem) ∧
       ∀ a, a / 128 ∉ x.recv → tget 0 t.mem a = tget 0 s.mem a)) ∧
    (∀ man, x.st = 8 → x.phase ≠ 1 → x.manifest = some man → exec (.migResume m) s = .next s) ∧
    (∀ man, x.st = 8 → x.phase = 1 → x.manifest = some man →
      (∃ s1 bs, s.devRead 0 x.func true (s.func x.func).savebase (recNum man 24 8) = .ok s1 bs ∧ splitImages (recNum man 24 8 / 32 + 1) bs = none) ∨
      (∃ r va, s.devRead 0 x.func true (s.func x.func).savebase (recNum man 24 8) = .stop r va) →
      ∃ t, exec (.migResume m) s = .next t ∧ goes t 7 ∧ (t.func x.func).frozen = true) ∧
    (∀ man, x.st = 8 → x.phase = 1 → x.manifest = some man → recNum man 24 8 = 0 →
      ∃ t, exec (.migResume m) s = .next t ∧ goes t 8 ∧ (t.mig m).phase = 2 ∧ t.saved = s.saved ∧
        (t.func x.func).meter.ccyc = recNum man 32 8 ∧ (t.func x.func).meter.hbmbs = recNum man 96 8 ∧ (t.func x.func).meter.seq = recNum man 112 8) ∧
    (∀ tm man, s.team? (gk / 32) = some tm →
      s.migs.find? (fun e => decide (e.2.func = tm.func) && decide (e.2.st = 8) && decide (e.2.phase = 2)) = some (m, x) → x.manifest = some man →
      let t := s.firstIssue gk
      let cycles := 4 * (Config.blackout s.freeCtr).toNat + (s.clock - x.since)
      goes t 9 ∧ (t.mig m).blackout = cycles / 4 ∧ (t.func x.func).clockOff = ((recNum man 16 8 + cycles : Nat) : Int) - s.clock)

/-! ### Collectives and trust domains (26, 27) -/

/-- 26 R432, R436, R439 to R443, R447, R449: a request is kept until its cycle ends, and then granted in the slot of its instance or a
free one, queued while 1,024 requests may wait, and refused with an early answer otherwise; the last contribution of a tile reduces it and returns it to every member, and one
under another algorithm is refused; CANCEL takes back a grant that nothing was pushed under, or an idle
channel; the failure of a member and the last
acknowledgement release the slot, which a persistent channel keeps for its next instance; a grant lets the cards of its instance push, a
refusal ends them, with no count where the whole instance ends; traffic for no card here is held, answered as early or dropped as late; a
NACKed packet leaves again after 1 us; a mesh is set. The layout of payloads, the hold buffer's count and the form of a refusal are the
model's (log entries 21, 35). -/
def Obligations.CollectiveEventsComplete : Prop := ∀ (s : State) (p : Packet) (func mesh : Nat) (members : List Nat),
  let h := headOf p.payload
  let clear : Prop := (∀ e ∈ s.funcs, e.2.domState = 0) ∧ s.doms = []
  let plain (ty : Nat) : Prop := clear ∧ pktSound p = true ∧ p.sealed = none ∧ p.type = ty
  let leaves (q : Packet) : Packet := { q with port := (s.portOf q.dst q.addr).getD 0 }
  let slotOf (x : SwSlot) : Prop := s.sw.groupOf p.src h.alg.axes = some x.group ∧ x.handle = pktHandle p ∧ x.inst = pktInst p
  (∀ g, plain 0x20 → s.sw.groupOf p.src h.alg.axes = some g →
    let r : SwSlot := { group := g, handle := pktHandle p, inst := pktInst p, alg := h.alg, vdn := p.src, weight := h.weight,
                        since := s.clock, kind := h.step }
    exec (.slotreq p) s = .next { s with sw := { s.sw with inbox := s.sw.inbox ++ [(r, p)] } }) ∧
  (∀ r q, clear → s.sw.inbox = [(r, q)] → let w := s.serveInbox.sw
    w.inbox = [] ∧
    ((∀ x ∈ s.sw.slots, x.group = r.group → x.handle ≠ r.handle) →
      (s.sw.slots.length < 256 → w.slots = s.sw.slots ++ [{ r with granted := [r.vdn] }] ∧ w.out = s.sw.out ++ [grantTo r r.vdn]) ∧
      (256 ≤ s.sw.slots.length → s.sw.queue.length < 1024 → w.queue = s.sw.queue ++ [r] ∧ w.slots = s.sw.slots ∧ w.out = s.sw.out) ∧
      (256 ≤ s.sw.slots.length → 1024 ≤ s.sw.queue.length → w.slots = s.sw.slots ∧ w.queue = s.sw.queue ∧
        w.out = s.sw.out ++ [{ q with dst := q.src, src := 0, type := 0x27, stat := 4, rid := 2 * q.type + 1 }])) ∧
    (∀ x, s.sw.slots = [x] → x.group = r.group → x.handle = r.handle →
      (x.inst = r.inst → w.slots = [{ x with granted := x.granted ++ [r.vdn] }] ∧ w.out = s.sw.out ++ [grantTo x r.vdn]) ∧
      (x.inst ≠ r.inst → x.idle = true → w.slots = [{ r with granted := [r.vdn] }]) ∧
      (x.inst ≠ r.inst → x.idle = false → s.sw.queue.length < 1024 → w.slots = [x] ∧ w.queue = s.sw.queue ++ [r]))) ∧
  (∀ x, s.sw.slots = [x] → slotOf x →
    (plain 0x22 → x.alg ≠ h.alg → ∃ t, exec (.push p) s = .next t ∧ t.sw.slots = [x] ∧
      t.sw.out = s.sw.out ++ [refuseTo x p.src h.tile 1 h.alg]) ∧
    (plain 0x22 → x.alg = h.alg → x.kind ≠ 1 → x.marks = [] → h.marked = false →
      let data := p.payload.drop 16
      let place (q o : Nat) : Nat := q * 2 ^ 60 + h.tile * 2 ^ 20 + o
      let parts := writeBytes x.parts (place h.rank h.off) data
      let piece := place h.rank h.off * 256 + data.length % 256
      let came := if x.came.contains piece then x.came else x.came ++ [piece]
      let full : Prop := ∀ q, q < x.group.length →
        x.alg.tileb ≤ (((came.filter (fun e => decide (e / 2 ^ 28 = q * 2 ^ 40 + h.tile))).map (fun e => e % 256)).foldl (· + ·) 0)
      (¬ full ∨ h.tile ∈ x.tiles → ∃ t, exec (.push p) s = .next t ∧ t.sw.slots = [{ x with parts := parts, came := came }] ∧ t.sw.out = s.sw.out) ∧
      (full → h.tile ∉ x.tiles →
        let res := reduceTile x.alg ((List.range x.group.length).map (fun q => readBytes parts (place q 0) x.alg.tileb))
        ∃ t, exec (.push p) s = .next t ∧ t.sw.slots = [{ x with parts := parts, came := came, tiles := x.tiles ++ [h.tile] }] ∧
          t.sw.out = s.sw.out ++ x.group.flatMap (fun v => (collPackets 208 0x23 0 v x.handle x.inst
            { tile := h.tile, rank := 0, off := 0, alg := x.alg, step := h.step } ((res.1 ++ res.2).map (fun b => (b, false)))).map
              (fun p => { p with rid := 1 })))) ∧
    (plain 0x26 → s.sw.queue = [] →
      (h.off ≠ 1 → x.pushedBy p.src = true → ∃ t, exec (.cancel p) s = .next t ∧ t.sw.slots = [x] ∧ t.sw.out = s.sw.out) ∧
      (h.off ≠ 1 → x.pushedBy p.src = false → let left := x.granted.filter (fun v => decide (v ≠ p.src))
        ∃ t, exec (.cancel p) s = .next t ∧ t.sw.out = s.sw.out ∧
          t.sw.slots = if left = [] ∧ x.came = [] then [] else [{ x with granted := left }]) ∧
      (h.off = 1 → ∃ t, exec (.cancel p) s = .next t ∧ t.sw.slots = (if x.idle = true then [] else [x]) ∧ t.sw.out = s.sw.out)) ∧
    (clear → s.sw.queue = [] → ∃ t, exec (.collectiveGroupBroken 0) s = .next t ∧ t.sw.slots = [] ∧
      t.sw.out = s.sw.out ++ x.group.map (fun v => refuseTo x v 0 0 x.alg)) ∧
    (let k := h.off * 2 ^ 48 + h.rank * 2 ^ 32 + h.tile
     plain 0x27 → p.stat = 0 → p.rid % 2 = 1 → k ∉ x.acked → s.sw.queue = [] →
      (x.whole ≤ x.acked.length + 1 → ∃ t, exec (.ack p) s = .next t ∧
        t.sw.slots = if x.kind = 2 then [{ x with acked := x.acked ++ [k] }] else []) ∧
      (x.acked.length + 1 < x.whole → ∃ t, exec (.ack p) s = .next t ∧ t.sw.slots = [{ x with acked := x.acked ++ [k] }]))) ∧
  (∀ f, plain 0x27 → s.migs = [] → p.stat = 4 → (fromSwitch (p.rid / 2) p.rid = true ∨ s.funcOfVdn p.dst = some f) →
    ∃ t q, exec (.ack p) s = .next t ∧ t.early = s.early ++ [(s.clock + s.bound 4000, q)] ∧ q.dst = p.src ∧ q.src = p.dst ∧
      q.type = p.rid / 2 ∧ q.stat = 0 ∧ q.payload = p.payload) ∧
  (∀ c q, clear → s.early = [(c, q)] →
    (s.clock < c → exec .earlyRetry s = .next s) ∧
    (c ≤ s.clock → ∃ t, exec .earlyRetry s = .next t ∧ t.early = [] ∧
      if fromSwitch q.type q.rid = true then t.sw.out = s.sw.out ++ [q] ∧ t.netOut = s.netOut
      else t.netOut = s.netOut ++ [leaves q] ∧ t.sw = s.sw)) ∧
  (∀ f ty, plain ty → s.migs = [] → s.funcOfVdn p.dst = some f →
    let mine (c : Card) : Prop := c.func = f ∧ 0xE0 ≤ c.maj ∧ 1 ≤ c.phase ∧ c.inst % 2 ^ 20 = pktInst p ∧ s.handleOf c = some (pktHandle p)
    (∀ c, s.allCards = [c] → mine c → c.maj ≠ 0xE0 →
      (ty = 0x21 → ∃ t, exec (.slotgrant p) s = .next t ∧ t.mem = s.mem ∧ ∀ x ∈ t.allCards, x.phase = 2) ∧
      (ty = 0x23 → p.stat = 3 → (s.func f).frozen = false →
        (h.off = 0 → ∃ t, exec (.result p) s = .next t ∧ t.mem = s.mem ∧
          ∀ x ∈ t.allCards, x.status = max c.status 3 ∧ x.counter = (if c.fn = 1 then c.counter else 0) ∧ ∃ e, x.st = .finished e) ∧
        (h.off ≠ 0 → h.tile ∈ c.range.take c.done → (s.redOf c).map (fun r => r.1.alg) = some h.alg → ∃ t, exec (.result p) s = .next t ∧
          t.mem = s.mem ∧ ∀ x ∈ t.allCards, x.status = max c.status 3 ∧ x.counter = c.counter ∧ ∃ e, x.st = .finished e) ∧
        (h.off ≠ 0 → h.tile ∉ c.range.take c.done → ∃ t, exec (.result p) s = .next t ∧ t.allCards = [c] ∧ t.mem = s.mem))) ∧
    (s.allCards = [] → ∀ e, (e = .mcast p ∧ ty = 0x24 ∧ p.rid ≠ 2 ∨ e = .a2a p ∧ ty = 0x25 ∨ e = .result p ∧ ty = 0x23 ∧ p.stat ≠ 3) →
      let d : Nat := (pktInst p + 2 ^ 20 - ((s.func f).hset (pktHandle p)).1 % 2 ^ 20) % 2 ^ 20
      (d ≤ 1 → s.collHeld = [] → ∃ t, exec e s = .next t ∧ t.collHeld = [p] ∧ t.mem = s.mem) ∧
      (2 ≤ d → d < 524288 → ∃ t, exec e s = .next t ∧ t.collHeld = s.collHeld ∧
        t.netOut = s.netOut ++ [leaves { p with dst := p.src, src := p.dst, type := 0x27, vc := 2, stat := 4, rid := 2 * p.type + p.rid % 2 }]) ∧
      (524288 ≤ d → ∃ t, exec e s = .next t ∧ t.netOut = s.netOut ∧ t.collHeld = s.collHeld ∧ t.mem = s.mem ∧
        t.portErr = tput 0 s.portErr p.port (tget 0 s.portErr p.port + 1)))) ∧
  (let ext := ((List.range 4).map (fun a => mesh / 256 ^ a % 256)).takeWhile (fun e => decide (e ≠ 0))
   ext ≠ [] → members.length = ext.foldl (· * ·) 1 → members.length ≤ 4096 → ∃ t, exec (.fmMeshSet func mesh members) s = .next t ∧
    (t.func func).mesh = some ⟨ext, members⟩ ∧ t.sw.meshes = (s.sw.meshes.filter (fun x => !x.vdns.any (fun v => members.contains v))) ++ [⟨ext, members⟩])

/-- 27 R450 to R460: a function joins a domain as a member, as one admitted ahead of its arrival, or not at all; it leaves; the leader
begins a rekey or lets one follow that in progress, each device switches its members to the next key with their counters at 0, a member arrives once nothing of it is out
under the old epoch, and DONE retires the old epoch with its replay windows; an exhausted counter asks for a rekey. The events that
stand for the leader's messages are the model's (log entry 37). -/
def Obligations.DomainEventsComplete : Prop := ∀ (s : State) (func dom epoch member : Nat) (leads : Bool) (members : List Nat),
  let d := s.domAt dom
  let f := s.func func
  let other : Prop := (f.domState = 1 ∨ f.domState = 2) ∧ f.dom ≠ dom
  (∀ ok pre, other → exec (.domainJoin func dom epoch ok pre leads members) s = .next s) ∧
  (¬ other → func < 128 → dom < 4096 → members.length ≤ 512 →
    (∃ t, exec (.domainJoin func dom epoch false false leads members) s = .next t ∧ (t.func func).domState = 3 ∧ t.doms = s.doms) ∧
    (∃ t, exec (.domainJoin func dom epoch true true leads members) s = .next t ∧ (t.func func).domState = 1 ∧ (t.func func).dom = dom ∧
      (t.domAt dom).members = members) ∧
    (∃ t, exec (.domainJoin func dom epoch true false leads members) s = .next t ∧ (t.func func).domState = 2 ∧ (t.func func).dom = dom ∧
      (f.domState ≠ 2 → (t.func func).seqs = [] ∧ (t.func func).replay = []) ∧ (t.domAt dom).members = members ∧ (t.domAt dom).leader = leads ∧
      (t.domAt dom).epoch = (if (tfind s.doms dom).isSome then d.epoch else epoch) ∧ .rekeyStart dom ∈ t.agenda)) ∧
  (f.domState ≠ 0 → ∃ t, exec (.domainLeave func) s = .next t ∧ (t.func func).domState = 0 ∧
    (f.domState = 2 → .rekeyStart f.dom ∈ t.agenda ∧ ∀ v, f.vdn = some v → v ∉ (t.domAt f.dom).members)) ∧
  (d.leader = true → d.rekey = none → ∃ t, exec (.rekeyStart dom) s = .next t ∧ (t.domAt dom).rekey = some [] ∧ .keyInstall dom ∈ t.agenda ∧
    (t.domAt dom).epoch = d.epoch) ∧
  (d.leader = true → d.rekey ≠ none → ∃ t, exec (.rekeyStart dom) s = .next t ∧ (t.domAt dom).again = true ∧ (t.domAt dom).rekey = d.rekey) ∧
  (d.leader = false → exec (.rekeyStart dom) s = .next s) ∧
  (d.switched = false → s.localMembers dom ≠ [] → s.sealWait = [] → ∃ t, exec (.keyInstall dom) s = .next t ∧ (t.domAt dom).switched = true ∧
    (t.domAt dom).rekey = some (d.rekey.getD []) ∧ ∀ m ∈ s.localMembers dom, (t.func m).seqs = []) ∧
  (∀ l, d.rekey = some l → member ∈ d.members → member ∉ l →
    (s.mayArrive dom member = true → ∃ t, exec (.rekeyBarrierArrival dom member) s = .next t ∧ (t.domAt dom).rekey = some (l ++ [member])) ∧
    (s.mayArrive dom member = false → exec (.rekeyBarrierArrival dom member) s = .next s)) ∧
  (∀ l, d.rekey = some l → d.switched = true → (d.leader = true → ∀ v ∈ d.members, v ∈ l) → ∃ t, exec (.rekeyDone dom) s = .next t ∧
    (t.domAt dom).epoch = d.epoch + 1 ∧ (t.domAt dom).rekey = none ∧ (t.domAt dom).switched = false ∧
    (d.again = true → .rekeyStart dom ∈ t.agenda) ∧
    ∀ m ∈ s.localMembers dom, ∀ w ∈ (t.func m).replay, w.1 / 16384 ≠ d.epoch) ∧
  ((∃ m ∈ s.localMembers dom, ∃ e ∈ (s.func m).seqs, 2 ^ 63 ≤ e.2) → exec (.seqExhausted dom) s = exec (.rekeyStart dom) s) ∧
  ((∀ m ∈ s.localMembers dom, ∀ e ∈ (s.func m).seqs, e.2 < 2 ^ 63) → exec (.seqExhausted dom) s = .next s)

end Statements
end

