-- ==== Sys2Proof/Laws/Dispatch.lean ====
section
/-!
SUPPORT. `exec` of each constructor is its meaning.
-/
namespace Sys2Proof.Machine

variable (s : State)

theorem exec_mov (h : Hdr) (wide : Bool) (d : RegCode) (a : Src) : exec (.mov h wide d a) s = execMov h wide d a s := rfl
theorem exec_movs (h : Hdr) (d : RegCode) (code : BitVec 12) : exec (.movs h d code) s = execMovs h d code s := rfl
theorem exec_movsw (h : Hdr) (d : RegCode) (code : BitVec 12) : exec (.movsw h d code) s = execMovsw h d code s := rfl
theorem exec_iadd (h : Hdr) (m : SatMode) (d : RegCode) (a : RegCode) (b : Src) : exec (.iadd h m d a b) s = execIadd h m d a b s := rfl
theorem exec_isub (h : Hdr) (m : SatMode) (d : RegCode) (a : RegCode) (b : Src) : exec (.isub h m d a b) s = execIsub h m d a b s := rfl
theorem exec_iaddx (h : Hdr) (m : CarryMode) (d : RegCode) (a : RegCode) (b : RegCode) (pout : BitVec 3) : exec (.iaddx h m d a b pout) s = execIaddx h m d a b pout s := rfl
theorem exec_imul (h : Hdr) (d : RegCode) (a : RegCode) (b : Src) : exec (.imul h d a b) s = execImul h d a b s := rfl
theorem exec_imulh (h : Hdr) (m : HiMode) (d : RegCode) (a : RegCode) (b : Src) : exec (.imulh h m d a b) s = execImulh h m d a b s := rfl
theorem exec_imad (h : Hdr) (d : RegCode) (a : RegCode) (b : Src) (c : RegCode) : exec (.imad h d a b c) s = execImad h d a b c s := rfl
theorem exec_imadw (h : Hdr) (sg : Bool) (d : RegCode) (a : RegCode) (b : Src) (c : RegCode) : exec (.imadw h sg d a b c) s = execImadw h sg d a b c s := rfl
theorem exec_idiv (h : Hdr) (sg : Bool) (d : RegCode) (a : RegCode) (b : Src) : exec (.idiv h sg d a b) s = execIdiv h sg d a b s := rfl
theorem exec_irem (h : Hdr) (sg : Bool) (d : RegCode) (a : RegCode) (b : Src) : exec (.irem h sg d a b) s = execIrem h sg d a b s := rfl
theorem exec_imin (h : Hdr) (sg : Bool) (d : RegCode) (a : RegCode) (b : Src) : exec (.imin h sg d a b) s = execImin h sg d a b s := rfl
theorem exec_imax (h : Hdr) (sg : Bool) (d : RegCode) (a : RegCode) (b : Src) : exec (.imax h sg d a b) s = execImax h sg d a b s := rfl
theorem exec_iabs (h : Hdr) (sat : Bool) (d : RegCode) (a : RegCode) : exec (.iabs h sat d a) s = execIabs h sat d a s := rfl
theorem exec_and (h : Hdr) (d : RegCode) (a : RegCode) (b : Src) : exec (.and h d a b) s = execAnd h d a b s := rfl
theorem exec_or (h : Hdr) (d : RegCode) (a : RegCode) (b : Src) : exec (.or h d a b) s = execOr h d a b s := rfl
theorem exec_xor (h : Hdr) (d : RegCode) (a : RegCode) (b : Src) : exec (.xor h d a b) s = execXor h d a b s := rfl
theorem exec_andn (h : Hdr) (d : RegCode) (a : RegCode) (b : Src) : exec (.andn h d a b) s = execAndn h d a b s := rfl
theorem exec_lop3 (h : Hdr) (d : RegCode) (a : RegCode) (b : RegCode) (c : RegCode) (lut : BitVec 8) : exec (.lop3 h d a b c lut) s = execLop3 h d a b c lut s := rfl
theorem exec_shl (h : Hdr) (d : RegCode) (a : RegCode) (b : Src) : exec (.shl h d a b) s = execShl h d a b s := rfl
theorem exec_shr (h : Hdr) (d : RegCode) (a : RegCode) (b : Src) : exec (.shr h d a b) s = execShr h d a b s := rfl
theorem exec_sar (h : Hdr) (d : RegCode) (a : RegCode) (b : Src) : exec (.sar h d a b) s = execSar h d a b s := rfl
theorem exec_rol (h : Hdr) (d : RegCode) (a : RegCode) (b : Src) : exec (.rol h d a b) s = execRol h d a b s := rfl
theorem exec_fshf (h : Hdr) (right : Bool) (d : RegCode) (a : RegCode) (b : RegCode) (n : Sel 5) : exec (.fshf h right d a b n) s = execFshf h right d a b n s := rfl
theorem exec_popc (h : Hdr) (d : RegCode) (a : RegCode) : exec (.popc h d a) s = execPopc h d a s := rfl
theorem exec_clz (h : Hdr) (d : RegCode) (a : RegCode) : exec (.clz h d a) s = execClz h d a s := rfl
theorem exec_brev (h : Hdr) (d : RegCode) (a : RegCode) : exec (.brev h d a) s = execBrev h d a s := rfl
theorem exec_bfx (h : Hdr) (sg : Bool) (d : RegCode) (a : RegCode) (f : Sel 16) : exec (.bfx h sg d a f) s = execBfx h sg d a f s := rfl
theorem exec_bfi (h : Hdr) (d : RegCode) (a : RegCode) (b : RegCode) (f : Sel 16) : exec (.bfi h d a b f) s = execBfi h d a b f s := rfl
theorem exec_prmt (h : Hdr) (d : RegCode) (a : RegCode) (b : RegCode) (f : Sel 20) : exec (.prmt h d a b f) s = execPrmt h d a b f s := rfl
theorem exec_sel (h : Hdr) (wide : Bool) (d : RegCode) (a : RegCode) (b : Src) (c : RegCode) : exec (.sel h wide d a b c) s = execSel h wide d a b c s := rfl
theorem exec_isetp (h : Hdr) (m : Cmp) (d : RegCode) (a : RegCode) (b : Src) : exec (.isetp h m d a b) s = execIsetp h m d a b s := rfl
theorem exec_icmps (h : Hdr) (m : Cmp) (d : RegCode) (a : RegCode) (b : Src) : exec (.icmps h m d a b) s = execIcmps h m d a b s := rfl
theorem exec_plop (h : Hdr) (d : RegCode) (a : RegCode) (b : RegCode) (c : RegCode) (lut : BitVec 8) : exec (.plop h d a b c lut) s = execPlop h d a b c lut s := rfl
theorem exec_p2g (h : Hdr) (d : RegCode) : exec (.p2g h d) s = execP2g h d s := rfl
theorem exec_g2p (h : Hdr) (a : RegCode) (mask : BitVec 7) : exec (.g2p h a mask) s = execG2p h a mask s := rfl
theorem exec_iadd64 (h : Hdr) (d : RegCode) (a : RegCode) (b : Src) : exec (.iadd64 h d a b) s = execIadd64 h d a b s := rfl
theorem exec_isub64 (h : Hdr) (d : RegCode) (a : RegCode) (b : Src) : exec (.isub64 h d a b) s = execIsub64 h d a b s := rfl
theorem exec_lea (h : Hdr) (sg : Bool) (d : RegCode) (a : RegCode) (b : RegCode) (sh : BitVec 3) : exec (.lea h sg d a b sh) s = execLea h sg d a b sh s := rfl
theorem exec_isetp64 (h : Hdr) (m : Cmp) (d : RegCode) (a : RegCode) (b : Src) : exec (.isetp64 h m d a b) s = execIsetp64 h m d a b s := rfl
theorem exec_shl64 (h : Hdr) (d : RegCode) (a : RegCode) (b : Src) : exec (.shl64 h d a b) s = execShl64 h d a b s := rfl
theorem exec_shr64 (h : Hdr) (arith : Bool) (d : RegCode) (a : RegCode) (b : Src) : exec (.shr64 h arith d a b) s = execShr64 h arith d a b s := rfl
theorem exec_idp4 (h : Hdr) (asg : Bool) (bsg : Bool) (sat : Bool) (d : RegCode) (a : RegCode) (b : Src) (c : RegCode) : exec (.idp4 h asg bsg sat d a b c) s = execIdp4 h asg bsg sat d a b c s := rfl
theorem exec_idp2 (h : Hdr) (asg : Bool) (bsg : Bool) (sat : Bool) (d : RegCode) (a : RegCode) (b : Src) (c : RegCode) : exec (.idp2 h asg bsg sat d a b c) s = execIdp2 h asg bsg sat d a b c s := rfl
theorem exec_fadd (h : Hdr) (rm : Rm) (sub : Bool) (d : RegCode) (a : RegCode) (b : Src) : exec (.fadd h rm sub d a b) s = execFadd h rm sub d a b s := rfl
theorem exec_fmul (h : Hdr) (rm : Rm) (d : RegCode) (a : RegCode) (b : Src) : exec (.fmul h rm d a b) s = execFmul h rm d a b s := rfl
theorem exec_ffma (h : Hdr) (rm : Rm) (np : Bool) (nc : Bool) (d : RegCode) (a : RegCode) (b : Src) (c : RegCode) : exec (.ffma h rm np nc d a b c) s = execFfma h rm np nc d a b c s := rfl
theorem exec_fmin (h : Hdr) (d : RegCode) (a : RegCode) (b : Src) : exec (.fmin h d a b) s = execFmin h d a b s := rfl
theorem exec_fmax (h : Hdr) (d : RegCode) (a : RegCode) (b : Src) : exec (.fmax h d a b) s = execFmax h d a b s := rfl
theorem exec_fsetp (h : Hdr) (m : FCmp) (d : RegCode) (a : RegCode) (b : Src) : exec (.fsetp h m d a b) s = execFsetp h m d a b s := rfl
theorem exec_fclass (h : Hdr) (f : FKind) (d : RegCode) (a : RegCode) : exec (.fclass h f d a) s = execFclass h f d a s := rfl
theorem exec_fdiv (h : Hdr) (d : RegCode) (a : RegCode) (b : Src) : exec (.fdiv h d a b) s = execFdiv h d a b s := rfl
theorem exec_fsqrt (h : Hdr) (d : RegCode) (a : RegCode) : exec (.fsqrt h d a) s = execFsqrt h d a s := rfl
theorem exec_frcp (h : Hdr) (d : RegCode) (a : RegCode) : exec (.frcp h d a) s = execFrcp h d a s := rfl
theorem exec_frsq (h : Hdr) (d : RegCode) (a : RegCode) : exec (.frsq h d a) s = execFrsq h d a s := rfl
theorem exec_fex2 (h : Hdr) (d : RegCode) (a : RegCode) : exec (.fex2 h d a) s = execFex2 h d a s := rfl
theorem exec_flg2 (h : Hdr) (d : RegCode) (a : RegCode) : exec (.flg2 h d a) s = execFlg2 h d a s := rfl
theorem exec_fsinpi (h : Hdr) (d : RegCode) (a : RegCode) : exec (.fsinpi h d a) s = execFsinpi h d a s := rfl
theorem exec_fcospi (h : Hdr) (d : RegCode) (a : RegCode) : exec (.fcospi h d a) s = execFcospi h d a s := rfl
theorem exec_ftanh (h : Hdr) (d : RegCode) (a : RegCode) : exec (.ftanh h d a) s = execFtanh h d a s := rfl
theorem exec_hadd2 (h : Hdr) (bf : Bool) (rm : Rm) (sub : Bool) (d : RegCode) (a : RegCode) (b : Src) : exec (.hadd2 h bf rm sub d a b) s = execHadd2 h bf rm sub d a b s := rfl
theorem exec_hmul2 (h : Hdr) (bf : Bool) (rm : Rm) (d : RegCode) (a : RegCode) (b : Src) : exec (.hmul2 h bf rm d a b) s = execHmul2 h bf rm d a b s := rfl
theorem exec_hfma2 (h : Hdr) (bf : Bool) (rm : Rm) (d : RegCode) (a : RegCode) (b : Src) (c : RegCode) : exec (.hfma2 h bf rm d a b c) s = execHfma2 h bf rm d a b c s := rfl
theorem exec_hmnmx2 (h : Hdr) (bf : Bool) (max : Bool) (d : RegCode) (a : RegCode) (b : Src) : exec (.hmnmx2 h bf max d a b) s = execHmnmx2 h bf max d a b s := rfl
theorem exec_cvtff (h : Hdr) (cv : Cv) (sat : Bool) (dst : FKind) (src : FKind) (d : RegCode) (a : RegCode) : exec (.cvtff h cv sat dst src d a) s = execCvtff h cv sat dst src d a s := rfl
theorem exec_cvtfi (h : Hdr) (cv : Cv) (k : IKind) (sat : Bool) (d : RegCode) (a : RegCode) : exec (.cvtfi h cv k sat d a) s = execCvtfi h cv k sat d a s := rfl
theorem exec_cvtif (h : Hdr) (cv : Cv) (k : IKind) (d : RegCode) (a : RegCode) : exec (.cvtif h cv k d a) s = execCvtif h cv k d a s := rfl
theorem exec_cvtpk (h : Hdr) (cv : CvD) (sat : Bool) (d : RegCode) (a : RegCode) (b : RegCode) (slot : BitVec 3) : exec (.cvtpk h cv sat d a b slot) s = execCvtpk h cv sat d a b slot s := rfl
theorem exec_cvtunpk (h : Hdr) (cv : Cv) (sat : Bool) (d : RegCode) (a : RegCode) (b : RegCode) (slot : BitVec 3) : exec (.cvtunpk h cv sat d a b slot) s = execCvtunpk h cv sat d a b slot s := rfl
theorem exec_frnd (h : Hdr) (rm : Rm) (d : RegCode) (a : RegCode) : exec (.frnd h rm d a) s = execFrnd h rm d a s := rfl
theorem exec_fscale (h : Hdr) (rm : Rm) (d : RegCode) (a : RegCode) (b : Src) : exec (.fscale h rm d a b) s = execFscale h rm d a b s := rfl
theorem exec_fgetexp (h : Hdr) (d : RegCode) (a : RegCode) : exec (.fgetexp h d a) s = execFgetexp h d a s := rfl
theorem exec_bra (h : Hdr) (off : BitVec 29) (slot : BitVec 3) : exec (.bra h off slot) s = execBra h off slot s := rfl
theorem exec_brx (h : Hdr) (a : RegCode) : exec (.brx h a) s = execBrx h a s := rfl
theorem exec_call (h : Hdr) (d : RegCode) (off : BitVec 29) (slot : BitVec 3) : exec (.call h d off slot) s = execCall h d off slot s := rfl
theorem exec_callx (h : Hdr) (d : RegCode) (a : RegCode) : exec (.callx h d a) s = execCallx h d a s := rfl
theorem exec_ret (h : Hdr) (a : RegCode) : exec (.ret h a) s = execRet h a s := rfl
theorem exec_exit (h : Hdr) : exec (.exit h) s = execExit h s := rfl
theorem exec_trap (h : Hdr) (code : BitVec 16) : exec (.trap h code) s = execTrap h code s := rfl
theorem exec_nop (h : Hdr) : exec (.nop h) s = execNop h s := rfl
theorem exec_yield (h : Hdr) : exec (.yield h) s = execYield h s := rfl
theorem exec_bpt (h : Hdr) (code : BitVec 16) : exec (.bpt h code) s = execBpt h code s := rfl
theorem exec_sleep (h : Hdr) (b : Src) : exec (.sleep h b) s = execSleep h b s := rfl
theorem exec_ld (h : Hdr) (sz : LdSize) (d : RegCode) (a : RegCode) (off : Word) : exec (.ld h sz d a off) s = execLd h sz d a off s := rfl
theorem exec_st (h : Hdr) (sz : StSize) (a : RegCode) (off : Word) (b : RegCode) : exec (.st h sz a off b) s = execSt h sz a off b s := rfl
theorem exec_ldl (h : Hdr) (sz : LdSize) (d : RegCode) (a : RegCode) (off : Word) : exec (.ldl h sz d a off) s = execLdl h sz d a off s := rfl
theorem exec_stl (h : Hdr) (sz : StSize) (a : RegCode) (off : Word) (b : RegCode) : exec (.stl h sz a off b) s = execStl h sz a off b s := rfl
theorem exec_pref (h : Hdr) (l2 : Bool) (a : RegCode) (off : Word) : exec (.pref h l2 a off) s = execPref h l2 a off s := rfl
theorem exec_ldc (h : Hdr) (sz : LdSize) (d : RegCode) (a : RegCode) (off : Word) : exec (.ldc h sz d a off) s = execLdc h sz d a off s := rfl
theorem exec_kjoin (h : Hdr) (k : BitVec 4) : exec (.kjoin h k) s = execKjoin h k s := rfl
theorem exec_kleave (h : Hdr) (k : BitVec 4) : exec (.kleave h k) s = execKleave h k s := rfl
theorem exec_kwait (h : Hdr) (k : BitVec 4) : exec (.kwait h k) s = execKwait h k s := rfl
theorem exec_ksetG (h : Hdr) (k : BitVec 4) (a : RegCode) : exec (.ksetG h k a) s = execKsetG h k a s := rfl
theorem exec_ksetCohort (h : Hdr) (k : BitVec 4) : exec (.ksetCohort h k) s = execKsetCohort h k s := rfl
theorem exec_ksetClr (h : Hdr) (k : BitVec 4) : exec (.ksetClr h k) s = execKsetClr h k s := rfl
theorem exec_ksetLive (h : Hdr) (k : BitVec 4) : exec (.ksetLive h k) s = execKsetLive h k s := rfl
theorem exec_kmov (h : Hdr) (d : RegCode) (k : BitVec 4) : exec (.kmov h d k) s = execKmov h d k s := rfl
theorem exec_kmovK (h : Hdr) (k : BitVec 4) (j : BitVec 4) : exec (.kmovK h k j) s = execKmovK h k j s := rfl
theorem exec_elect (h : Hdr) (d : RegCode) : exec (.elect h d) s = execElect h d s := rfl
theorem exec_vote (h : Hdr) (m : VoteMode) (neg : Bool) (d : RegCode) (a : RegCode) : exec (.vote h m neg d a) s = execVote h m neg d a s := rfl
theorem exec_shfl (h : Hdr) (m : ShflMode) (d : RegCode) (a : RegCode) (b : ShflB) (c : RegCode) : exec (.shfl h m d a b c) s = execShfl h m d a b c s := rfl
theorem exec_redux (h : Hdr) (op : ReduxOp) (d : RegCode) (a : RegCode) : exec (.redux h op d a) s = execRedux h op d a s := rfl
theorem exec_matchLanes (h : Hdr) (wide : Bool) (m : MatchMode) (d : RegCode) (a : RegCode) : exec (.matchLanes h wide m d a) s = execMatchLanes h wide m d a s := rfl
theorem exec_rdlane (h : Hdr) (wide : Bool) (d : RegCode) (a : RegCode) (b : Src) : exec (.rdlane h wide d a b) s = execRdlane h wide d a b s := rfl
theorem exec_mlds (h : Hdr) (sp : Bool) (a : RegCode) (b : RegCode) (c : RegCode) (slot : BitVec 3) : exec (.mlds h sp a b c slot) s = execMlds h sp a b c slot s := rfl
theorem exec_mswap (h : Hdr) : exec (.mswap h) s = execMswap h s := rfl
theorem exec_mstr (h : Hdr) (set : Bool) (gang : Bool) (a : RegCode) (b : RegCode) (c : RegCode) (slot : BitVec 3) (bank : BitVec 2) (q0 : BitVec 8) : exec (.mstr h set gang a b c slot bank q0) s = execMstr h set gang a b c slot bank q0 s := rfl
theorem exec_mstrr (h : Hdr) (set : Bool) (gang : Bool) (a : RegCode) (c : RegCode) (slot : BitVec 3) (rows : Rows) : exec (.mstrr h set gang a c slot rows) s = execMstrr h set gang a c slot rows s := rfl
theorem exec_mzero (h : Hdr) (rows : Rows) : exec (.mzero h rows) s = execMzero h rows s := rfl
theorem exec_mbias (h : Hdr) (int : Bool) (a : RegCode) (rows : Rows) : exec (.mbias h int a rows) s = execMbias h int a rows s := rfl
theorem exec_mdrn (h : Hdr) (x : Drain) (z : Bool) (a : RegCode) (b : RegCode) (rows : Rows) : exec (.mdrn h x z a b rows) s = execMdrn h x z a b rows s := rfl
theorem exec_mdrnr (h : Hdr) (x : Drain) (z : Bool) (d : RegCode) (b : RegCode) (rows : Rows) : exec (.mdrnr h x z d b rows) s = execMdrnr h x z d b rows s := rfl
theorem exec_mgangLead (h : Hdr) (a : RegCode) : exec (.mgangLead h a) s = execMgangLead h a s := rfl
theorem exec_mgangJoin (h : Hdr) (a : RegCode) (bank : BitVec 2) : exec (.mgangJoin h a bank) s = execMgangJoin h a bank s := rfl
theorem exec_mgangLeave (h : Hdr) : exec (.mgangLeave h) s = execMgangLeave h s := rfl
theorem exec_lds (h : Hdr) (sz : LdSize) (d : RegCode) (a : RegCode) (off : Word) : exec (.lds h sz d a off) s = execLds h sz d a off s := rfl
theorem exec_sts (h : Hdr) (sz : StSize) (a : RegCode) (off : Word) (b : RegCode) : exec (.sts h sz a off b) s = execSts h sz a off b s := rfl
theorem exec_ldcl (h : Hdr) (sz : LdSize) (d : RegCode) (a : RegCode) (off : Word) : exec (.ldcl h sz d a off) s = execLdcl h sz d a off s := rfl
theorem exec_stcl (h : Hdr) (sz : StSize) (a : RegCode) (off : Word) (b : RegCode) : exec (.stcl h sz a off b) s = execStcl h sz a off b s := rfl
theorem exec_ldx (h : Hdr) (sz : LdSize) (d : RegCode) (a : RegCode) (off : Word) : exec (.ldx h sz d a off) s = execLdx h sz d a off s := rfl
theorem exec_stx (h : Hdr) (sz : StSize) (a : RegCode) (off : Word) (b : RegCode) : exec (.stx h sz a off b) s = execStx h sz a off b s := rfl
theorem exec_atom (h : Hdr) (op : AtomOp) (sz : AtSize) (ord : Ord4) (scope : Scope) (d : RegCode) (a : RegCode) (b : RegCode) : exec (.atom h op sz ord scope d a b) s = execAtom h op sz ord scope d a b s := rfl
theorem exec_atoms (h : Hdr) (op : AtomOp) (sz : AtSize) (cl : Bool) (d : RegCode) (a : RegCode) (b : RegCode) : exec (.atoms h op sz cl d a b) s = execAtoms h op sz cl d a b s := rfl
theorem exec_red (h : Hdr) (op : AtomOp) (sz : AtSize) (rel : Bool) (scope : Scope) (a : RegCode) (b : RegCode) : exec (.red h op sz rel scope a b) s = execRed h op sz rel scope a b s := rfl
theorem exec_fence (h : Hdr) (ord : Ord4) (scope : Scope) : exec (.fence h ord scope) s = execFence h ord scope s := rfl
theorem exec_relst (h : Hdr) (sz : WSize) (scope : Scope) (a : RegCode) (b : RegCode) : exec (.relst h sz scope a b) s = execRelst h sz scope a b s := rfl
theorem exec_relop (h : Hdr) (op : AtomOp) (sz : AtSize) (scope : Scope) (d : RegCode) (a : RegCode) (b : RegCode) : exec (.relop h op sz scope d a b) s = execRelop h op sz scope d a b s := rfl
theorem exec_acqld (h : Hdr) (sz : WSize) (scope : Scope) (d : RegCode) (a : RegCode) : exec (.acqld h sz scope d a) s = execAcqld h sz scope d a s := rfl
theorem exec_acqwt (h : Hdr) (m : Cmp) (sz : WSize) (scope : Scope) (d : RegCode) (a : RegCode) (b : RegCode) (c : RegCode) : exec (.acqwt h m sz scope d a b c) s = execAcqwt h m sz scope d a b c s := rfl
theorem exec_remacq (h : Hdr) (a : RegCode) : exec (.remacq h a) s = execRemacq h a s := rfl
theorem exec_barinit (h : Hdr) (a : RegCode) (b : RegCode) : exec (.barinit h a b) s = execBarinit h a b s := rfl
theorem exec_bararv (h : Hdr) (grp : Bool) (scope : Scope) (d : RegCode) (c : RegCode) (a : RegCode) : exec (.bararv h grp scope d c a) s = execBararv h grp scope d c a s := rfl
theorem exec_barwt (h : Hdr) (scope : Scope) (d : RegCode) (c : RegCode) (a : RegCode) (b : RegCode) : exec (.barwt h scope d c a b) s = execBarwt h scope d c a b s := rfl
theorem exec_bartst (h : Hdr) (scope : Scope) (d : RegCode) (c : RegCode) (a : RegCode) (b : RegCode) : exec (.bartst h scope d c a b) s = execBartst h scope d c a b s := rfl
theorem exec_barexp (h : Hdr) (a : RegCode) (b : RegCode) : exec (.barexp h a b) s = execBarexp h a b s := rfl
theorem exec_bardrop (h : Hdr) (grp : Bool) (a : RegCode) : exec (.bardrop h grp a) s = execBardrop h grp a s := rfl
theorem exec_ldnc (h : Hdr) (sz : LdSize) (d : RegCode) (a : RegCode) (off : Word) : exec (.ldnc h sz d a off) s = execLdnc h sz d a off s := rfl
theorem exec_cctlIvl (h : Hdr) (a : RegCode) (off : Word) : exec (.cctlIvl h a off) s = execCctlIvl h a off s := rfl
theorem exec_cctlIvall (h : Hdr) : exec (.cctlIvall h) s = execCctlIvall h s := rfl
theorem exec_cctlIvi (h : Hdr) (a : RegCode) (off : Word) : exec (.cctlIvi h a off) s = execCctlIvi h a off s := rfl
theorem exec_cctlIviall (h : Hdr) : exec (.cctlIviall h) s = execCctlIviall h s := rfl
theorem exec_cctlDrain (h : Hdr) : exec (.cctlDrain h) s = execCctlDrain h s := rfl
theorem exec_sigrdTest (h : Hdr) (d : RegCode) (a : RegCode) : exec (.sigrdTest h d a) s = execSigrdTest h d a s := rfl
theorem exec_sigrdHash (h : Hdr) (d : RegCode) (a : RegCode) : exec (.sigrdHash h d a) s = execSigrdHash h d a s := rfl
theorem exec_sigrdWord (h : Hdr) (d : RegCode) (slot : BitVec 2) (word : BitVec 5) : exec (.sigrdWord h d slot word) s = execSigrdWord h d slot word s := rfl
theorem exec_xcopy (h : Hdr) (cmd : Cmd) (d : RegCode) (a : RegCode) (b : RegCode) (c : RegCode) : exec (.xcopy h cmd d a b c) s = execXcopy h cmd d a b c s := rfl
theorem exec_xgath (h : Hdr) (cmd : Cmd) (d : RegCode) (a : RegCode) (b : RegCode) (c : RegCode) : exec (.xgath h cmd d a b c) s = execXgath h cmd d a b c s := rfl
theorem exec_xscat (h : Hdr) (cmd : Cmd) (d : RegCode) (a : RegCode) (b : RegCode) (c : RegCode) : exec (.xscat h cmd d a b c) s = execXscat h cmd d a b c s := rfl
theorem exec_xpack (h : Hdr) (cv : CvD) (sat : Bool) (auto : Bool) (cmd : Cmd) (slot : BitVec 3) (d : RegCode) (a : RegCode) (b : RegCode) (c : RegCode) : exec (.xpack h cv sat auto cmd slot d a b c) s = execXpack h cv sat auto cmd slot d a b c s := rfl
theorem exec_xunpk (h : Hdr) (cv : Cv) (sat : Bool) (cmd : Cmd) (slot : BitVec 3) (d : RegCode) (a : RegCode) (b : RegCode) (c : RegCode) : exec (.xunpk h cv sat cmd slot d a b c) s = execXunpk h cv sat cmd slot d a b c s := rfl
theorem exec_xfill (h : Hdr) (cmd : Cmd) (d : RegCode) (a : RegCode) (b : RegCode) (c : RegCode) : exec (.xfill h cmd d a b c) s = execXfill h cmd d a b c s := rfl
theorem exec_wtany (h : Hdr) (d : RegCode) (a : RegCode) : exec (.wtany h d a) s = execWtany h d a s := rfl
theorem exec_wtall (h : Hdr) (d : RegCode) (a : RegCode) : exec (.wtall h d a) s = execWtall h d a s := rfl
theorem exec_ffrdy (h : Hdr) (d : RegCode) (a : RegCode) : exec (.ffrdy h d a) s = execFfrdy h d a s := rfl
theorem exec_tagclr (h : Hdr) (a : RegCode) : exec (.tagclr h a) s = execTagclr h a s := rfl
theorem exec_cntwt (h : Hdr) (scope : Scope) (d : RegCode) (c : RegCode) (a : RegCode) (b : RegCode) : exec (.cntwt h scope d c a b) s = execCntwt h scope d c a b s := rfl
theorem exec_rnginit (h : Hdr) (d : RegCode) (a : RegCode) (b : RegCode) (c : RegCode) : exec (.rnginit h d a b c) s = execRnginit h d a b c s := rfl
theorem exec_rngnxt (h : Hdr) (d : RegCode) (a : RegCode) : exec (.rngnxt h d a) s = execRngnxt h d a s := rfl
theorem exec_launch (h : Hdr) (wait : Bool) (d : RegCode) (a : RegCode) : exec (.launch h wait d a) s = execLaunch h wait d a s := rfl
theorem exec_cjoin (h : Hdr) : exec (.cjoin h) s = execCjoin h s := rfl
theorem exec_rte (h : Hdr) : exec (.rte h) s = execRte h s := rfl
theorem exec_movx (h : Hdr) (d : RegCode) (code : BitVec 12) : exec (.movx h d code) s = execMovx h d code s := rfl
theorem exec_movxW (h : Hdr) (a : RegCode) (code : BitVec 12) : exec (.movxW h a code) s = execMovxW h a code s := rfl
theorem exec_movxw (h : Hdr) (d : RegCode) (code : BitVec 12) : exec (.movxw h d code) s = execMovxw h d code s := rfl
theorem exec_movxwW (h : Hdr) (a : RegCode) (code : BitVec 12) : exec (.movxwW h a code) s = execMovxwW h a code s := rfl
theorem exec_tlbiv (h : Hdr) (a : RegCode) (off : Word) : exec (.tlbiv h a off) s = execTlbiv h a off s := rfl
theorem exec_tlbia (h : Hdr) : exec (.tlbia h) s = execTlbia h s := rfl
theorem exec_halttOthers (h : Hdr) : exec (.halttOthers h) s = execHalttOthers h s := rfl
theorem exec_halttRelease (h : Hdr) : exec (.halttRelease h) s = execHalttRelease h s := rfl
theorem exec_xdrainWait (h : Hdr) : exec (.xdrainWait h) s = execXdrainWait h s := rfl
theorem exec_xdrainCancel (h : Hdr) : exec (.xdrainCancel h) s = execXdrainCancel h s := rfl
theorem exec_fltqAck (h : Hdr) (a : RegCode) : exec (.fltqAck h a) s = execFltqAck h a s := rfl
theorem exec_fltqResume (h : Hdr) : exec (.fltqResume h) s = execFltqResume h s := rfl
theorem exec_fltqFail (h : Hdr) : exec (.fltqFail h) s = execFltqFail h s := rfl
theorem exec_dumpr (h : Hdr) (d : RegCode) (a : RegCode) : exec (.dumpr h d a) s = execDumpr h d a s := rfl
theorem exec_xresh (h : Hdr) (cmd : ReshCmd) (d : RegCode) (a : RegCode) (b : RegCode) : exec (.xresh h cmd d a b) s = execXresh h cmd d a b s := rfl
theorem exec_xredPush (h : Hdr) (scope : Scope) (tag : Option (BitVec 6)) (a : RegCode) (b : RegCode) (c : RegCode) : exec (.xredPush h scope tag a b c) s = execXredPush h scope tag a b c s := rfl
theorem exec_xredCancel (h : Hdr) (a : RegCode) : exec (.xredCancel h a) s = execXredCancel h a s := rfl
theorem exec_xmcast (h : Hdr) (scope : Scope) (tag : Option (BitVec 6)) (a : RegCode) (b : RegCode) (c : RegCode) : exec (.xmcast h scope tag a b c) s = execXmcast h scope tag a b c s := rfl
theorem exec_cwait (h : Hdr) (scope : Scope) (d : RegCode) (c : RegCode) (a : RegCode) (b : RegCode) : exec (.cwait h scope d c a b) s = execCwait h scope d c a b s := rfl
theorem exec_pfence (h : Hdr) (vdn : Option RegCode) : exec (.pfence h vdn) s = execPfence h vdn s := rfl
theorem exec_fetchLineArrival (core : Nat) (i : Nat) : exec (.fetchLineArrival core i) s = execFetchLineArrival core i s := rfl
theorem exec_pipeGroupChoice (core : Nat) (pipe : Nat) : exec (.pipeGroupChoice core pipe) s = execPipeGroupChoice core pipe s := rfl
theorem exec_kdeadDetect (gk : Nat) : exec (.kdeadDetect gk) s = execKdeadDetect gk s := rfl
theorem exec_sleepExpiry (gk : Nat) (lane : Nat) : exec (.sleepExpiry gk lane) s = execSleepExpiry gk lane s := rfl
theorem exec_epochAdvance : exec .epochAdvance s = execEpochAdvance s := rfl
theorem exec_l1LineExpiry (core : Nat) (i : Nat) : exec (.l1LineExpiry core i) s = execL1LineExpiry core i s := rfl
theorem exec_wtbDrain (core : Nat) (i : Nat) : exec (.wtbDrain core i) s = execWtbDrain core i s := rfl
theorem exec_homeAccess (core : Nat) (i : Nat) : exec (.homeAccess core i) s = execHomeAccess core i s := rfl
theorem exec_storeAck (core : Nat) (i : Nat) : exec (.storeAck core i) s = execStoreAck core i s := rfl
theorem exec_loadFill (core : Nat) (i : Nat) : exec (.loadFill core i) s = execLoadFill core i s := rfl
theorem exec_pageWalk (die : Nat) : exec (.pageWalk die) s = execPageWalk die s := rfl
theorem exec_runAheadStop (gk : Nat) : exec (.runAheadStop gk) s = execRunAheadStop gk s := rfl
theorem exec_cardAccept (die : Nat) : exec (.cardAccept die) s = execCardAccept die s := rfl
theorem exec_cardStart (die : Nat) (cls : Nat) : exec (.cardStart die cls) s = execCardStart die cls s := rfl
theorem exec_cardSegmentDone (die : Nat) (card : Nat) : exec (.cardSegmentDone die card) s = execCardSegmentDone die card s := rfl
theorem exec_cardComplete (die : Nat) (card : Nat) : exec (.cardComplete die card) s = execCardComplete die card s := rfl
theorem exec_mldsComplete (plane : Nat) : exec (.mldsComplete plane) s = execMldsComplete plane s := rfl
theorem exec_mswapWavefront (plane : Nat) : exec (.mswapWavefront plane) s = execMswapWavefront plane s := rfl
theorem exec_mstrRowWrite (plane : Nat) : exec (.mstrRowWrite plane) s = execMstrRowWrite plane s := rfl
theorem exec_dispatchDecision (part : Nat) (die : Nat) : exec (.dispatchDecision part die) s = execDispatchDecision part die s := rfl
theorem exec_headUnitHold (part : Nat) (level : Nat) : exec (.headUnitHold part level) s = execHeadUnitHold part level s := rfl
theorem exec_planeSwitch (core : Nat) : exec (.planeSwitch core) s = execPlaneSwitch core s := rfl
theorem exec_launchAccept (func : Nat) (queue : Nat) : exec (.launchAccept func queue) s = execLaunchAccept func queue s := rfl
theorem exec_teamEnd (team : Nat) : exec (.teamEnd team) s = execTeamEnd team s := rfl
theorem exec_gridComplete (grid : Nat) : exec (.gridComplete grid) s = execGridComplete grid s := rfl
theorem exec_spillReturn (grid : Nat) : exec (.spillReturn grid) s = execSpillReturn grid s := rfl
theorem exec_blockedUnitSwap (part : Nat) : exec (.blockedUnitSwap part) s = execBlockedUnitSwap part s := rfl
theorem exec_timeSliceEnd (part : Nat) : exec (.timeSliceEnd part) s = execTimeSliceEnd part s := rfl
theorem exec_contextSave (core : Nat) (plane : Nat) : exec (.contextSave core plane) s = execContextSave core plane s := rfl
theorem exec_contextDump (core : Nat) (plane : Nat) : exec (.contextDump core plane) s = execContextDump core plane s := rfl
theorem exec_contextResume (func : Nat) (image : Nat) (core : Nat) : exec (.contextResume func image core) s = execContextResume func image core s := rfl
theorem exec_notify : exec .notify s = execNotify s := rfl
theorem exec_notifyEnqueue : exec .notifyEnqueue s = execNotifyEnqueue s := rfl
theorem exec_gangAttempt : exec .gangAttempt s = execGangAttempt s := rfl
theorem exec_meterReport (func : Nat) : exec (.meterReport func) s = execMeterReport func s := rfl
theorem exec_powerSample (watts : Nat) : exec (.powerSample watts) s = execPowerSample watts s := rfl
theorem exec_trowelRound (m : Nat) : exec (.trowelRound m) s = execTrowelRound m s := rfl
theorem exec_forwardingEnd (m : Nat) : exec (.forwardingEnd m) s = execForwardingEnd m s := rfl
theorem exec_movedTimeout (core : Nat) (i : Nat) : exec (.movedTimeout core i) s = execMovedTimeout core i s := rfl
theorem exec_responseSlotTimeout (core : Nat) (i : Nat) : exec (.responseSlotTimeout core i) s = execResponseSlotTimeout core i s := rfl
theorem exec_earlyRetry : exec .earlyRetry s = execEarlyRetry s := rfl
theorem exec_collectiveGroupBroken (group : Nat) : exec (.collectiveGroupBroken group) s = execCollectiveGroupBroken group s := rfl
theorem exec_rekeyStart (dom : Nat) : exec (.rekeyStart dom) s = execRekeyStart dom s := rfl
theorem exec_keyInstall (dom : Nat) : exec (.keyInstall dom) s = execKeyInstall dom s := rfl
theorem exec_rekeyBarrierArrival (dom : Nat) (member : Nat) : exec (.rekeyBarrierArrival dom member) s = execRekeyBarrierArrival dom member s := rfl
theorem exec_rekeyDone (dom : Nat) : exec (.rekeyDone dom) s = execRekeyDone dom s := rfl
theorem exec_seqExhausted (dom : Nat) : exec (.seqExhausted dom) s = execSeqExhausted dom s := rfl
theorem exec_divisionComplete (gk : Nat) (i : Nat) : exec (.divisionComplete gk i) s = execDivisionComplete gk i s := rfl
theorem exec_drainComplete (plane : Nat) : exec (.drainComplete plane) s = execDrainComplete plane s := rfl
theorem exec_planeCleared (plane : Nat) : exec (.planeCleared plane) s = execPlaneCleared plane s := rfl
theorem exec_migResume (m : Nat) : exec (.migResume m) s = execMigResume m s := rfl
theorem exec_deviceReady : exec .deviceReady s = execDeviceReady s := rfl
theorem exec_remoteRequestReceive (pkt : Packet) : exec (.remoteRequestReceive pkt) s = execRemoteRequestReceive pkt s := rfl
theorem exec_s2inv (func : Nat) (fpa : Nat) (len : Nat) : exec (.s2inv func fpa len) s = execS2inv func fpa len s := rfl
theorem exec_migCopyReceive (m : Nat) (pkt : Packet) : exec (.migCopyReceive m pkt) s = execMigCopyReceive m pkt s := rfl
theorem exec_priResponse (func : Nat) (fpa : Nat) (ok : Bool) : exec (.priResponse func fpa ok) s = execPriResponse func fpa ok s := rfl
theorem exec_queueSubmit (func : Nat) (queue : Nat) (pasid : Bool) (rec : List Byte) : exec (.queueSubmit func queue pasid rec) s = execQueueSubmit func queue pasid rec s := rfl
theorem exec_resetQueue (func : Nat) (queue : Nat) : exec (.resetQueue func queue) s = execResetQueue func queue s := rfl
theorem exec_resetEngine (die : Nat) (cls : EngCls) (i : Nat) : exec (.resetEngine die cls i) s = execResetEngine die cls i s := rfl
theorem exec_resetPartition (part : Nat) : exec (.resetPartition part) s = execResetPartition part s := rfl
theorem exec_resetDie (die : Nat) : exec (.resetDie die) s = execResetDie die s := rfl
theorem exec_resetFlr : exec .resetFlr s = execResetFlr s := rfl
theorem exec_resetDevice : exec .resetDevice s = execResetDevice s := rfl
theorem exec_moduleResetPin : exec .moduleResetPin s = execModuleResetPin s := rfl
theorem exec_part (t : PartTarget) (p : Nat) : exec (.part t p) s = execPart t p s := rfl
theorem exec_lend (core : Nat) (src : Nat) (dst : Nat) : exec (.lend core src dst) s = execLend core src dst s := rfl
theorem exec_recallCore (core : Nat) (src : Nat) (dst : Nat) : exec (.recallCore core src dst) s = execRecall core src dst s := rfl
theorem exec_gang (l : List (Nat × Nat × Nat)) : exec (.gang l) s = execGang l s := rfl
theorem exec_qthaw (func : Nat) (queue : Nat) : exec (.qthaw func queue) s = execQthaw func queue s := rfl
theorem exec_ringset (base : Nat) (len : Nat) : exec (.ringset base len) s = execRingset base len s := rfl
theorem exec_metrd (func : Nat) (fpa : Nat) : exec (.metrd func fpa) s = execMetrd func fpa s := rfl
theorem exec_s2set (func : Nat) (root : Nat) : exec (.s2set func root) s = execS2set func root s := rfl
theorem exec_vfFlr (func : Nat) : exec (.vfFlr func) s = execVfFlr func s := rfl
theorem exec_vfEnableClear : exec .vfEnableClear s = execVfEnableClear s := rfl
theorem exec_metreqWrite (func : Nat) (v : Nat) : exec (.metreqWrite func v) s = execMetreqWrite func v s := rfl
theorem exec_fqSetupWrite (func : Nat) (isLen : Bool) (v : Nat) : exec (.fqSetupWrite func isLen v) s = execFqSetupWrite func isLen v s := rfl
theorem exec_lpSaveRegWrite (func : Nat) (r : LpReg) (v : Nat) : exec (.lpSaveRegWrite func r v) s = execLpSaveRegWrite func r v s := rfl
theorem exec_errWordClear (func : Nat) (i : Nat) (v : Nat) : exec (.errWordClear func i v) s = execErrWordClear func i v s := rfl
theorem exec_ringheadWrite (v : Nat) : exec (.ringheadWrite v) s = execRingheadWrite v s := rfl
theorem exec_overflowClear : exec .overflowClear s = execOverflowClear s := rfl
theorem exec_domfailClear (func : Nat) : exec (.domfailClear func) s = execDomfailClear func s := rfl
theorem exec_pwrlimWrite (v : Nat) : exec (.pwrlimWrite v) s = execPwrlimWrite v s := rfl
theorem exec_registerWrite (r : HostReg) (v : Nat) : exec (.registerWrite r v) s = execRegisterWrite r v s := rfl
theorem exec_keystoneRestart (failed : Bool) : exec (.keystoneRestart failed) s = execKeystoneRestart failed s := rfl
theorem exec_ageingReplan (retire : Option Nat) : exec (.ageingReplan retire) s = execAgeingReplan retire s := rfl
theorem exec_powerOn : exec .powerOn s = execPowerOn s := rfl
theorem exec_migStart (m : Nat) : exec (.migStart m) s = execMigStart m s := rfl
theorem exec_migAccept (m : Nat) : exec (.migAccept m) s = execMigAccept m s := rfl
theorem exec_migAbort (m : Nat) : exec (.migAbort m) s = execMigAbort m s := rfl
theorem exec_migForce (m : Nat) : exec (.migForce m) s = execMigForce m s := rfl
theorem exec_migClear (m : Nat) : exec (.migClear m) s = execMigClear m s := rfl
theorem exec_remoteResponseReceive (pkt : Packet) : exec (.remoteResponseReceive pkt) s = execRemoteResponseReceive pkt s := rfl
theorem exec_fmVdnBind (func : Nat) (vdn : Nat) : exec (.fmVdnBind func vdn) s = execFmVdnBind func vdn s := rfl
theorem exec_fmVdnTableWrite (vdn : Nat) (v : Nat) : exec (.fmVdnTableWrite vdn v) s = execFmVdnTableWrite vdn v s := rfl
theorem exec_fmRedirectWrite (i : Nat) (v : Nat) : exec (.fmRedirectWrite i v) s = execFmRedirectWrite i v s := rfl
theorem exec_fmMeshSet (func : Nat) (mesh : Nat) (members : List Nat) : exec (.fmMeshSet func mesh members) s = execFmMeshSet func mesh members s := rfl
theorem exec_slotreq (pkt : Packet) : exec (.slotreq pkt) s = execSlotreq pkt s := rfl
theorem exec_slotgrant (pkt : Packet) : exec (.slotgrant pkt) s = execSlotgrant pkt s := rfl
theorem exec_push (pkt : Packet) : exec (.push pkt) s = execPush pkt s := rfl
theorem exec_result (pkt : Packet) : exec (.result pkt) s = execResult pkt s := rfl
theorem exec_mcast (pkt : Packet) : exec (.mcast pkt) s = execMcast pkt s := rfl
theorem exec_a2a (pkt : Packet) : exec (.a2a pkt) s = execA2a pkt s := rfl
theorem exec_cancel (pkt : Packet) : exec (.cancel pkt) s = execCancel pkt s := rfl
theorem exec_ack (pkt : Packet) : exec (.ack pkt) s = execAck pkt s := rfl
theorem exec_domainJoin (func : Nat) (dom : Nat) (epoch : Nat) (ok : Bool) (pre : Bool) (leads : Bool) (members : List Nat) : exec (.domainJoin func dom epoch ok pre leads members) s = execDomainJoin func dom epoch ok pre leads members s := rfl
theorem exec_hostMemAccess (a : HostAcc) : exec (.hostMemAccess a) s = execHostMemAccess a s := rfl
theorem exec_birsp (ma : Nat) (bytes : List Byte) : exec (.birsp ma bytes) s = execBirsp ma bytes s := rfl
theorem exec_hostSnoop (ma : Nat) : exec (.hostSnoop ma) s = execHostSnoop ma s := rfl
theorem exec_atsInvalidation (func : Nat) (va : Nat) (len : Nat) : exec (.atsInvalidation func va len) s = execAtsInvalidation func va len s := rfl
theorem exec_softError (p : ErrPlace) (corrected : Bool) : exec (.softError p corrected) s = execSoftError p corrected s := rfl
theorem exec_vfEnableSet (n : Nat) : exec (.vfEnableSet n) s = execVfEnableSet n s := rfl
theorem exec_bindRecordWrite (part : Nat) (slot : Nat) (rec : List Byte) : exec (.bindRecordWrite part slot rec) s = execBindRecordWrite part slot rec s := rfl
theorem exec_chipScratchpadGrant (func : Nat) (granules : List Nat) : exec (.chipScratchpadGrant func granules) s = execChipScratchpadGrant func granules s := rfl
theorem exec_domainLeave (func : Nat) : exec (.domainLeave func) s = execDomainLeave func s := rfl
theorem exec_airanPortChange (port : Nat) (up : Bool) : exec (.airanPortChange port up) s = execAiranPortChange port up s := rfl
theorem exec_configImageWrite (ver : Nat) (ok : Bool) : exec (.configImageWrite ver ok) s = execConfigImageWrite ver ok s := rfl

end Sys2Proof.Machine
end

