-- ==== Sys2Proof/Laws/Fields.lean ====
section
/-!
SUPPORT. Reading a field back from a word or from an IMM that was put together from its fields.
-/
namespace Sys2Proof.Laws

theorem extract_lo {n m k : Nat} (a : BitVec n) (b : BitVec m) (h : k = m) : (a ++ b).extractLsb' 0 k = b.cast h.symm := by
  subst h
  ext i hi
  simp [BitVec.getLsbD_append, hi]

theorem extract_skip {n m : Nat} (a : BitVec n) (b : BitVec m) (i k : Nat) :
    (a ++ b).extractLsb' (m + i) k = a.extractLsb' i k := by
  ext j hj
  have h1 : ¬ (m + i + j < m) := by omega
  have h2 : m + i + j - m = i + j := by omega
  simp only [BitVec.getElem_extractLsb', BitVec.getLsbD_append, h1, h2, if_false]

theorem getLsbD_lo {n : Nat} (a : BitVec n) (b : Bool) : (a ++ BitVec.ofBool b).getLsbD 0 = b := by
  cases b <;> simp [BitVec.getElem_append]

theorem getLsbD_skip {n m : Nat} (a : BitVec n) (b : BitVec m) (i : Nat) : (a ++ b).getLsbD (m + i) = a.getLsbD i := by
  have h1 : ¬ (m + i < m) := by omega
  have h2 : m + i - m = i := by omega
  simp only [BitVec.getLsbD_append, h1, h2, if_false]

theorem toNat_app {n m : Nat} (a : BitVec n) (b : BitVec m) : (a ++ b).toNat = a.toNat * 2 ^ m + b.toNat := by
  rw [BitVec.toNat_append, Nat.shiftLeft_eq, ← Nat.shiftLeft_eq, Nat.shiftLeft_add_eq_or_of_lt b.isLt]

theorem toNat_app_lt {n m j : Nat} (a : BitVec n) (b : BitVec m) (h : a.toNat < 2 ^ j) : (a ++ b).toNat < 2 ^ (j + m) := by
  rw [toNat_app, Nat.pow_add]
  have hb := b.isLt
  calc a.toNat * 2 ^ m + b.toNat < a.toNat * 2 ^ m + 2 ^ m := by omega
    _ = (a.toNat + 1) * 2 ^ m := by rw [Nat.add_mul, Nat.one_mul]
    _ ≤ 2 ^ j * 2 ^ m := Nat.mul_le_mul_right _ h

theorem zero_app_lt {n m : Nat} (b : BitVec m) : (0#n ++ b).toNat < 2 ^ m := by
  have h := toNat_app_lt (j := 0) (0#n) b (by simp)
  simpa using h

theorem setWidth_lt {n : Nat} (k : BitVec n) : (k.setWidth 32).toNat < 2 ^ n := by
  have h := k.isLt
  simp only [BitVec.toNat_setWidth]
  exact Nat.lt_of_le_of_lt (Nat.mod_le _ _) h

@[simp] theorem setWidth_lt3 (k : BitVec 3) : (k.setWidth 32).toNat < 8 := setWidth_lt k

@[simp] theorem setWidth_lt4 (k : BitVec 4) : (k.setWidth 32).toNat < 16 := setWidth_lt k

@[simp] theorem setWidth_lt5 (k : BitVec 5) : (k.setWidth 32).toNat < 32 := setWidth_lt k

@[simp] theorem setWidth_lt7 (k : BitVec 7) : (k.setWidth 32).toNat < 128 := setWidth_lt k

@[simp] theorem setWidth_lt8 (k : BitVec 8) : (k.setWidth 32).toNat < 256 := setWidth_lt k

@[simp] theorem setWidth_lt12 (k : BitVec 12) : (k.setWidth 32).toNat < 4096 := setWidth_lt k

@[simp] theorem setWidth_lt16 (k : BitVec 16) : (k.setWidth 32).toNat < 65536 := setWidth_lt k

@[simp] theorem setWidth_lt20 (k : BitVec 20) : (k.setWidth 32).toNat < 1048576 := setWidth_lt k

@[simp] theorem extract_setWidth {n : Nat} (k : BitVec n) (h : n ≤ 32) : (k.setWidth 32).extractLsb' 0 n = k := by
  ext i hi
  have h2 : i < 32 := by omega
  simp [h2, hi]

theorem extract_all {n : Nat} (a : BitVec n) : a.extractLsb' 0 n = a := by
  ext i hi
  simp

/-- The fields of a word are those it was packed from (02 Table 2-1). -/
theorem unpack_pack (r : Raw) : Raw.unpack r.pack = r := by
  obtain ⟨imm, c, b, a, d, form, pg, negp, rsbm, wsb, yld, stall, fn, maj⟩ := r
  simp only [Raw.unpack, Raw.pack, Raw.mk.injEq]
  refine ⟨?_, ?_, ?_, ?_, ?_, ?_, ?_, ?_, ?_, ?_, ?_, ?_, ?_, ?_⟩
  · exact ((extract_skip _ _ 56 32).trans ((extract_skip _ _ 52 32).trans ((extract_skip _ _ 48 32).trans ((extract_skip _ _ 47 32).trans ((extract_skip _ _ 44 32).trans ((extract_skip _ _ 38 32).trans ((extract_skip _ _ 37 32).trans ((extract_skip _ _ 34 32).trans ((extract_skip _ _ 32 32).trans ((extract_skip _ _ 24 32).trans ((extract_skip _ _ 16 32).trans ((extract_skip _ _ 8 32).trans ((extract_skip _ _ 0 32).trans (extract_all _))))))))))))))
  · exact ((extract_skip _ _ 48 8).trans ((extract_skip _ _ 44 8).trans ((extract_skip _ _ 40 8).trans ((extract_skip _ _ 39 8).trans ((extract_skip _ _ 36 8).trans ((extract_skip _ _ 30 8).trans ((extract_skip _ _ 29 8).trans ((extract_skip _ _ 26 8).trans ((extract_skip _ _ 24 8).trans ((extract_skip _ _ 16 8).trans ((extract_skip _ _ 8 8).trans ((extract_skip _ _ 0 8).trans (extract_lo _ _ rfl)))))))))))))
  · exact ((extract_skip _ _ 40 8).trans ((extract_skip _ _ 36 8).trans ((extract_skip _ _ 32 8).trans ((extract_skip _ _ 31 8).trans ((extract_skip _ _ 28 8).trans ((extract_skip _ _ 22 8).trans ((extract_skip _ _ 21 8).trans ((extract_skip _ _ 18 8).trans ((extract_skip _ _ 16 8).trans ((extract_skip _ _ 8 8).trans ((extract_skip _ _ 0 8).trans (extract_lo _ _ rfl))))))))))))
  · exact ((extract_skip _ _ 32 8).trans ((extract_skip _ _ 28 8).trans ((extract_skip _ _ 24 8).trans ((extract_skip _ _ 23 8).trans ((extract_skip _ _ 20 8).trans ((extract_skip _ _ 14 8).trans ((extract_skip _ _ 13 8).trans ((extract_skip _ _ 10 8).trans ((extract_skip _ _ 8 8).trans ((extract_skip _ _ 0 8).trans (extract_lo _ _ rfl)))))))))))
  · exact ((extract_skip _ _ 24 8).trans ((extract_skip _ _ 20 8).trans ((extract_skip _ _ 16 8).trans ((extract_skip _ _ 15 8).trans ((extract_skip _ _ 12 8).trans ((extract_skip _ _ 6 8).trans ((extract_skip _ _ 5 8).trans ((extract_skip _ _ 2 8).trans ((extract_skip _ _ 0 8).trans (extract_lo _ _ rfl))))))))))
  · exact ((extract_skip _ _ 22 2).trans ((extract_skip _ _ 18 2).trans ((extract_skip _ _ 14 2).trans ((extract_skip _ _ 13 2).trans ((extract_skip _ _ 10 2).trans ((extract_skip _ _ 4 2).trans ((extract_skip _ _ 3 2).trans ((extract_skip _ _ 0 2).trans (extract_lo _ _ rfl)))))))))
  · exact ((extract_skip _ _ 19 3).trans ((extract_skip _ _ 15 3).trans ((extract_skip _ _ 11 3).trans ((extract_skip _ _ 10 3).trans ((extract_skip _ _ 7 3).trans ((extract_skip _ _ 1 3).trans ((extract_skip _ _ 0 3).trans (extract_lo _ _ rfl))))))))
  · exact ((getLsbD_skip _ _ 18).trans ((getLsbD_skip _ _ 14).trans ((getLsbD_skip _ _ 10).trans ((getLsbD_skip _ _ 9).trans ((getLsbD_skip _ _ 6).trans ((getLsbD_skip _ _ 0).trans (getLsbD_lo _ _)))))))
  · exact ((extract_skip _ _ 12 6).trans ((extract_skip _ _ 8 6).trans ((extract_skip _ _ 4 6).trans ((extract_skip _ _ 3 6).trans ((extract_skip _ _ 0 6).trans (extract_lo _ _ rfl))))))
  · exact ((extract_skip _ _ 9 3).trans ((extract_skip _ _ 5 3).trans ((extract_skip _ _ 1 3).trans ((extract_skip _ _ 0 3).trans (extract_lo _ _ rfl)))))
  · exact ((getLsbD_skip _ _ 8).trans ((getLsbD_skip _ _ 4).trans ((getLsbD_skip _ _ 0).trans (getLsbD_lo _ _))))
  · exact ((extract_skip _ _ 4 4).trans ((extract_skip _ _ 0 4).trans (extract_lo _ _ rfl)))
  · exact ((extract_skip _ _ 0 4).trans (extract_lo _ _ rfl))
  · exact (extract_lo _ _ rfl)

@[simp] theorem syncImm_scope (cl : Bool) (size ord : BitVec 2) (sc : BitVec 4) : (syncImm cl size ord sc).extractLsb' 0 4 = sc :=
  (extract_lo _ _ rfl)

@[simp] theorem syncImm_ord (cl : Bool) (size ord : BitVec 2) (sc : BitVec 4) : (syncImm cl size ord sc).extractLsb' 4 2 = ord :=
  ((extract_skip _ _ 0 2).trans (extract_lo _ _ rfl))

@[simp] theorem syncImm_size (cl : Bool) (size ord : BitVec 2) (sc : BitVec 4) : (syncImm cl size ord sc).extractLsb' 6 2 = size :=
  ((extract_skip _ _ 2 2).trans ((extract_skip _ _ 0 2).trans (extract_lo _ _ rfl)))

@[simp] theorem syncImm_cl (cl : Bool) (size ord : BitVec 2) (sc : BitVec 4) : (syncImm cl size ord sc)[8] = cl := by
  rw [← BitVec.getLsbD_eq_getElem]
  exact ((getLsbD_skip _ _ 4).trans ((getLsbD_skip _ _ 2).trans ((getLsbD_skip _ _ 0).trans (getLsbD_lo _ _))))

@[simp] theorem matImm_slot (w : Rows) (raw intw : Bool) (slot : BitVec 3) : (matImm w raw intw slot).extractLsb' 0 3 = slot :=
  (extract_lo _ _ rfl)

@[simp] theorem matImm_b3 (w : Rows) (raw intw : Bool) (slot : BitVec 3) : (matImm w raw intw slot).extractLsb' 3 1 = 0#1 :=
  ((extract_skip _ _ 0 1).trans (extract_lo _ _ rfl))

@[simp] theorem matImm_bank (w : Rows) (raw intw : Bool) (slot : BitVec 3) : (matImm w raw intw slot).extractLsb' 4 2 = w.bank :=
  ((extract_skip _ _ 1 2).trans ((extract_skip _ _ 0 2).trans (extract_lo _ _ rfl)))

@[simp] theorem matImm_intw (w : Rows) (raw intw : Bool) (slot : BitVec 3) : (matImm w raw intw slot)[6] = intw := by
  rw [← BitVec.getLsbD_eq_getElem]
  exact ((getLsbD_skip _ _ 3).trans ((getLsbD_skip _ _ 2).trans ((getLsbD_skip _ _ 0).trans (getLsbD_lo _ _))))

@[simp] theorem matImm_raw (w : Rows) (raw intw : Bool) (slot : BitVec 3) : (matImm w raw intw slot)[7] = raw := by
  rw [← BitVec.getLsbD_eq_getElem]
  exact ((getLsbD_skip _ _ 4).trans ((getLsbD_skip _ _ 3).trans ((getLsbD_skip _ _ 1).trans ((getLsbD_skip _ _ 0).trans (getLsbD_lo _ _)))))

@[simp] theorem matImm_q0 (w : Rows) (raw intw : Bool) (slot : BitVec 3) : (matImm w raw intw slot).extractLsb' 8 8 = w.q0 :=
  ((extract_skip _ _ 5 8).trans ((extract_skip _ _ 4 8).trans ((extract_skip _ _ 2 8).trans ((extract_skip _ _ 1 8).trans ((extract_skip _ _ 0 8).trans (extract_lo _ _ rfl))))))

@[simp] theorem matImm_cnt (w : Rows) (raw intw : Bool) (slot : BitVec 3) : (matImm w raw intw slot).extractLsb' 16 8 = w.cnt :=
  ((extract_skip _ _ 13 8).trans ((extract_skip _ _ 12 8).trans ((extract_skip _ _ 10 8).trans ((extract_skip _ _ 9 8).trans ((extract_skip _ _ 8 8).trans ((extract_skip _ _ 0 8).trans (extract_lo _ _ rfl)))))))

@[simp] theorem cmdIm_tag (k : Cmd) (slot : BitVec 3) : (k.im slot).extractLsb' 0 7 = tagImm k.tag :=
  (extract_lo _ _ rfl)

@[simp] theorem cmdIm_bar (k : Cmd) (slot : BitVec 3) : (k.im slot)[7] = k.bar := by
  rw [← BitVec.getLsbD_eq_getElem]
  exact ((getLsbD_skip _ _ 0).trans (getLsbD_lo _ _))

@[simp] theorem cmdIm_scope (k : Cmd) (slot : BitVec 3) : (k.im slot).extractLsb' 8 4 = k.scope.code :=
  ((extract_skip _ _ 1 4).trans ((extract_skip _ _ 0 4).trans (extract_lo _ _ rfl)))

@[simp] theorem cmdIm_slot (k : Cmd) (slot : BitVec 3) : (k.im slot).extractLsb' 12 3 = slot :=
  ((extract_skip _ _ 5 3).trans ((extract_skip _ _ 4 3).trans ((extract_skip _ _ 0 3).trans (extract_lo _ _ rfl))))

@[simp] theorem reshIm_tag (k : ReshCmd) : (k.im).extractLsb' 0 7 = tagImm k.tag :=
  (extract_lo _ _ rfl)

@[simp] theorem reshIm_b7 (k : ReshCmd) : (k.im).extractLsb' 7 1 = 0#1 :=
  ((extract_skip _ _ 0 1).trans (extract_lo _ _ rfl))

@[simp] theorem reshIm_scope (k : ReshCmd) : (k.im).extractLsb' 8 4 = k.scope.code :=
  ((extract_skip _ _ 1 4).trans ((extract_skip _ _ 0 4).trans (extract_lo _ _ rfl)))

@[simp] theorem reshIm_pers (k : ReshCmd) : (k.im)[12] = k.pers := by
  rw [← BitVec.getLsbD_eq_getElem]
  exact ((getLsbD_skip _ _ 5).trans ((getLsbD_skip _ _ 4).trans ((getLsbD_skip _ _ 0).trans (getLsbD_lo _ _))))

@[simp] theorem braIm_slot (o : BitVec 29) (s : BitVec 3) : ((o ++ s : Word)).extractLsb' 0 3 = s :=
  (extract_lo _ _ rfl)

@[simp] theorem braIm_off (o : BitVec 29) (s : BitVec 3) : ((o ++ s : Word)).extractLsb' 3 29 = o :=
  ((extract_skip _ _ 0 29).trans (extract_all _))

@[simp] theorem kmovIm_k (j k : BitVec 4) : ((0#20 ++ j ++ 0#4 ++ k : Word)).extractLsb' 0 4 = k :=
  (extract_lo _ _ rfl)

@[simp] theorem kmovIm_mid (j k : BitVec 4) : ((0#20 ++ j ++ 0#4 ++ k : Word)).extractLsb' 4 4 = 0#4 :=
  ((extract_skip _ _ 0 4).trans (extract_lo _ _ rfl))

@[simp] theorem kmovIm_j (j k : BitVec 4) : ((0#20 ++ j ++ 0#4 ++ k : Word)).extractLsb' 8 4 = j :=
  ((extract_skip _ _ 4 4).trans ((extract_skip _ _ 0 4).trans (extract_lo _ _ rfl)))

@[simp] theorem sigIm_w (s : BitVec 2) (w : BitVec 5) : ((0#25 ++ s ++ w : Word)).extractLsb' 0 5 = w :=
  (extract_lo _ _ rfl)

@[simp] theorem sigIm_s (s : BitVec 2) (w : BitVec 5) : ((0#25 ++ s ++ w : Word)).extractLsb' 5 2 = s :=
  ((extract_skip _ _ 0 2).trans (extract_lo _ _ rfl))

@[simp] theorem fmtIm_y (x y : BitVec 4) : ((0#24 ++ x ++ y : Word)).extractLsb' 0 4 = y :=
  (extract_lo _ _ rfl)

@[simp] theorem fmtIm_x (x y : BitVec 4) : ((0#24 ++ x ++ y : Word)).extractLsb' 4 4 = x :=
  ((extract_skip _ _ 0 4).trans (extract_lo _ _ rfl))

@[simp] theorem shflIm_b (lw : BitVec 3) (b : BitVec 6) : ((0#21 ++ lw ++ 0#2 ++ b : Word)).extractLsb' 0 6 = b :=
  (extract_lo _ _ rfl)

@[simp] theorem shflIm_mid (lw : BitVec 3) (b : BitVec 6) : ((0#21 ++ lw ++ 0#2 ++ b : Word)).extractLsb' 6 2 = 0#2 :=
  ((extract_skip _ _ 0 2).trans (extract_lo _ _ rfl))

@[simp] theorem shflIm_lw (lw : BitVec 3) (b : BitVec 6) : ((0#21 ++ lw ++ 0#2 ++ b : Word)).extractLsb' 8 3 = lw :=
  ((extract_skip _ _ 2 3).trans ((extract_skip _ _ 0 3).trans (extract_lo _ _ rfl)))

@[simp] theorem mstrIm_slot (q : BitVec 8) (bk : BitVec 2) (k : BitVec 3) : ((0#16 ++ q ++ 0#2 ++ bk ++ 0#1 ++ k : Word)).extractLsb' 0 3 = k :=
  (extract_lo _ _ rfl)

@[simp] theorem mstrIm_b3 (q : BitVec 8) (bk : BitVec 2) (k : BitVec 3) : ((0#16 ++ q ++ 0#2 ++ bk ++ 0#1 ++ k : Word)).extractLsb' 3 1 = 0#1 :=
  ((extract_skip _ _ 0 1).trans (extract_lo _ _ rfl))

@[simp] theorem mstrIm_bank (q : BitVec 8) (bk : BitVec 2) (k : BitVec 3) : ((0#16 ++ q ++ 0#2 ++ bk ++ 0#1 ++ k : Word)).extractLsb' 4 2 = bk :=
  ((extract_skip _ _ 1 2).trans ((extract_skip _ _ 0 2).trans (extract_lo _ _ rfl)))

@[simp] theorem mstrIm_mid (q : BitVec 8) (bk : BitVec 2) (k : BitVec 3) : ((0#16 ++ q ++ 0#2 ++ bk ++ 0#1 ++ k : Word)).extractLsb' 6 2 = 0#2 :=
  ((extract_skip _ _ 3 2).trans ((extract_skip _ _ 2 2).trans ((extract_skip _ _ 0 2).trans (extract_lo _ _ rfl))))

@[simp] theorem mstrIm_q0 (q : BitVec 8) (bk : BitVec 2) (k : BitVec 3) : ((0#16 ++ q ++ 0#2 ++ bk ++ 0#1 ++ k : Word)).extractLsb' 8 8 = q :=
  ((extract_skip _ _ 5 8).trans ((extract_skip _ _ 4 8).trans ((extract_skip _ _ 2 8).trans ((extract_skip _ _ 0 8).trans (extract_lo _ _ rfl)))))

@[simp] theorem joinIm_low (bk : BitVec 2) : ((0#26 ++ bk ++ 0#4 : Word)).extractLsb' 0 4 = 0#4 :=
  (extract_lo _ _ rfl)

@[simp] theorem joinIm_bank (bk : BitVec 2) : ((0#26 ++ bk ++ 0#4 : Word)).extractLsb' 4 2 = bk :=
  ((extract_skip _ _ 0 2).trans (extract_lo _ _ rfl))

@[simp] theorem flagIm_s (s : Bool) : ((0#31 ++ BitVec.ofBool s : Word))[0] = s := by
  rw [← BitVec.getLsbD_eq_getElem]
  exact (getLsbD_lo _ _)

/-- One bit of a word by its field of one bit. -/
theorem getLsbD_of_extract {n : Nat} (x : BitVec n) (i : Nat) : x.getLsbD i = decide (x.extractLsb' i 1 = 1#1) := by
  have h : (x.extractLsb' i 1).getLsbD 0 = x.getLsbD i := by simp
  rw [← h]
  generalize x.extractLsb' i 1 = y
  revert y
  decide

@[simp] theorem syncImm_lt (cl : Bool) (size ord : BitVec 2) (sc : BitVec 4) : (syncImm cl size ord sc).toNat < 512 :=
  (toNat_app_lt _ _ (toNat_app_lt _ _ (toNat_app_lt _ _ (zero_app_lt _))))

@[simp] theorem matImm_lt (w : Rows) (raw intw : Bool) (slot : BitVec 3) : (matImm w raw intw slot).toNat < 16777216 :=
  (toNat_app_lt _ _ (toNat_app_lt _ _ (toNat_app_lt _ _ (toNat_app_lt _ _ (toNat_app_lt _ _ (toNat_app_lt _ _ (zero_app_lt _)))))))

@[simp] theorem cmdIm_lt (k : Cmd) (slot : BitVec 3) : (k.im slot).toNat < 32768 :=
  (toNat_app_lt _ _ (toNat_app_lt _ _ (toNat_app_lt _ _ (zero_app_lt _))))

@[simp] theorem reshIm_lt (k : ReshCmd) : (k.im).toNat < 8192 :=
  (toNat_app_lt _ _ (toNat_app_lt _ _ (toNat_app_lt _ _ (zero_app_lt _))))

@[simp] theorem kmovIm_lt (j k : BitVec 4) : ((0#20 ++ j ++ 0#4 ++ k : Word)).toNat < 4096 :=
  (toNat_app_lt _ _ (toNat_app_lt _ _ (zero_app_lt _)))

@[simp] theorem sigIm_lt (s : BitVec 2) (w : BitVec 5) : ((0#25 ++ s ++ w : Word)).toNat < 128 :=
  (toNat_app_lt _ _ (zero_app_lt _))

@[simp] theorem fmtIm_lt (x y : BitVec 4) : ((0#24 ++ x ++ y : Word)).toNat < 256 :=
  (toNat_app_lt _ _ (zero_app_lt _))

@[simp] theorem shflIm_lt (lw : BitVec 3) (b : BitVec 6) : ((0#21 ++ lw ++ 0#2 ++ b : Word)).toNat < 2048 :=
  (toNat_app_lt _ _ (toNat_app_lt _ _ (zero_app_lt _)))

@[simp] theorem mstrIm_lt (q : BitVec 8) (bk : BitVec 2) (k : BitVec 3) : ((0#16 ++ q ++ 0#2 ++ bk ++ 0#1 ++ k : Word)).toNat < 65536 :=
  (toNat_app_lt _ _ (toNat_app_lt _ _ (toNat_app_lt _ _ (toNat_app_lt _ _ (zero_app_lt _)))))

@[simp] theorem joinIm_lt (bk : BitVec 2) : ((0#26 ++ bk ++ 0#4 : Word)).toNat < 64 :=
  (toNat_app_lt _ _ (zero_app_lt _))

@[simp] theorem flagIm_lt (s : Bool) : ((0#31 ++ BitVec.ofBool s : Word)).toNat < 2 :=
  (zero_app_lt _)

/-- An IMM of Table 15-2 with CL = 0 has nothing above bit 7. -/
@[simp] theorem syncImm_lt8 (size ord : BitVec 2) (sc : BitVec 4) : (syncImm false size ord sc).toNat < 256 :=
  toNat_app_lt _ _ (toNat_app_lt _ _ (zero_app_lt _))

@[simp] theorem syncImm_lt4 (sc : BitVec 4) : (syncImm false 0#2 0#2 sc).toNat < 16 := zero_app_lt sc

@[simp] theorem syncImm_lt6 (ord : BitVec 2) (sc : BitVec 4) : (syncImm false 0#2 ord sc).toNat < 64 :=
  toNat_app_lt _ _ (zero_app_lt _)

@[simp] theorem cmdIm_lt12 (k : Cmd) : (k.im 0#3).toNat < 4096 :=
  toNat_app_lt _ _ (toNat_app_lt _ _ (zero_app_lt _))

/-- A bit of a field that is read. -/
theorem getLsbD_of_span {n w : Nat} {x : BitVec n} {v : BitVec w} (lo i : Nat) (h : x.extractLsb' lo w = v) (hi : i < w) :
    x.getLsbD (lo + i) = v.getLsbD i := by
  subst h
  simp [hi]

@[simp] theorem matImm_bit3 (w : Rows) (raw intw : Bool) (slot : BitVec 3) : (matImm w raw intw slot)[3] = false := by
  rw [← BitVec.getLsbD_eq_getElem]
  exact getLsbD_of_span 3 0 (matImm_b3 w raw intw slot) (by decide)

@[simp] theorem mstrIm_bit3 (q : BitVec 8) (bk : BitVec 2) (k : BitVec 3) : (0#16 ++ q ++ 0#2 ++ bk ++ 0#1 ++ k : Word)[3] = false := by
  rw [← BitVec.getLsbD_eq_getElem]
  exact getLsbD_of_span 3 0 (mstrIm_b3 q bk k) (by decide)

@[simp] theorem mstrIm_bit6 (q : BitVec 8) (bk : BitVec 2) (k : BitVec 3) : (0#16 ++ q ++ 0#2 ++ bk ++ 0#1 ++ k : Word)[6] = false := by
  rw [← BitVec.getLsbD_eq_getElem]
  exact getLsbD_of_span 6 0 (mstrIm_mid q bk k) (by decide)

@[simp] theorem mstrIm_bit7 (q : BitVec 8) (bk : BitVec 2) (k : BitVec 3) : (0#16 ++ q ++ 0#2 ++ bk ++ 0#1 ++ k : Word)[7] = false := by
  rw [← BitVec.getLsbD_eq_getElem]
  exact getLsbD_of_span 6 1 (mstrIm_mid q bk k) (by decide)

@[simp] theorem reshIm_bit7 (k : ReshCmd) : (k.im)[7] = false := by
  rw [← BitVec.getLsbD_eq_getElem]
  exact getLsbD_of_span 7 0 (reshIm_b7 k) (by decide)

/-- Two fields side by side that are 0. -/
theorem span_zero {n i j : Nat} {x : BitVec n} (lo : Nat) (h1 : x.extractLsb' lo i = 0) (h2 : x.extractLsb' (lo + i) j = 0) :
    x.extractLsb' lo (i + j) = 0 := by
  ext k hk
  by_cases h : k < i
  · have h3 := congrArg (fun y => BitVec.getLsbD y k) h1
    simpa [h] using h3
  · have h3 := congrArg (fun y => BitVec.getLsbD y (k - i)) h2
    have h4 : k - i < j := by omega
    have h5 : lo + i + (k - i) = lo + k := by omega
    simpa [h4, h5] using h3

@[simp] theorem matImm_low (w : Rows) (raw intw : Bool) : (matImm w raw intw 0#3).extractLsb' 0 4 = 0#4 :=
  span_zero (i := 3) (j := 1) 0 (matImm_slot w raw intw 0) (matImm_b3 w raw intw 0)

@[simp] theorem syncImm_low6 (cl : Bool) (size : BitVec 2) : (syncImm cl size 0#2 0#4).extractLsb' 0 6 = 0#6 :=
  span_zero (i := 4) (j := 2) 0 (syncImm_scope cl size 0 0) (syncImm_ord cl size 0 0)

@[simp] theorem syncImm_ord0 (cl : Bool) (size ord : BitVec 2) (sc : BitVec 4) : (syncImm cl size ord sc)[4] = ord[0] := by
  rw [← BitVec.getLsbD_eq_getElem, ← BitVec.getLsbD_eq_getElem]
  exact getLsbD_of_span 4 0 (syncImm_ord cl size ord sc) (by decide)

@[simp] theorem syncImm_ord1 (cl : Bool) (size ord : BitVec 2) (sc : BitVec 4) : (syncImm cl size ord sc)[5] = ord[1] := by
  rw [← BitVec.getLsbD_eq_getElem, ← BitVec.getLsbD_eq_getElem]
  exact getLsbD_of_span 4 1 (syncImm_ord cl size ord sc) (by decide)

@[simp] theorem tagIm_bit (t : Option (BitVec 6)) : (tagImm t).getLsbD 6 = t.isSome := by
  cases t with
  | none => rfl
  | some x => exact getLsbD_skip 1#1 x 0

@[simp] theorem tagIm_low (t : Option (BitVec 6)) : (tagImm t).extractLsb' 0 6 = t.getD 0 := by
  cases t with
  | none => rfl
  | some x => exact extract_lo 1#1 x rfl

/-- TV and TAG of a command are read back. -/
theorem tag_of_imm (r : Raw) (t : Option (BitVec 6)) (h : r.imm.extractLsb' 0 7 = tagImm t) : r.tag = some t := by
  have h1 : r.imm.getLsbD 6 = t.isSome := by
    rw [← tagIm_bit t, ← h]
    simp
  have h2 : r.imm.extractLsb' 0 6 = t.getD 0 := by
    rw [← tagIm_low t, ← h]
    ext i hi
    simp
  unfold Raw.tag
  rw [h1, h2]
  cases t <;> simp

@[simp] theorem word_lt (x : Word) : x.toNat < 4294967296 := x.isLt

@[simp] theorem fnCv_code (c : BitVec 2) (s z : Bool) : (fnCv c s z).extractLsb' 0 2 = c := by
  revert c s z; decide

@[simp] theorem fnCv_2 (c : BitVec 2) (s z : Bool) : (fnCv c s z)[2] = s := by revert c s z; decide

@[simp] theorem fnCv_3 (c : BitVec 2) (s z : Bool) : (fnCv c s z)[3] = z := by revert c s z; decide

@[simp] theorem fnHf_0 (b : Bool) (m : Rm) (s : Bool) : (fnHf b m s)[0] = b := by cases b <;> cases m <;> cases s <;> rfl

@[simp] theorem fnHf_3 (b : Bool) (m : Rm) (s : Bool) : (fnHf b m s)[3] = s := by cases b <;> cases m <;> cases s <;> rfl

@[simp] theorem fnHf_rm (b : Bool) (m : Rm) (s : Bool) : Rm.of ((fnHf b m s).extractLsb' 1 2) = m := by
  cases b <;> cases m <;> cases s <;> rfl

@[simp] theorem cmd_tag (k : Cmd) (slot : BitVec 3) (c b a d : RegCode) (form : BitVec 2) (pg : BitVec 3) (negp : Bool)
    (rsbm : BitVec 6) (wsb : BitVec 3) (yld : Bool) (stall fn : BitVec 4) (maj : BitVec 8) :
    Raw.tag ⟨k.im slot, c, b, a, d, form, pg, negp, rsbm, wsb, yld, stall, fn, maj⟩ = some k.tag :=
  tag_of_imm _ _ (cmdIm_tag k slot)

@[simp] theorem resh_tag (k : ReshCmd) (c b a d : RegCode) (form : BitVec 2) (pg : BitVec 3) (negp : Bool)
    (rsbm : BitVec 6) (wsb : BitVec 3) (yld : Bool) (stall fn : BitVec 4) (maj : BitVec 8) :
    Raw.tag ⟨k.im, c, b, a, d, form, pg, negp, rsbm, wsb, yld, stall, fn, maj⟩ = some k.tag :=
  tag_of_imm _ _ (reshIm_tag k)

@[simp] theorem fn4_0 (x y z w : Bool) : (fn4 x y z w)[0] = x := by revert x y z w; decide

@[simp] theorem fn4_1 (x y z w : Bool) : (fn4 x y z w)[1] = y := by revert x y z w; decide

@[simp] theorem fn4_2 (x y z w : Bool) : (fn4 x y z w)[2] = z := by revert x y z w; decide

@[simp] theorem fn4_3 (x y z w : Bool) : (fn4 x y z w)[3] = w := by revert x y z w; decide

@[simp] theorem Rm.of_code (x : Rm) : Rm.of x.code = x := by cases x <;> rfl

@[simp] theorem Cv.of_code (x : Cv) : Cv.of x.code = some x := by cases x <;> rfl

@[simp] theorem CvD.of_code (x : CvD) : CvD.of x.code = x := by cases x <;> rfl

@[simp] theorem SatMode.ofCode_code (x : SatMode) : SatMode.ofCode x.code = some x := by cases x <;> rfl

@[simp] theorem HiMode.ofCode_code (x : HiMode) : HiMode.ofCode x.code = some x := by cases x <;> rfl

@[simp] theorem Cmp.ofCode_code (x : Cmp) : Cmp.ofCode x.code = some x := by cases x <;> rfl

@[simp] theorem FCmp.ofCode_code (x : FCmp) : FCmp.ofCode x.code = some x := by cases x <;> rfl

@[simp] theorem ShflMode.ofCode_code (x : ShflMode) : ShflMode.ofCode x.code = some x := by cases x <;> rfl

@[simp] theorem ReduxOp.ofCode_code (x : ReduxOp) : ReduxOp.ofCode x.code = some x := by cases x <;> rfl

@[simp] theorem LdSize.ofCode_code (x : LdSize) : LdSize.ofCode x.code = some x := by cases x <;> rfl

@[simp] theorem StSize.ofCode_code (x : StSize) : StSize.ofCode x.code = some x := by cases x <;> rfl

@[simp] theorem AtSize.ofCode_code (x : AtSize) : AtSize.ofCode x.code = some x := by cases x <;> rfl

@[simp] theorem WSize.ofCode_code (x : WSize) : WSize.ofCode x.code = some x := by cases x <;> rfl

@[simp] theorem Scope.ofCode_code (x : Scope) : Scope.ofCode x.code = some x := by cases x <;> rfl

@[simp] theorem CarryMode.ofCode_code (x : CarryMode) : CarryMode.ofCode x.code x.fld = some x := by cases x <;> rfl

@[simp] theorem AtomOp.ofCode_code (x : AtomOp) : AtomOp.ofCode x.code x.fld = some x := by cases x <;> rfl

@[simp] theorem AtomOp.ofCode_red (x : AtomOp) (h : x.redOk = true) : AtomOp.ofCode x.code nf = some x := by
  cases x <;> first | rfl | simp [AtomOp.redOk] at h

@[simp] theorem Ord4.of_code (x : Ord4) : Ord4.of x.code = x := by cases x <;> rfl

@[simp] theorem FKind.ofFn_fn (x : FKind) : FKind.ofFn x.fn = some x := by cases x <;> rfl

@[simp] theorem FKind.ofFmt_fmt (x : FKind) : FKind.ofFmt x.fmt = some x := by cases x <;> rfl

@[simp] theorem bit01_fnBit (b : Bool) : bit01 (fnBit b) = some b := by cases b <;> rfl

end Sys2Proof.Laws
end

