-- ==== Sys2Proof/Laws/Table.lean ====
section
/-!
SUPPORT. What the finite maps of `Machine/Table.lean` do: reading after a write, and the canonical form.
-/
namespace Sys2Proof.Machine

variable {α : Type}

theorem tget_tdel (d : α) (t : Table α) (k j : Nat) : tget d (tdel t k) j = if j = k then d else tget d t j := by
  induction t with
  | nil => simp [tdel, tget]
  | cons e r ih =>
    obtain ⟨a, v⟩ := e
    by_cases h : a = k
    · subst h
      by_cases hj : j = a
      · subst hj; simpa [tdel] using ih
      · simp [tdel, ih, tget, hj, Ne.symm hj]
    · simp only [tdel, if_neg h, tget, ih]
      by_cases hj : a = j
      · subst hj; simp [h]
      · simp [hj]

theorem tfind_tdel (t : Table α) (k j : Nat) : tfind (tdel t k) j = if j = k then none else tfind t j := by
  induction t with
  | nil => simp [tdel, tfind]
  | cons e r ih =>
    obtain ⟨a, v⟩ := e
    by_cases h : a = k
    · subst h
      by_cases hj : j = a
      · subst hj; simpa [tdel] using ih
      · simp [tdel, ih, tfind, hj, Ne.symm hj]
    · simp only [tdel, if_neg h, tfind, ih]
      by_cases hj : a = j
      · subst hj; simp [h]
      · simp [hj]

theorem tget_tins (d : α) (t : Table α) (k j : Nat) (v : α) (h : tfind t k = none) :
    tget d (tins k v t) j = if j = k then v else tget d t j := by
  induction t with
  | nil =>
    by_cases hj : j = k
    · simp [tins, tget, hj]
    · simp [tins, tget, hj, Ne.symm hj]
  | cons e r ih =>
    obtain ⟨a, w⟩ := e
    have ha : a ≠ k := by
      intro hk
      simp [tfind, hk] at h
    have hr : tfind r k = none := by simpa [tfind, ha] using h
    simp only [tins]
    split
    · by_cases hj : j = k
      · simp [tget, hj]
      · simp [tget, hj, Ne.symm hj]
    · simp only [tget, ih hr]
      by_cases hj : a = j
      · subst hj; simp [ha]
      · simp [hj]

theorem tfind_tins (t : Table α) (k j : Nat) (v : α) (h : tfind t k = none) :
    tfind (tins k v t) j = if j = k then some v else tfind t j := by
  induction t with
  | nil =>
    by_cases hj : j = k
    · simp [tins, tfind, hj]
    · simp [tins, tfind, hj, Ne.symm hj]
  | cons e r ih =>
    obtain ⟨a, w⟩ := e
    have ha : a ≠ k := by
      intro hk
      simp [tfind, hk] at h
    have hr : tfind r k = none := by simpa [tfind, ha] using h
    simp only [tins]
    split
    · by_cases hj : j = k
      · simp [tfind, hj]
      · simp [tfind, hj, Ne.symm hj]
    · simp only [tfind, ih hr]
      by_cases hj : a = j
      · subst hj; simp [ha]
      · simp [hj]

theorem tget_tset (d : α) (t : Table α) (k j : Nat) (v : α) : tget d (tset t k v) j = if j = k then v else tget d t j := by
  unfold tset
  rw [tget_tins _ _ _ _ _ (by simp [tfind_tdel]), tget_tdel]
  split <;> simp_all

theorem tfind_tset (t : Table α) (k j : Nat) (v : α) : tfind (tset t k v) j = if j = k then some v else tfind t j := by
  unfold tset
  rw [tfind_tins _ _ _ _ (by simp [tfind_tdel]), tfind_tdel]
  split <;> simp_all

theorem tget_tput [DecidableEq α] (d : α) (t : Table α) (k j : Nat) (v : α) :
    tget d (tput d t k v) j = if j = k then v else tget d t j := by
  unfold tput
  split
  · next h => subst h; exact tget_tdel _ t k j
  · exact tget_tset d t k j v

@[simp] theorem tget_tput_same [DecidableEq α] (d : α) (t : Table α) (k : Nat) (v : α) : tget d (tput d t k v) k = v := by
  simp [tget_tput]

theorem tget_tput_ne [DecidableEq α] (d : α) (t : Table α) {k j : Nat} (v : α) (h : j ≠ k) :
    tget d (tput d t k v) j = tget d t j := by
  simp [tget_tput, h]

/-! ### The canonical form -/

theorem keysAbove_le {lo lo' : Nat} {t : Table α} (h : lo' ≤ lo) (ht : keysAbove lo t = true) : keysAbove lo' t = true := by
  cases t with
  | nil => rfl
  | cons e r =>
    obtain ⟨a, v⟩ := e
    simp only [keysAbove, Bool.and_eq_true, decide_eq_true_eq] at ht ⊢
    exact ⟨by omega, ht.2⟩

theorem keysAbove_tdel {lo : Nat} {t : Table α} (k : Nat) (ht : keysAbove lo t = true) : keysAbove lo (tdel t k) = true := by
  induction t generalizing lo with
  | nil => rfl
  | cons e r ih =>
    obtain ⟨a, v⟩ := e
    simp only [keysAbove, Bool.and_eq_true, decide_eq_true_eq] at ht
    simp only [tdel]
    split
    · exact keysAbove_le (by omega) (ih ht.2)
    · simp only [keysAbove, Bool.and_eq_true, decide_eq_true_eq]
      exact ⟨ht.1, ih ht.2⟩

theorem keysAbove_tins {lo k : Nat} {t : Table α} (v : α) (hk : lo ≤ k) (h : tfind t k = none) (ht : keysAbove lo t = true) :
    keysAbove lo (tins k v t) = true := by
  induction t generalizing lo with
  | nil => simp [tins, keysAbove, hk]
  | cons e r ih =>
    obtain ⟨a, w⟩ := e
    have ha : a ≠ k := by
      intro e
      simp [tfind, e] at h
    have hr : tfind r k = none := by simpa [tfind, ha] using h
    simp only [keysAbove, Bool.and_eq_true, decide_eq_true_eq] at ht
    simp only [tins]
    split
    · simp only [keysAbove, Bool.and_eq_true, decide_eq_true_eq]
      exact ⟨hk, by omega, ht.2⟩
    · simp only [keysAbove, Bool.and_eq_true, decide_eq_true_eq]
      exact ⟨ht.1, ih (by omega) hr ht.2⟩

theorem mem_tdel {t : Table α} {k : Nat} {e : Nat × α} (h : e ∈ tdel t k) : e ∈ t := by
  induction t with
  | nil => exact h
  | cons x r ih =>
    obtain ⟨a, v⟩ := x
    simp only [tdel] at h
    split at h
    · exact List.mem_cons_of_mem _ (ih h)
    · rcases List.mem_cons.1 h with h | h
      · subst h; exact List.mem_cons_self
      · exact List.mem_cons_of_mem _ (ih h)

theorem mem_tins {t : Table α} {k : Nat} {v : α} {e : Nat × α} (h : e ∈ tins k v t) : e = (k, v) ∨ e ∈ t := by
  induction t with
  | nil => simpa [tins] using h
  | cons x r ih =>
    obtain ⟨a, w⟩ := x
    simp only [tins] at h
    split at h
    · simpa using h
    · rcases List.mem_cons.1 h with h | h
      · subst h; exact .inr List.mem_cons_self
      · rcases ih h with h | h
        · exact .inl h
        · exact .inr (List.mem_cons_of_mem _ h)

theorem twf_iff [DecidableEq α] (d : α) (t : Table α) : twf d t = true ↔ keysAbove 0 t = true ∧ ∀ e ∈ t, e.2 ≠ d := by
  simp [twf]

theorem twf_tdel [DecidableEq α] {d : α} {t : Table α} (k : Nat) (h : twf d t = true) : twf d (tdel t k) = true := by
  rw [twf_iff] at h ⊢
  exact ⟨keysAbove_tdel k h.1, fun e he => h.2 e (mem_tdel he)⟩

/-- A write in canonical form keeps the form. -/
theorem twf_tput [DecidableEq α] {d : α} {t : Table α} (k : Nat) (v : α) (h : twf d t = true) : twf d (tput d t k v) = true := by
  unfold tput
  split
  · exact twf_tdel k h
  · next hv =>
    have h1 := (twf_iff d _).1 (twf_tdel k h)
    rw [twf_iff]
    refine ⟨keysAbove_tins v (by omega) (by simp [tfind_tdel]) h1.1, fun e he => ?_⟩
    rcases mem_tins he with e1 | e1
    · subst e1; exact hv
    · exact h1.2 e e1

/-- Deleting entries keeps the form. -/
theorem twf_filter [DecidableEq α] {d : α} {t : Table α} (p : Nat × α → Bool) (h : twf d t = true) : twf d (t.filter p) = true := by
  rw [twf_iff] at h ⊢
  refine ⟨?_, fun e he => h.2 e (List.mem_filter.1 he).1⟩
  have aux : ∀ (t : Table α) (lo : Nat), keysAbove lo t = true → keysAbove lo (t.filter p) = true := by
    intro t
    induction t with
    | nil => intros; rfl
    | cons e r ih =>
      intro lo hl
      obtain ⟨a, v⟩ := e
      simp only [keysAbove, Bool.and_eq_true, decide_eq_true_eq] at hl
      simp only [List.filter_cons]
      split
      · simp only [keysAbove, Bool.and_eq_true, decide_eq_true_eq]
        exact ⟨hl.1, ih _ hl.2⟩
      · exact keysAbove_le (by omega) (ih _ hl.2)
  exact aux t 0 h.1

theorem Memory.wf_nil : Memory.wf [] = true := rfl

theorem Memory.wf_tput {m : Table Byte} (a : Nat) (b : Byte) (h : Memory.wf m = true) : Memory.wf (tput 0 m a b) = true :=
  twf_tput a b h

theorem Memory.wf_filter {m : Table Byte} (p : Nat × Byte → Bool) (h : Memory.wf m = true) : Memory.wf (m.filter p) = true :=
  twf_filter p h

/-- Writing bytes, the one way a memory changes but for being emptied or filtered, keeps the canonical form. -/
theorem Memory.wf_writeBytes {m : Table Byte} (a : Nat) (bs : List Byte) (h : Memory.wf m = true) :
    Memory.wf (writeBytes m a bs) = true := by
  induction bs generalizing m a with
  | nil => exact h
  | cons b r ih => exact ih _ (Memory.wf_tput a b h)

end Sys2Proof.Machine
end

