-- ==== Sys2Proof/Laws/State.lean ====
section
/-!
SUPPORT. What the named updates of the state leave alone, one lemma a field, and what each reads back.
-/
namespace Sys2Proof.Machine

variable (s : State) (n m : Nat)

/-! ### setCore -/

@[simp] theorem State.setCore_planes (x : Core) : (s.setCore n x).planes = s.planes := rfl
@[simp] theorem State.setCore_teams (x : Core) : (s.setCore n x).teams = s.teams := rfl
@[simp] theorem State.setCore_groups (x : Core) : (s.setCore n x).groups = s.groups := rfl
@[simp] theorem State.setCore_grids (x : Core) : (s.setCore n x).grids = s.grids := rfl
@[simp] theorem State.setCore_dies (x : Core) : (s.setCore n x).dies = s.dies := rfl
@[simp] theorem State.setCore_funcs (x : Core) : (s.setCore n x).funcs = s.funcs := rfl
@[simp] theorem State.setCore_parts (x : Core) : (s.setCore n x).parts = s.parts := rfl
@[simp] theorem State.setCore_saved (x : Core) : (s.setCore n x).saved = s.saved := rfl
@[simp] theorem State.setCore_mem (x : Core) : (s.setCore n x).mem = s.mem := rfl
@[simp] theorem State.setCore_memMarks (x : Core) : (s.setCore n x).memMarks = s.memMarks := rfl
@[simp] theorem State.setCore_l2Dirty (x : Core) : (s.setCore n x).l2Dirty = s.l2Dirty := rfl
@[simp] theorem State.setCore_hostMem (x : Core) : (s.setCore n x).hostMem = s.hostMem := rfl
@[simp] theorem State.setCore_hostMarks (x : Core) : (s.setCore n x).hostMarks = s.hostMarks := rfl
@[simp] theorem State.setCore_chip (x : Core) : (s.setCore n x).chip = s.chip := rfl
@[simp] theorem State.setCore_chipMarks (x : Core) : (s.setCore n x).chipMarks = s.chipMarks := rfl
@[simp] theorem State.setCore_clock (x : Core) : (s.setCore n x).clock = s.clock := rfl
@[simp] theorem State.setCore_epoch (x : Core) : (s.setCore n x).epoch = s.epoch := rfl
@[simp] theorem State.setCore_hostLines (x : Core) : (s.setCore n x).hostLines = s.hostLines := rfl
@[simp] theorem State.setCore_snoop (x : Core) : (s.setCore n x).snoop = s.snoop := rfl
@[simp] theorem State.setCore_biPend (x : Core) : (s.setCore n x).biPend = s.biPend := rfl
@[simp] theorem State.setCore_biGo (x : Core) : (s.setCore n x).biGo = s.biGo := rfl
@[simp] theorem State.setCore_hostWait (x : Core) : (s.setCore n x).hostWait = s.hostWait := rfl
@[simp] theorem State.setCore_vdnTable (x : Core) : (s.setCore n x).vdnTable = s.vdnTable := rfl
@[simp] theorem State.setCore_redirect (x : Core) : (s.setCore n x).redirect = s.redirect := rfl
@[simp] theorem State.setCore_ports (x : Core) : (s.setCore n x).ports = s.ports := rfl
@[simp] theorem State.setCore_portErr (x : Core) : (s.setCore n x).portErr = s.portErr := rfl
@[simp] theorem State.setCore_netOut (x : Core) : (s.setCore n x).netOut = s.netOut := rfl
@[simp] theorem State.setCore_netWait (x : Core) : (s.setCore n x).netWait = s.netWait := rfl
@[simp] theorem State.setCore_sw (x : Core) : (s.setCore n x).sw = s.sw := rfl
@[simp] theorem State.setCore_collHeld (x : Core) : (s.setCore n x).collHeld = s.collHeld := rfl
@[simp] theorem State.setCore_early (x : Core) : (s.setCore n x).early = s.early := rfl
@[simp] theorem State.setCore_notifyQ (x : Core) : (s.setCore n x).notifyQ = s.notifyQ := rfl
@[simp] theorem State.setCore_ringBase (x : Core) : (s.setCore n x).ringBase = s.ringBase := rfl
@[simp] theorem State.setCore_ringLen (x : Core) : (s.setCore n x).ringLen = s.ringLen := rfl
@[simp] theorem State.setCore_ringHead (x : Core) : (s.setCore n x).ringHead = s.ringHead := rfl
@[simp] theorem State.setCore_ringTail (x : Core) : (s.setCore n x).ringTail = s.ringTail := rfl
@[simp] theorem State.setCore_ringOverflow (x : Core) : (s.setCore n x).ringOverflow = s.ringOverflow := rfl
@[simp] theorem State.setCore_held (x : Core) : (s.setCore n x).held = s.held := rfl
@[simp] theorem State.setCore_breaks (x : Core) : (s.setCore n x).breaks = s.breaks := rfl
@[simp] theorem State.setCore_saving (x : Core) : (s.setCore n x).saving = s.saving := rfl
@[simp] theorem State.setCore_cmdSeq (x : Core) : (s.setCore n x).cmdSeq = s.cmdSeq := rfl
@[simp] theorem State.setCore_gangs (x : Core) : (s.setCore n x).gangs = s.gangs := rfl
@[simp] theorem State.setCore_recalls (x : Core) : (s.setCore n x).recalls = s.recalls := rfl
@[simp] theorem State.setCore_vfEnable (x : Core) : (s.setCore n x).vfEnable = s.vfEnable := rfl
@[simp] theorem State.setCore_numVFs (x : Core) : (s.setCore n x).numVFs = s.numVFs := rfl
@[simp] theorem State.setCore_isReady (x : Core) : (s.setCore n x).isReady = s.isReady := rfl
@[simp] theorem State.setCore_recovery (x : Core) : (s.setCore n x).recovery = s.recovery := rfl
@[simp] theorem State.setCore_minVer (x : Core) : (s.setCore n x).minVer = s.minVer := rfl
@[simp] theorem State.setCore_flashVer (x : Core) : (s.setCore n x).flashVer = s.flashVer := rfl
@[simp] theorem State.setCore_flashOk (x : Core) : (s.setCore n x).flashOk = s.flashOk := rfl
@[simp] theorem State.setCore_flashMeters (x : Core) : (s.setCore n x).flashMeters = s.flashMeters := rfl
@[simp] theorem State.setCore_pwrlim (x : Core) : (s.setCore n x).pwrlim = s.pwrlim := rfl
@[simp] theorem State.setCore_pwrnow (x : Core) : (s.setCore n x).pwrnow = s.pwrnow := rfl
@[simp] theorem State.setCore_caps (x : Core) : (s.setCore n x).caps = s.caps := rfl
@[simp] theorem State.setCore_plan (x : Core) : (s.setCore n x).plan = s.plan := rfl
@[simp] theorem State.setCore_lag (x : Core) : (s.setCore n x).lag = s.lag := rfl
@[simp] theorem State.setCore_agestat (x : Core) : (s.setCore n x).agestat = s.agestat := rfl
@[simp] theorem State.setCore_agehrs (x : Core) : (s.setCore n x).agehrs = s.agehrs := rfl
@[simp] theorem State.setCore_powerHist (x : Core) : (s.setCore n x).powerHist = s.powerHist := rfl
@[simp] theorem State.setCore_retireWait (x : Core) : (s.setCore n x).retireWait = s.retireWait := rfl
@[simp] theorem State.setCore_ksLast (x : Core) : (s.setCore n x).ksLast = s.ksLast := rfl
@[simp] theorem State.setCore_migs (x : Core) : (s.setCore n x).migs = s.migs := rfl
@[simp] theorem State.setCore_wins (x : Core) : (s.setCore n x).wins = s.wins := rfl
@[simp] theorem State.setCore_movedVdns (x : Core) : (s.setCore n x).movedVdns = s.movedVdns := rfl
@[simp] theorem State.setCore_fwd (x : Core) : (s.setCore n x).fwd = s.fwd := rfl
@[simp] theorem State.setCore_doms (x : Core) : (s.setCore n x).doms = s.doms := rfl
@[simp] theorem State.setCore_sealWait (x : Core) : (s.setCore n x).sealWait = s.sealWait := rfl
@[simp] theorem State.setCore_afterBi (x : Core) : (s.setCore n x).afterBi = s.afterBi := rfl
@[simp] theorem State.setCore_agenda (x : Core) : (s.setCore n x).agenda = s.agenda := rfl
@[simp] theorem State.setCore_cur (x : Core) : (s.setCore n x).cur = s.cur := rfl
@[simp] theorem State.setCore_turn (x : Core) : (s.setCore n x).turn = s.turn := rfl
@[simp] theorem State.setCore_nextTeam (x : Core) : (s.setCore n x).nextTeam = s.nextTeam := rfl
@[simp] theorem State.setCore_nextGrid (x : Core) : (s.setCore n x).nextGrid = s.nextGrid := rfl
@[simp] theorem State.setCore_nextTok (x : Core) : (s.setCore n x).nextTok = s.nextTok := rfl
@[simp] theorem State.setCore_nextCard (x : Core) : (s.setCore n x).nextCard = s.nextCard := rfl
@[simp] theorem State.setCore_nextBatch (x : Core) : (s.setCore n x).nextBatch = s.nextBatch := rfl
@[simp] theorem State.setCore_freeCtr (x : Core) : (s.setCore n x).freeCtr = s.freeCtr := rfl
theorem State.setCore_core (x : Core) : (s.setCore n x).core m = if m = n then x else s.core m := tget_tput _ _ _ _ _
@[simp] theorem State.setCore_core_same (x : Core) : (s.setCore n x).core n = x := by simp [State.setCore_core]
@[simp] theorem State.setCore_plane (x : Core) : (s.setCore n x).plane m = s.plane m := rfl
@[simp] theorem State.setCore_die (x : Core) : (s.setCore n x).die m = s.die m := rfl
@[simp] theorem State.setCore_func (x : Core) : (s.setCore n x).func m = s.func m := rfl
@[simp] theorem State.setCore_group (x : Core) : (s.setCore n x).group m = s.group m := rfl
@[simp] theorem State.setCore_team (x : Core) : (s.setCore n x).team? m = s.team? m := rfl
@[simp] theorem State.setCore_grid (x : Core) : (s.setCore n x).grid? m = s.grid? m := rfl

/-! ### setPlane -/

@[simp] theorem State.setPlane_cores (x : Plane) : (s.setPlane n x).cores = s.cores := rfl
@[simp] theorem State.setPlane_teams (x : Plane) : (s.setPlane n x).teams = s.teams := rfl
@[simp] theorem State.setPlane_groups (x : Plane) : (s.setPlane n x).groups = s.groups := rfl
@[simp] theorem State.setPlane_grids (x : Plane) : (s.setPlane n x).grids = s.grids := rfl
@[simp] theorem State.setPlane_dies (x : Plane) : (s.setPlane n x).dies = s.dies := rfl
@[simp] theorem State.setPlane_funcs (x : Plane) : (s.setPlane n x).funcs = s.funcs := rfl
@[simp] theorem State.setPlane_parts (x : Plane) : (s.setPlane n x).parts = s.parts := rfl
@[simp] theorem State.setPlane_saved (x : Plane) : (s.setPlane n x).saved = s.saved := rfl
@[simp] theorem State.setPlane_mem (x : Plane) : (s.setPlane n x).mem = s.mem := rfl
@[simp] theorem State.setPlane_memMarks (x : Plane) : (s.setPlane n x).memMarks = s.memMarks := rfl
@[simp] theorem State.setPlane_l2Dirty (x : Plane) : (s.setPlane n x).l2Dirty = s.l2Dirty := rfl
@[simp] theorem State.setPlane_hostMem (x : Plane) : (s.setPlane n x).hostMem = s.hostMem := rfl
@[simp] theorem State.setPlane_hostMarks (x : Plane) : (s.setPlane n x).hostMarks = s.hostMarks := rfl
@[simp] theorem State.setPlane_chip (x : Plane) : (s.setPlane n x).chip = s.chip := rfl
@[simp] theorem State.setPlane_chipMarks (x : Plane) : (s.setPlane n x).chipMarks = s.chipMarks := rfl
@[simp] theorem State.setPlane_clock (x : Plane) : (s.setPlane n x).clock = s.clock := rfl
@[simp] theorem State.setPlane_epoch (x : Plane) : (s.setPlane n x).epoch = s.epoch := rfl
@[simp] theorem State.setPlane_hostLines (x : Plane) : (s.setPlane n x).hostLines = s.hostLines := rfl
@[simp] theorem State.setPlane_snoop (x : Plane) : (s.setPlane n x).snoop = s.snoop := rfl
@[simp] theorem State.setPlane_biPend (x : Plane) : (s.setPlane n x).biPend = s.biPend := rfl
@[simp] theorem State.setPlane_biGo (x : Plane) : (s.setPlane n x).biGo = s.biGo := rfl
@[simp] theorem State.setPlane_hostWait (x : Plane) : (s.setPlane n x).hostWait = s.hostWait := rfl
@[simp] theorem State.setPlane_vdnTable (x : Plane) : (s.setPlane n x).vdnTable = s.vdnTable := rfl
@[simp] theorem State.setPlane_redirect (x : Plane) : (s.setPlane n x).redirect = s.redirect := rfl
@[simp] theorem State.setPlane_ports (x : Plane) : (s.setPlane n x).ports = s.ports := rfl
@[simp] theorem State.setPlane_portErr (x : Plane) : (s.setPlane n x).portErr = s.portErr := rfl
@[simp] theorem State.setPlane_netOut (x : Plane) : (s.setPlane n x).netOut = s.netOut := rfl
@[simp] theorem State.setPlane_netWait (x : Plane) : (s.setPlane n x).netWait = s.netWait := rfl
@[simp] theorem State.setPlane_sw (x : Plane) : (s.setPlane n x).sw = s.sw := rfl
@[simp] theorem State.setPlane_collHeld (x : Plane) : (s.setPlane n x).collHeld = s.collHeld := rfl
@[simp] theorem State.setPlane_early (x : Plane) : (s.setPlane n x).early = s.early := rfl
@[simp] theorem State.setPlane_notifyQ (x : Plane) : (s.setPlane n x).notifyQ = s.notifyQ := rfl
@[simp] theorem State.setPlane_ringBase (x : Plane) : (s.setPlane n x).ringBase = s.ringBase := rfl
@[simp] theorem State.setPlane_ringLen (x : Plane) : (s.setPlane n x).ringLen = s.ringLen := rfl
@[simp] theorem State.setPlane_ringHead (x : Plane) : (s.setPlane n x).ringHead = s.ringHead := rfl
@[simp] theorem State.setPlane_ringTail (x : Plane) : (s.setPlane n x).ringTail = s.ringTail := rfl
@[simp] theorem State.setPlane_ringOverflow (x : Plane) : (s.setPlane n x).ringOverflow = s.ringOverflow := rfl
@[simp] theorem State.setPlane_held (x : Plane) : (s.setPlane n x).held = s.held := rfl
@[simp] theorem State.setPlane_breaks (x : Plane) : (s.setPlane n x).breaks = s.breaks := rfl
@[simp] theorem State.setPlane_saving (x : Plane) : (s.setPlane n x).saving = s.saving := rfl
@[simp] theorem State.setPlane_cmdSeq (x : Plane) : (s.setPlane n x).cmdSeq = s.cmdSeq := rfl
@[simp] theorem State.setPlane_gangs (x : Plane) : (s.setPlane n x).gangs = s.gangs := rfl
@[simp] theorem State.setPlane_recalls (x : Plane) : (s.setPlane n x).recalls = s.recalls := rfl
@[simp] theorem State.setPlane_vfEnable (x : Plane) : (s.setPlane n x).vfEnable = s.vfEnable := rfl
@[simp] theorem State.setPlane_numVFs (x : Plane) : (s.setPlane n x).numVFs = s.numVFs := rfl
@[simp] theorem State.setPlane_isReady (x : Plane) : (s.setPlane n x).isReady = s.isReady := rfl
@[simp] theorem State.setPlane_recovery (x : Plane) : (s.setPlane n x).recovery = s.recovery := rfl
@[simp] theorem State.setPlane_minVer (x : Plane) : (s.setPlane n x).minVer = s.minVer := rfl
@[simp] theorem State.setPlane_flashVer (x : Plane) : (s.setPlane n x).flashVer = s.flashVer := rfl
@[simp] theorem State.setPlane_flashOk (x : Plane) : (s.setPlane n x).flashOk = s.flashOk := rfl
@[simp] theorem State.setPlane_flashMeters (x : Plane) : (s.setPlane n x).flashMeters = s.flashMeters := rfl
@[simp] theorem State.setPlane_pwrlim (x : Plane) : (s.setPlane n x).pwrlim = s.pwrlim := rfl
@[simp] theorem State.setPlane_pwrnow (x : Plane) : (s.setPlane n x).pwrnow = s.pwrnow := rfl
@[simp] theorem State.setPlane_caps (x : Plane) : (s.setPlane n x).caps = s.caps := rfl
@[simp] theorem State.setPlane_plan (x : Plane) : (s.setPlane n x).plan = s.plan := rfl
@[simp] theorem State.setPlane_lag (x : Plane) : (s.setPlane n x).lag = s.lag := rfl
@[simp] theorem State.setPlane_agestat (x : Plane) : (s.setPlane n x).agestat = s.agestat := rfl
@[simp] theorem State.setPlane_agehrs (x : Plane) : (s.setPlane n x).agehrs = s.agehrs := rfl
@[simp] theorem State.setPlane_powerHist (x : Plane) : (s.setPlane n x).powerHist = s.powerHist := rfl
@[simp] theorem State.setPlane_retireWait (x : Plane) : (s.setPlane n x).retireWait = s.retireWait := rfl
@[simp] theorem State.setPlane_ksLast (x : Plane) : (s.setPlane n x).ksLast = s.ksLast := rfl
@[simp] theorem State.setPlane_migs (x : Plane) : (s.setPlane n x).migs = s.migs := rfl
@[simp] theorem State.setPlane_wins (x : Plane) : (s.setPlane n x).wins = s.wins := rfl
@[simp] theorem State.setPlane_movedVdns (x : Plane) : (s.setPlane n x).movedVdns = s.movedVdns := rfl
@[simp] theorem State.setPlane_fwd (x : Plane) : (s.setPlane n x).fwd = s.fwd := rfl
@[simp] theorem State.setPlane_doms (x : Plane) : (s.setPlane n x).doms = s.doms := rfl
@[simp] theorem State.setPlane_sealWait (x : Plane) : (s.setPlane n x).sealWait = s.sealWait := rfl
@[simp] theorem State.setPlane_afterBi (x : Plane) : (s.setPlane n x).afterBi = s.afterBi := rfl
@[simp] theorem State.setPlane_agenda (x : Plane) : (s.setPlane n x).agenda = s.agenda := rfl
@[simp] theorem State.setPlane_cur (x : Plane) : (s.setPlane n x).cur = s.cur := rfl
@[simp] theorem State.setPlane_turn (x : Plane) : (s.setPlane n x).turn = s.turn := rfl
@[simp] theorem State.setPlane_nextTeam (x : Plane) : (s.setPlane n x).nextTeam = s.nextTeam := rfl
@[simp] theorem State.setPlane_nextGrid (x : Plane) : (s.setPlane n x).nextGrid = s.nextGrid := rfl
@[simp] theorem State.setPlane_nextTok (x : Plane) : (s.setPlane n x).nextTok = s.nextTok := rfl
@[simp] theorem State.setPlane_nextCard (x : Plane) : (s.setPlane n x).nextCard = s.nextCard := rfl
@[simp] theorem State.setPlane_nextBatch (x : Plane) : (s.setPlane n x).nextBatch = s.nextBatch := rfl
@[simp] theorem State.setPlane_freeCtr (x : Plane) : (s.setPlane n x).freeCtr = s.freeCtr := rfl
@[simp] theorem State.setPlane_core (x : Plane) : (s.setPlane n x).core m = s.core m := rfl
theorem State.setPlane_plane (x : Plane) : (s.setPlane n x).plane m = if m = n then x else s.plane m := tget_tput _ _ _ _ _
@[simp] theorem State.setPlane_plane_same (x : Plane) : (s.setPlane n x).plane n = x := by simp [State.setPlane_plane]
@[simp] theorem State.setPlane_die (x : Plane) : (s.setPlane n x).die m = s.die m := rfl
@[simp] theorem State.setPlane_func (x : Plane) : (s.setPlane n x).func m = s.func m := rfl
@[simp] theorem State.setPlane_group (x : Plane) : (s.setPlane n x).group m = s.group m := rfl
@[simp] theorem State.setPlane_team (x : Plane) : (s.setPlane n x).team? m = s.team? m := rfl
@[simp] theorem State.setPlane_grid (x : Plane) : (s.setPlane n x).grid? m = s.grid? m := rfl

/-! ### setDie -/

@[simp] theorem State.setDie_cores (x : Die) : (s.setDie n x).cores = s.cores := rfl
@[simp] theorem State.setDie_planes (x : Die) : (s.setDie n x).planes = s.planes := rfl
@[simp] theorem State.setDie_teams (x : Die) : (s.setDie n x).teams = s.teams := rfl
@[simp] theorem State.setDie_groups (x : Die) : (s.setDie n x).groups = s.groups := rfl
@[simp] theorem State.setDie_grids (x : Die) : (s.setDie n x).grids = s.grids := rfl
@[simp] theorem State.setDie_funcs (x : Die) : (s.setDie n x).funcs = s.funcs := rfl
@[simp] theorem State.setDie_parts (x : Die) : (s.setDie n x).parts = s.parts := rfl
@[simp] theorem State.setDie_saved (x : Die) : (s.setDie n x).saved = s.saved := rfl
@[simp] theorem State.setDie_mem (x : Die) : (s.setDie n x).mem = s.mem := rfl
@[simp] theorem State.setDie_memMarks (x : Die) : (s.setDie n x).memMarks = s.memMarks := rfl
@[simp] theorem State.setDie_l2Dirty (x : Die) : (s.setDie n x).l2Dirty = s.l2Dirty := rfl
@[simp] theorem State.setDie_hostMem (x : Die) : (s.setDie n x).hostMem = s.hostMem := rfl
@[simp] theorem State.setDie_hostMarks (x : Die) : (s.setDie n x).hostMarks = s.hostMarks := rfl
@[simp] theorem State.setDie_chip (x : Die) : (s.setDie n x).chip = s.chip := rfl
@[simp] theorem State.setDie_chipMarks (x : Die) : (s.setDie n x).chipMarks = s.chipMarks := rfl
@[simp] theorem State.setDie_clock (x : Die) : (s.setDie n x).clock = s.clock := rfl
@[simp] theorem State.setDie_epoch (x : Die) : (s.setDie n x).epoch = s.epoch := rfl
@[simp] theorem State.setDie_hostLines (x : Die) : (s.setDie n x).hostLines = s.hostLines := rfl
@[simp] theorem State.setDie_snoop (x : Die) : (s.setDie n x).snoop = s.snoop := rfl
@[simp] theorem State.setDie_biPend (x : Die) : (s.setDie n x).biPend = s.biPend := rfl
@[simp] theorem State.setDie_biGo (x : Die) : (s.setDie n x).biGo = s.biGo := rfl
@[simp] theorem State.setDie_hostWait (x : Die) : (s.setDie n x).hostWait = s.hostWait := rfl
@[simp] theorem State.setDie_vdnTable (x : Die) : (s.setDie n x).vdnTable = s.vdnTable := rfl
@[simp] theorem State.setDie_redirect (x : Die) : (s.setDie n x).redirect = s.redirect := rfl
@[simp] theorem State.setDie_ports (x : Die) : (s.setDie n x).ports = s.ports := rfl
@[simp] theorem State.setDie_portErr (x : Die) : (s.setDie n x).portErr = s.portErr := rfl
@[simp] theorem State.setDie_netOut (x : Die) : (s.setDie n x).netOut = s.netOut := rfl
@[simp] theorem State.setDie_netWait (x : Die) : (s.setDie n x).netWait = s.netWait := rfl
@[simp] theorem State.setDie_sw (x : Die) : (s.setDie n x).sw = s.sw := rfl
@[simp] theorem State.setDie_collHeld (x : Die) : (s.setDie n x).collHeld = s.collHeld := rfl
@[simp] theorem State.setDie_early (x : Die) : (s.setDie n x).early = s.early := rfl
@[simp] theorem State.setDie_notifyQ (x : Die) : (s.setDie n x).notifyQ = s.notifyQ := rfl
@[simp] theorem State.setDie_ringBase (x : Die) : (s.setDie n x).ringBase = s.ringBase := rfl
@[simp] theorem State.setDie_ringLen (x : Die) : (s.setDie n x).ringLen = s.ringLen := rfl
@[simp] theorem State.setDie_ringHead (x : Die) : (s.setDie n x).ringHead = s.ringHead := rfl
@[simp] theorem State.setDie_ringTail (x : Die) : (s.setDie n x).ringTail = s.ringTail := rfl
@[simp] theorem State.setDie_ringOverflow (x : Die) : (s.setDie n x).ringOverflow = s.ringOverflow := rfl
@[simp] theorem State.setDie_held (x : Die) : (s.setDie n x).held = s.held := rfl
@[simp] theorem State.setDie_breaks (x : Die) : (s.setDie n x).breaks = s.breaks := rfl
@[simp] theorem State.setDie_saving (x : Die) : (s.setDie n x).saving = s.saving := rfl
@[simp] theorem State.setDie_cmdSeq (x : Die) : (s.setDie n x).cmdSeq = s.cmdSeq := rfl
@[simp] theorem State.setDie_gangs (x : Die) : (s.setDie n x).gangs = s.gangs := rfl
@[simp] theorem State.setDie_recalls (x : Die) : (s.setDie n x).recalls = s.recalls := rfl
@[simp] theorem State.setDie_vfEnable (x : Die) : (s.setDie n x).vfEnable = s.vfEnable := rfl
@[simp] theorem State.setDie_numVFs (x : Die) : (s.setDie n x).numVFs = s.numVFs := rfl
@[simp] theorem State.setDie_isReady (x : Die) : (s.setDie n x).isReady = s.isReady := rfl
@[simp] theorem State.setDie_recovery (x : Die) : (s.setDie n x).recovery = s.recovery := rfl
@[simp] theorem State.setDie_minVer (x : Die) : (s.setDie n x).minVer = s.minVer := rfl
@[simp] theorem State.setDie_flashVer (x : Die) : (s.setDie n x).flashVer = s.flashVer := rfl
@[simp] theorem State.setDie_flashOk (x : Die) : (s.setDie n x).flashOk = s.flashOk := rfl
@[simp] theorem State.setDie_flashMeters (x : Die) : (s.setDie n x).flashMeters = s.flashMeters := rfl
@[simp] theorem State.setDie_pwrlim (x : Die) : (s.setDie n x).pwrlim = s.pwrlim := rfl
@[simp] theorem State.setDie_pwrnow (x : Die) : (s.setDie n x).pwrnow = s.pwrnow := rfl
@[simp] theorem State.setDie_caps (x : Die) : (s.setDie n x).caps = s.caps := rfl
@[simp] theorem State.setDie_plan (x : Die) : (s.setDie n x).plan = s.plan := rfl
@[simp] theorem State.setDie_lag (x : Die) : (s.setDie n x).lag = s.lag := rfl
@[simp] theorem State.setDie_agestat (x : Die) : (s.setDie n x).agestat = s.agestat := rfl
@[simp] theorem State.setDie_agehrs (x : Die) : (s.setDie n x).agehrs = s.agehrs := rfl
@[simp] theorem State.setDie_powerHist (x : Die) : (s.setDie n x).powerHist = s.powerHist := rfl
@[simp] theorem State.setDie_retireWait (x : Die) : (s.setDie n x).retireWait = s.retireWait := rfl
@[simp] theorem State.setDie_ksLast (x : Die) : (s.setDie n x).ksLast = s.ksLast := rfl
@[simp] theorem State.setDie_migs (x : Die) : (s.setDie n x).migs = s.migs := rfl
@[simp] theorem State.setDie_wins (x : Die) : (s.setDie n x).wins = s.wins := rfl
@[simp] theorem State.setDie_movedVdns (x : Die) : (s.setDie n x).movedVdns = s.movedVdns := rfl
@[simp] theorem State.setDie_fwd (x : Die) : (s.setDie n x).fwd = s.fwd := rfl
@[simp] theorem State.setDie_doms (x : Die) : (s.setDie n x).doms = s.doms := rfl
@[simp] theorem State.setDie_sealWait (x : Die) : (s.setDie n x).sealWait = s.sealWait := rfl
@[simp] theorem State.setDie_afterBi (x : Die) : (s.setDie n x).afterBi = s.afterBi := rfl
@[simp] theorem State.setDie_agenda (x : Die) : (s.setDie n x).agenda = s.agenda := rfl
@[simp] theorem State.setDie_cur (x : Die) : (s.setDie n x).cur = s.cur := rfl
@[simp] theorem State.setDie_turn (x : Die) : (s.setDie n x).turn = s.turn := rfl
@[simp] theorem State.setDie_nextTeam (x : Die) : (s.setDie n x).nextTeam = s.nextTeam := rfl
@[simp] theorem State.setDie_nextGrid (x : Die) : (s.setDie n x).nextGrid = s.nextGrid := rfl
@[simp] theorem State.setDie_nextTok (x : Die) : (s.setDie n x).nextTok = s.nextTok := rfl
@[simp] theorem State.setDie_nextCard (x : Die) : (s.setDie n x).nextCard = s.nextCard := rfl
@[simp] theorem State.setDie_nextBatch (x : Die) : (s.setDie n x).nextBatch = s.nextBatch := rfl
@[simp] theorem State.setDie_freeCtr (x : Die) : (s.setDie n x).freeCtr = s.freeCtr := rfl
@[simp] theorem State.setDie_core (x : Die) : (s.setDie n x).core m = s.core m := rfl
@[simp] theorem State.setDie_plane (x : Die) : (s.setDie n x).plane m = s.plane m := rfl
theorem State.setDie_die (x : Die) : (s.setDie n x).die m = if m = n then x else s.die m := tget_tput _ _ _ _ _
@[simp] theorem State.setDie_die_same (x : Die) : (s.setDie n x).die n = x := by simp [State.setDie_die]
@[simp] theorem State.setDie_func (x : Die) : (s.setDie n x).func m = s.func m := rfl
@[simp] theorem State.setDie_group (x : Die) : (s.setDie n x).group m = s.group m := rfl
@[simp] theorem State.setDie_team (x : Die) : (s.setDie n x).team? m = s.team? m := rfl
@[simp] theorem State.setDie_grid (x : Die) : (s.setDie n x).grid? m = s.grid? m := rfl

/-! ### setFunc -/

@[simp] theorem State.setFunc_cores (x : Func) : (s.setFunc n x).cores = s.cores := rfl
@[simp] theorem State.setFunc_planes (x : Func) : (s.setFunc n x).planes = s.planes := rfl
@[simp] theorem State.setFunc_teams (x : Func) : (s.setFunc n x).teams = s.teams := rfl
@[simp] theorem State.setFunc_groups (x : Func) : (s.setFunc n x).groups = s.groups := rfl
@[simp] theorem State.setFunc_grids (x : Func) : (s.setFunc n x).grids = s.grids := rfl
@[simp] theorem State.setFunc_dies (x : Func) : (s.setFunc n x).dies = s.dies := rfl
@[simp] theorem State.setFunc_parts (x : Func) : (s.setFunc n x).parts = s.parts := rfl
@[simp] theorem State.setFunc_saved (x : Func) : (s.setFunc n x).saved = s.saved := rfl
@[simp] theorem State.setFunc_mem (x : Func) : (s.setFunc n x).mem = s.mem := rfl
@[simp] theorem State.setFunc_memMarks (x : Func) : (s.setFunc n x).memMarks = s.memMarks := rfl
@[simp] theorem State.setFunc_l2Dirty (x : Func) : (s.setFunc n x).l2Dirty = s.l2Dirty := rfl
@[simp] theorem State.setFunc_hostMem (x : Func) : (s.setFunc n x).hostMem = s.hostMem := rfl
@[simp] theorem State.setFunc_hostMarks (x : Func) : (s.setFunc n x).hostMarks = s.hostMarks := rfl
@[simp] theorem State.setFunc_chip (x : Func) : (s.setFunc n x).chip = s.chip := rfl
@[simp] theorem State.setFunc_chipMarks (x : Func) : (s.setFunc n x).chipMarks = s.chipMarks := rfl
@[simp] theorem State.setFunc_clock (x : Func) : (s.setFunc n x).clock = s.clock := rfl
@[simp] theorem State.setFunc_epoch (x : Func) : (s.setFunc n x).epoch = s.epoch := rfl
@[simp] theorem State.setFunc_hostLines (x : Func) : (s.setFunc n x).hostLines = s.hostLines := rfl
@[simp] theorem State.setFunc_snoop (x : Func) : (s.setFunc n x).snoop = s.snoop := rfl
@[simp] theorem State.setFunc_biPend (x : Func) : (s.setFunc n x).biPend = s.biPend := rfl
@[simp] theorem State.setFunc_biGo (x : Func) : (s.setFunc n x).biGo = s.biGo := rfl
@[simp] theorem State.setFunc_hostWait (x : Func) : (s.setFunc n x).hostWait = s.hostWait := rfl
@[simp] theorem State.setFunc_vdnTable (x : Func) : (s.setFunc n x).vdnTable = s.vdnTable := rfl
@[simp] theorem State.setFunc_redirect (x : Func) : (s.setFunc n x).redirect = s.redirect := rfl
@[simp] theorem State.setFunc_ports (x : Func) : (s.setFunc n x).ports = s.ports := rfl
@[simp] theorem State.setFunc_portErr (x : Func) : (s.setFunc n x).portErr = s.portErr := rfl
@[simp] theorem State.setFunc_netOut (x : Func) : (s.setFunc n x).netOut = s.netOut := rfl
@[simp] theorem State.setFunc_netWait (x : Func) : (s.setFunc n x).netWait = s.netWait := rfl
@[simp] theorem State.setFunc_sw (x : Func) : (s.setFunc n x).sw = s.sw := rfl
@[simp] theorem State.setFunc_collHeld (x : Func) : (s.setFunc n x).collHeld = s.collHeld := rfl
@[simp] theorem State.setFunc_early (x : Func) : (s.setFunc n x).early = s.early := rfl
@[simp] theorem State.setFunc_notifyQ (x : Func) : (s.setFunc n x).notifyQ = s.notifyQ := rfl
@[simp] theorem State.setFunc_ringBase (x : Func) : (s.setFunc n x).ringBase = s.ringBase := rfl
@[simp] theorem State.setFunc_ringLen (x : Func) : (s.setFunc n x).ringLen = s.ringLen := rfl
@[simp] theorem State.setFunc_ringHead (x : Func) : (s.setFunc n x).ringHead = s.ringHead := rfl
@[simp] theorem State.setFunc_ringTail (x : Func) : (s.setFunc n x).ringTail = s.ringTail := rfl
@[simp] theorem State.setFunc_ringOverflow (x : Func) : (s.setFunc n x).ringOverflow = s.ringOverflow := rfl
@[simp] theorem State.setFunc_held (x : Func) : (s.setFunc n x).held = s.held := rfl
@[simp] theorem State.setFunc_breaks (x : Func) : (s.setFunc n x).breaks = s.breaks := rfl
@[simp] theorem State.setFunc_saving (x : Func) : (s.setFunc n x).saving = s.saving := rfl
@[simp] theorem State.setFunc_cmdSeq (x : Func) : (s.setFunc n x).cmdSeq = s.cmdSeq := rfl
@[simp] theorem State.setFunc_gangs (x : Func) : (s.setFunc n x).gangs = s.gangs := rfl
@[simp] theorem State.setFunc_recalls (x : Func) : (s.setFunc n x).recalls = s.recalls := rfl
@[simp] theorem State.setFunc_vfEnable (x : Func) : (s.setFunc n x).vfEnable = s.vfEnable := rfl
@[simp] theorem State.setFunc_numVFs (x : Func) : (s.setFunc n x).numVFs = s.numVFs := rfl
@[simp] theorem State.setFunc_isReady (x : Func) : (s.setFunc n x).isReady = s.isReady := rfl
@[simp] theorem State.setFunc_recovery (x : Func) : (s.setFunc n x).recovery = s.recovery := rfl
@[simp] theorem State.setFunc_minVer (x : Func) : (s.setFunc n x).minVer = s.minVer := rfl
@[simp] theorem State.setFunc_flashVer (x : Func) : (s.setFunc n x).flashVer = s.flashVer := rfl
@[simp] theorem State.setFunc_flashOk (x : Func) : (s.setFunc n x).flashOk = s.flashOk := rfl
@[simp] theorem State.setFunc_flashMeters (x : Func) : (s.setFunc n x).flashMeters = s.flashMeters := rfl
@[simp] theorem State.setFunc_pwrlim (x : Func) : (s.setFunc n x).pwrlim = s.pwrlim := rfl
@[simp] theorem State.setFunc_pwrnow (x : Func) : (s.setFunc n x).pwrnow = s.pwrnow := rfl
@[simp] theorem State.setFunc_caps (x : Func) : (s.setFunc n x).caps = s.caps := rfl
@[simp] theorem State.setFunc_plan (x : Func) : (s.setFunc n x).plan = s.plan := rfl
@[simp] theorem State.setFunc_lag (x : Func) : (s.setFunc n x).lag = s.lag := rfl
@[simp] theorem State.setFunc_agestat (x : Func) : (s.setFunc n x).agestat = s.agestat := rfl
@[simp] theorem State.setFunc_agehrs (x : Func) : (s.setFunc n x).agehrs = s.agehrs := rfl
@[simp] theorem State.setFunc_powerHist (x : Func) : (s.setFunc n x).powerHist = s.powerHist := rfl
@[simp] theorem State.setFunc_retireWait (x : Func) : (s.setFunc n x).retireWait = s.retireWait := rfl
@[simp] theorem State.setFunc_ksLast (x : Func) : (s.setFunc n x).ksLast = s.ksLast := rfl
@[simp] theorem State.setFunc_migs (x : Func) : (s.setFunc n x).migs = s.migs := rfl
@[simp] theorem State.setFunc_wins (x : Func) : (s.setFunc n x).wins = s.wins := rfl
@[simp] theorem State.setFunc_movedVdns (x : Func) : (s.setFunc n x).movedVdns = s.movedVdns := rfl
@[simp] theorem State.setFunc_fwd (x : Func) : (s.setFunc n x).fwd = s.fwd := rfl
@[simp] theorem State.setFunc_doms (x : Func) : (s.setFunc n x).doms = s.doms := rfl
@[simp] theorem State.setFunc_sealWait (x : Func) : (s.setFunc n x).sealWait = s.sealWait := rfl
@[simp] theorem State.setFunc_afterBi (x : Func) : (s.setFunc n x).afterBi = s.afterBi := rfl
@[simp] theorem State.setFunc_agenda (x : Func) : (s.setFunc n x).agenda = s.agenda := rfl
@[simp] theorem State.setFunc_cur (x : Func) : (s.setFunc n x).cur = s.cur := rfl
@[simp] theorem State.setFunc_turn (x : Func) : (s.setFunc n x).turn = s.turn := rfl
@[simp] theorem State.setFunc_nextTeam (x : Func) : (s.setFunc n x).nextTeam = s.nextTeam := rfl
@[simp] theorem State.setFunc_nextGrid (x : Func) : (s.setFunc n x).nextGrid = s.nextGrid := rfl
@[simp] theorem State.setFunc_nextTok (x : Func) : (s.setFunc n x).nextTok = s.nextTok := rfl
@[simp] theorem State.setFunc_nextCard (x : Func) : (s.setFunc n x).nextCard = s.nextCard := rfl
@[simp] theorem State.setFunc_nextBatch (x : Func) : (s.setFunc n x).nextBatch = s.nextBatch := rfl
@[simp] theorem State.setFunc_freeCtr (x : Func) : (s.setFunc n x).freeCtr = s.freeCtr := rfl
@[simp] theorem State.setFunc_core (x : Func) : (s.setFunc n x).core m = s.core m := rfl
@[simp] theorem State.setFunc_plane (x : Func) : (s.setFunc n x).plane m = s.plane m := rfl
@[simp] theorem State.setFunc_die (x : Func) : (s.setFunc n x).die m = s.die m := rfl
theorem State.setFunc_func (x : Func) : (s.setFunc n x).func m = if m = n then x else s.func m := tget_tput _ _ _ _ _
@[simp] theorem State.setFunc_func_same (x : Func) : (s.setFunc n x).func n = x := by simp [State.setFunc_func]
@[simp] theorem State.setFunc_group (x : Func) : (s.setFunc n x).group m = s.group m := rfl
@[simp] theorem State.setFunc_team (x : Func) : (s.setFunc n x).team? m = s.team? m := rfl
@[simp] theorem State.setFunc_grid (x : Func) : (s.setFunc n x).grid? m = s.grid? m := rfl

/-! ### setGroup -/

@[simp] theorem State.setGroup_cores (x : Group) : (s.setGroup n x).cores = s.cores := rfl
@[simp] theorem State.setGroup_planes (x : Group) : (s.setGroup n x).planes = s.planes := rfl
@[simp] theorem State.setGroup_teams (x : Group) : (s.setGroup n x).teams = s.teams := rfl
@[simp] theorem State.setGroup_grids (x : Group) : (s.setGroup n x).grids = s.grids := rfl
@[simp] theorem State.setGroup_dies (x : Group) : (s.setGroup n x).dies = s.dies := rfl
@[simp] theorem State.setGroup_funcs (x : Group) : (s.setGroup n x).funcs = s.funcs := rfl
@[simp] theorem State.setGroup_parts (x : Group) : (s.setGroup n x).parts = s.parts := rfl
@[simp] theorem State.setGroup_saved (x : Group) : (s.setGroup n x).saved = s.saved := rfl
@[simp] theorem State.setGroup_mem (x : Group) : (s.setGroup n x).mem = s.mem := rfl
@[simp] theorem State.setGroup_memMarks (x : Group) : (s.setGroup n x).memMarks = s.memMarks := rfl
@[simp] theorem State.setGroup_l2Dirty (x : Group) : (s.setGroup n x).l2Dirty = s.l2Dirty := rfl
@[simp] theorem State.setGroup_hostMem (x : Group) : (s.setGroup n x).hostMem = s.hostMem := rfl
@[simp] theorem State.setGroup_hostMarks (x : Group) : (s.setGroup n x).hostMarks = s.hostMarks := rfl
@[simp] theorem State.setGroup_chip (x : Group) : (s.setGroup n x).chip = s.chip := rfl
@[simp] theorem State.setGroup_chipMarks (x : Group) : (s.setGroup n x).chipMarks = s.chipMarks := rfl
@[simp] theorem State.setGroup_clock (x : Group) : (s.setGroup n x).clock = s.clock := rfl
@[simp] theorem State.setGroup_epoch (x : Group) : (s.setGroup n x).epoch = s.epoch := rfl
@[simp] theorem State.setGroup_hostLines (x : Group) : (s.setGroup n x).hostLines = s.hostLines := rfl
@[simp] theorem State.setGroup_snoop (x : Group) : (s.setGroup n x).snoop = s.snoop := rfl
@[simp] theorem State.setGroup_biPend (x : Group) : (s.setGroup n x).biPend = s.biPend := rfl
@[simp] theorem State.setGroup_biGo (x : Group) : (s.setGroup n x).biGo = s.biGo := rfl
@[simp] theorem State.setGroup_hostWait (x : Group) : (s.setGroup n x).hostWait = s.hostWait := rfl
@[simp] theorem State.setGroup_vdnTable (x : Group) : (s.setGroup n x).vdnTable = s.vdnTable := rfl
@[simp] theorem State.setGroup_redirect (x : Group) : (s.setGroup n x).redirect = s.redirect := rfl
@[simp] theorem State.setGroup_ports (x : Group) : (s.setGroup n x).ports = s.ports := rfl
@[simp] theorem State.setGroup_portErr (x : Group) : (s.setGroup n x).portErr = s.portErr := rfl
@[simp] theorem State.setGroup_netOut (x : Group) : (s.setGroup n x).netOut = s.netOut := rfl
@[simp] theorem State.setGroup_netWait (x : Group) : (s.setGroup n x).netWait = s.netWait := rfl
@[simp] theorem State.setGroup_sw (x : Group) : (s.setGroup n x).sw = s.sw := rfl
@[simp] theorem State.setGroup_collHeld (x : Group) : (s.setGroup n x).collHeld = s.collHeld := rfl
@[simp] theorem State.setGroup_early (x : Group) : (s.setGroup n x).early = s.early := rfl
@[simp] theorem State.setGroup_notifyQ (x : Group) : (s.setGroup n x).notifyQ = s.notifyQ := rfl
@[simp] theorem State.setGroup_ringBase (x : Group) : (s.setGroup n x).ringBase = s.ringBase := rfl
@[simp] theorem State.setGroup_ringLen (x : Group) : (s.setGroup n x).ringLen = s.ringLen := rfl
@[simp] theorem State.setGroup_ringHead (x : Group) : (s.setGroup n x).ringHead = s.ringHead := rfl
@[simp] theorem State.setGroup_ringTail (x : Group) : (s.setGroup n x).ringTail = s.ringTail := rfl
@[simp] theorem State.setGroup_ringOverflow (x : Group) : (s.setGroup n x).ringOverflow = s.ringOverflow := rfl
@[simp] theorem State.setGroup_held (x : Group) : (s.setGroup n x).held = s.held := rfl
@[simp] theorem State.setGroup_breaks (x : Group) : (s.setGroup n x).breaks = s.breaks := rfl
@[simp] theorem State.setGroup_saving (x : Group) : (s.setGroup n x).saving = s.saving := rfl
@[simp] theorem State.setGroup_cmdSeq (x : Group) : (s.setGroup n x).cmdSeq = s.cmdSeq := rfl
@[simp] theorem State.setGroup_gangs (x : Group) : (s.setGroup n x).gangs = s.gangs := rfl
@[simp] theorem State.setGroup_recalls (x : Group) : (s.setGroup n x).recalls = s.recalls := rfl
@[simp] theorem State.setGroup_vfEnable (x : Group) : (s.setGroup n x).vfEnable = s.vfEnable := rfl
@[simp] theorem State.setGroup_numVFs (x : Group) : (s.setGroup n x).numVFs = s.numVFs := rfl
@[simp] theorem State.setGroup_isReady (x : Group) : (s.setGroup n x).isReady = s.isReady := rfl
@[simp] theorem State.setGroup_recovery (x : Group) : (s.setGroup n x).recovery = s.recovery := rfl
@[simp] theorem State.setGroup_minVer (x : Group) : (s.setGroup n x).minVer = s.minVer := rfl
@[simp] theorem State.setGroup_flashVer (x : Group) : (s.setGroup n x).flashVer = s.flashVer := rfl
@[simp] theorem State.setGroup_flashOk (x : Group) : (s.setGroup n x).flashOk = s.flashOk := rfl
@[simp] theorem State.setGroup_flashMeters (x : Group) : (s.setGroup n x).flashMeters = s.flashMeters := rfl
@[simp] theorem State.setGroup_pwrlim (x : Group) : (s.setGroup n x).pwrlim = s.pwrlim := rfl
@[simp] theorem State.setGroup_pwrnow (x : Group) : (s.setGroup n x).pwrnow = s.pwrnow := rfl
@[simp] theorem State.setGroup_caps (x : Group) : (s.setGroup n x).caps = s.caps := rfl
@[simp] theorem State.setGroup_plan (x : Group) : (s.setGroup n x).plan = s.plan := rfl
@[simp] theorem State.setGroup_lag (x : Group) : (s.setGroup n x).lag = s.lag := rfl
@[simp] theorem State.setGroup_agestat (x : Group) : (s.setGroup n x).agestat = s.agestat := rfl
@[simp] theorem State.setGroup_agehrs (x : Group) : (s.setGroup n x).agehrs = s.agehrs := rfl
@[simp] theorem State.setGroup_powerHist (x : Group) : (s.setGroup n x).powerHist = s.powerHist := rfl
@[simp] theorem State.setGroup_retireWait (x : Group) : (s.setGroup n x).retireWait = s.retireWait := rfl
@[simp] theorem State.setGroup_ksLast (x : Group) : (s.setGroup n x).ksLast = s.ksLast := rfl
@[simp] theorem State.setGroup_migs (x : Group) : (s.setGroup n x).migs = s.migs := rfl
@[simp] theorem State.setGroup_wins (x : Group) : (s.setGroup n x).wins = s.wins := rfl
@[simp] theorem State.setGroup_movedVdns (x : Group) : (s.setGroup n x).movedVdns = s.movedVdns := rfl
@[simp] theorem State.setGroup_fwd (x : Group) : (s.setGroup n x).fwd = s.fwd := rfl
@[simp] theorem State.setGroup_doms (x : Group) : (s.setGroup n x).doms = s.doms := rfl
@[simp] theorem State.setGroup_sealWait (x : Group) : (s.setGroup n x).sealWait = s.sealWait := rfl
@[simp] theorem State.setGroup_afterBi (x : Group) : (s.setGroup n x).afterBi = s.afterBi := rfl
@[simp] theorem State.setGroup_agenda (x : Group) : (s.setGroup n x).agenda = s.agenda := rfl
@[simp] theorem State.setGroup_cur (x : Group) : (s.setGroup n x).cur = s.cur := rfl
@[simp] theorem State.setGroup_turn (x : Group) : (s.setGroup n x).turn = s.turn := rfl
@[simp] theorem State.setGroup_nextTeam (x : Group) : (s.setGroup n x).nextTeam = s.nextTeam := rfl
@[simp] theorem State.setGroup_nextGrid (x : Group) : (s.setGroup n x).nextGrid = s.nextGrid := rfl
@[simp] theorem State.setGroup_nextTok (x : Group) : (s.setGroup n x).nextTok = s.nextTok := rfl
@[simp] theorem State.setGroup_nextCard (x : Group) : (s.setGroup n x).nextCard = s.nextCard := rfl
@[simp] theorem State.setGroup_nextBatch (x : Group) : (s.setGroup n x).nextBatch = s.nextBatch := rfl
@[simp] theorem State.setGroup_freeCtr (x : Group) : (s.setGroup n x).freeCtr = s.freeCtr := rfl
@[simp] theorem State.setGroup_core (x : Group) : (s.setGroup n x).core m = s.core m := rfl
@[simp] theorem State.setGroup_plane (x : Group) : (s.setGroup n x).plane m = s.plane m := rfl
@[simp] theorem State.setGroup_die (x : Group) : (s.setGroup n x).die m = s.die m := rfl
@[simp] theorem State.setGroup_func (x : Group) : (s.setGroup n x).func m = s.func m := rfl
theorem State.setGroup_group (x : Group) : (s.setGroup n x).group m = if m = n then x else s.group m := tget_tput _ _ _ _ _
@[simp] theorem State.setGroup_group_same (x : Group) : (s.setGroup n x).group n = x := by simp [State.setGroup_group]
@[simp] theorem State.setGroup_team (x : Group) : (s.setGroup n x).team? m = s.team? m := rfl
@[simp] theorem State.setGroup_grid (x : Group) : (s.setGroup n x).grid? m = s.grid? m := rfl

/-! ### setTeam -/

@[simp] theorem State.setTeam_cores (x : Team) : (s.setTeam n x).cores = s.cores := rfl
@[simp] theorem State.setTeam_planes (x : Team) : (s.setTeam n x).planes = s.planes := rfl
@[simp] theorem State.setTeam_groups (x : Team) : (s.setTeam n x).groups = s.groups := rfl
@[simp] theorem State.setTeam_grids (x : Team) : (s.setTeam n x).grids = s.grids := rfl
@[simp] theorem State.setTeam_dies (x : Team) : (s.setTeam n x).dies = s.dies := rfl
@[simp] theorem State.setTeam_funcs (x : Team) : (s.setTeam n x).funcs = s.funcs := rfl
@[simp] theorem State.setTeam_parts (x : Team) : (s.setTeam n x).parts = s.parts := rfl
@[simp] theorem State.setTeam_saved (x : Team) : (s.setTeam n x).saved = s.saved := rfl
@[simp] theorem State.setTeam_mem (x : Team) : (s.setTeam n x).mem = s.mem := rfl
@[simp] theorem State.setTeam_memMarks (x : Team) : (s.setTeam n x).memMarks = s.memMarks := rfl
@[simp] theorem State.setTeam_l2Dirty (x : Team) : (s.setTeam n x).l2Dirty = s.l2Dirty := rfl
@[simp] theorem State.setTeam_hostMem (x : Team) : (s.setTeam n x).hostMem = s.hostMem := rfl
@[simp] theorem State.setTeam_hostMarks (x : Team) : (s.setTeam n x).hostMarks = s.hostMarks := rfl
@[simp] theorem State.setTeam_chip (x : Team) : (s.setTeam n x).chip = s.chip := rfl
@[simp] theorem State.setTeam_chipMarks (x : Team) : (s.setTeam n x).chipMarks = s.chipMarks := rfl
@[simp] theorem State.setTeam_clock (x : Team) : (s.setTeam n x).clock = s.clock := rfl
@[simp] theorem State.setTeam_epoch (x : Team) : (s.setTeam n x).epoch = s.epoch := rfl
@[simp] theorem State.setTeam_hostLines (x : Team) : (s.setTeam n x).hostLines = s.hostLines := rfl
@[simp] theorem State.setTeam_snoop (x : Team) : (s.setTeam n x).snoop = s.snoop := rfl
@[simp] theorem State.setTeam_biPend (x : Team) : (s.setTeam n x).biPend = s.biPend := rfl
@[simp] theorem State.setTeam_biGo (x : Team) : (s.setTeam n x).biGo = s.biGo := rfl
@[simp] theorem State.setTeam_hostWait (x : Team) : (s.setTeam n x).hostWait = s.hostWait := rfl
@[simp] theorem State.setTeam_vdnTable (x : Team) : (s.setTeam n x).vdnTable = s.vdnTable := rfl
@[simp] theorem State.setTeam_redirect (x : Team) : (s.setTeam n x).redirect = s.redirect := rfl
@[simp] theorem State.setTeam_ports (x : Team) : (s.setTeam n x).ports = s.ports := rfl
@[simp] theorem State.setTeam_portErr (x : Team) : (s.setTeam n x).portErr = s.portErr := rfl
@[simp] theorem State.setTeam_netOut (x : Team) : (s.setTeam n x).netOut = s.netOut := rfl
@[simp] theorem State.setTeam_netWait (x : Team) : (s.setTeam n x).netWait = s.netWait := rfl
@[simp] theorem State.setTeam_sw (x : Team) : (s.setTeam n x).sw = s.sw := rfl
@[simp] theorem State.setTeam_collHeld (x : Team) : (s.setTeam n x).collHeld = s.collHeld := rfl
@[simp] theorem State.setTeam_early (x : Team) : (s.setTeam n x).early = s.early := rfl
@[simp] theorem State.setTeam_notifyQ (x : Team) : (s.setTeam n x).notifyQ = s.notifyQ := rfl
@[simp] theorem State.setTeam_ringBase (x : Team) : (s.setTeam n x).ringBase = s.ringBase := rfl
@[simp] theorem State.setTeam_ringLen (x : Team) : (s.setTeam n x).ringLen = s.ringLen := rfl
@[simp] theorem State.setTeam_ringHead (x : Team) : (s.setTeam n x).ringHead = s.ringHead := rfl
@[simp] theorem State.setTeam_ringTail (x : Team) : (s.setTeam n x).ringTail = s.ringTail := rfl
@[simp] theorem State.setTeam_ringOverflow (x : Team) : (s.setTeam n x).ringOverflow = s.ringOverflow := rfl
@[simp] theorem State.setTeam_held (x : Team) : (s.setTeam n x).held = s.held := rfl
@[simp] theorem State.setTeam_breaks (x : Team) : (s.setTeam n x).breaks = s.breaks := rfl
@[simp] theorem State.setTeam_saving (x : Team) : (s.setTeam n x).saving = s.saving := rfl
@[simp] theorem State.setTeam_cmdSeq (x : Team) : (s.setTeam n x).cmdSeq = s.cmdSeq := rfl
@[simp] theorem State.setTeam_gangs (x : Team) : (s.setTeam n x).gangs = s.gangs := rfl
@[simp] theorem State.setTeam_recalls (x : Team) : (s.setTeam n x).recalls = s.recalls := rfl
@[simp] theorem State.setTeam_vfEnable (x : Team) : (s.setTeam n x).vfEnable = s.vfEnable := rfl
@[simp] theorem State.setTeam_numVFs (x : Team) : (s.setTeam n x).numVFs = s.numVFs := rfl
@[simp] theorem State.setTeam_isReady (x : Team) : (s.setTeam n x).isReady = s.isReady := rfl
@[simp] theorem State.setTeam_recovery (x : Team) : (s.setTeam n x).recovery = s.recovery := rfl
@[simp] theorem State.setTeam_minVer (x : Team) : (s.setTeam n x).minVer = s.minVer := rfl
@[simp] theorem State.setTeam_flashVer (x : Team) : (s.setTeam n x).flashVer = s.flashVer := rfl
@[simp] theorem State.setTeam_flashOk (x : Team) : (s.setTeam n x).flashOk = s.flashOk := rfl
@[simp] theorem State.setTeam_flashMeters (x : Team) : (s.setTeam n x).flashMeters = s.flashMeters := rfl
@[simp] theorem State.setTeam_pwrlim (x : Team) : (s.setTeam n x).pwrlim = s.pwrlim := rfl
@[simp] theorem State.setTeam_pwrnow (x : Team) : (s.setTeam n x).pwrnow = s.pwrnow := rfl
@[simp] theorem State.setTeam_caps (x : Team) : (s.setTeam n x).caps = s.caps := rfl
@[simp] theorem State.setTeam_plan (x : Team) : (s.setTeam n x).plan = s.plan := rfl
@[simp] theorem State.setTeam_lag (x : Team) : (s.setTeam n x).lag = s.lag := rfl
@[simp] theorem State.setTeam_agestat (x : Team) : (s.setTeam n x).agestat = s.agestat := rfl
@[simp] theorem State.setTeam_agehrs (x : Team) : (s.setTeam n x).agehrs = s.agehrs := rfl
@[simp] theorem State.setTeam_powerHist (x : Team) : (s.setTeam n x).powerHist = s.powerHist := rfl
@[simp] theorem State.setTeam_retireWait (x : Team) : (s.setTeam n x).retireWait = s.retireWait := rfl
@[simp] theorem State.setTeam_ksLast (x : Team) : (s.setTeam n x).ksLast = s.ksLast := rfl
@[simp] theorem State.setTeam_migs (x : Team) : (s.setTeam n x).migs = s.migs := rfl
@[simp] theorem State.setTeam_wins (x : Team) : (s.setTeam n x).wins = s.wins := rfl
@[simp] theorem State.setTeam_movedVdns (x : Team) : (s.setTeam n x).movedVdns = s.movedVdns := rfl
@[simp] theorem State.setTeam_fwd (x : Team) : (s.setTeam n x).fwd = s.fwd := rfl
@[simp] theorem State.setTeam_doms (x : Team) : (s.setTeam n x).doms = s.doms := rfl
@[simp] theorem State.setTeam_sealWait (x : Team) : (s.setTeam n x).sealWait = s.sealWait := rfl
@[simp] theorem State.setTeam_afterBi (x : Team) : (s.setTeam n x).afterBi = s.afterBi := rfl
@[simp] theorem State.setTeam_agenda (x : Team) : (s.setTeam n x).agenda = s.agenda := rfl
@[simp] theorem State.setTeam_cur (x : Team) : (s.setTeam n x).cur = s.cur := rfl
@[simp] theorem State.setTeam_turn (x : Team) : (s.setTeam n x).turn = s.turn := rfl
@[simp] theorem State.setTeam_nextTeam (x : Team) : (s.setTeam n x).nextTeam = s.nextTeam := rfl
@[simp] theorem State.setTeam_nextGrid (x : Team) : (s.setTeam n x).nextGrid = s.nextGrid := rfl
@[simp] theorem State.setTeam_nextTok (x : Team) : (s.setTeam n x).nextTok = s.nextTok := rfl
@[simp] theorem State.setTeam_nextCard (x : Team) : (s.setTeam n x).nextCard = s.nextCard := rfl
@[simp] theorem State.setTeam_nextBatch (x : Team) : (s.setTeam n x).nextBatch = s.nextBatch := rfl
@[simp] theorem State.setTeam_freeCtr (x : Team) : (s.setTeam n x).freeCtr = s.freeCtr := rfl
@[simp] theorem State.setTeam_core (x : Team) : (s.setTeam n x).core m = s.core m := rfl
@[simp] theorem State.setTeam_plane (x : Team) : (s.setTeam n x).plane m = s.plane m := rfl
@[simp] theorem State.setTeam_die (x : Team) : (s.setTeam n x).die m = s.die m := rfl
@[simp] theorem State.setTeam_func (x : Team) : (s.setTeam n x).func m = s.func m := rfl
@[simp] theorem State.setTeam_group (x : Team) : (s.setTeam n x).group m = s.group m := rfl
theorem State.setTeam_team (x : Team) : (s.setTeam n x).team? m = if m = n then some x else s.team? m := tfind_tset _ _ _ _
@[simp] theorem State.setTeam_team_same (x : Team) : (s.setTeam n x).team? n = some x := by simp [State.setTeam_team]
@[simp] theorem State.setTeam_grid (x : Team) : (s.setTeam n x).grid? m = s.grid? m := rfl

/-! ### setGrid -/

@[simp] theorem State.setGrid_cores (x : Grid) : (s.setGrid n x).cores = s.cores := rfl
@[simp] theorem State.setGrid_planes (x : Grid) : (s.setGrid n x).planes = s.planes := rfl
@[simp] theorem State.setGrid_teams (x : Grid) : (s.setGrid n x).teams = s.teams := rfl
@[simp] theorem State.setGrid_groups (x : Grid) : (s.setGrid n x).groups = s.groups := rfl
@[simp] theorem State.setGrid_dies (x : Grid) : (s.setGrid n x).dies = s.dies := rfl
@[simp] theorem State.setGrid_funcs (x : Grid) : (s.setGrid n x).funcs = s.funcs := rfl
@[simp] theorem State.setGrid_parts (x : Grid) : (s.setGrid n x).parts = s.parts := rfl
@[simp] theorem State.setGrid_saved (x : Grid) : (s.setGrid n x).saved = s.saved := rfl
@[simp] theorem State.setGrid_mem (x : Grid) : (s.setGrid n x).mem = s.mem := rfl
@[simp] theorem State.setGrid_memMarks (x : Grid) : (s.setGrid n x).memMarks = s.memMarks := rfl
@[simp] theorem State.setGrid_l2Dirty (x : Grid) : (s.setGrid n x).l2Dirty = s.l2Dirty := rfl
@[simp] theorem State.setGrid_hostMem (x : Grid) : (s.setGrid n x).hostMem = s.hostMem := rfl
@[simp] theorem State.setGrid_hostMarks (x : Grid) : (s.setGrid n x).hostMarks = s.hostMarks := rfl
@[simp] theorem State.setGrid_chip (x : Grid) : (s.setGrid n x).chip = s.chip := rfl
@[simp] theorem State.setGrid_chipMarks (x : Grid) : (s.setGrid n x).chipMarks = s.chipMarks := rfl
@[simp] theorem State.setGrid_clock (x : Grid) : (s.setGrid n x).clock = s.clock := rfl
@[simp] theorem State.setGrid_epoch (x : Grid) : (s.setGrid n x).epoch = s.epoch := rfl
@[simp] theorem State.setGrid_hostLines (x : Grid) : (s.setGrid n x).hostLines = s.hostLines := rfl
@[simp] theorem State.setGrid_snoop (x : Grid) : (s.setGrid n x).snoop = s.snoop := rfl
@[simp] theorem State.setGrid_biPend (x : Grid) : (s.setGrid n x).biPend = s.biPend := rfl
@[simp] theorem State.setGrid_biGo (x : Grid) : (s.setGrid n x).biGo = s.biGo := rfl
@[simp] theorem State.setGrid_hostWait (x : Grid) : (s.setGrid n x).hostWait = s.hostWait := rfl
@[simp] theorem State.setGrid_vdnTable (x : Grid) : (s.setGrid n x).vdnTable = s.vdnTable := rfl
@[simp] theorem State.setGrid_redirect (x : Grid) : (s.setGrid n x).redirect = s.redirect := rfl
@[simp] theorem State.setGrid_ports (x : Grid) : (s.setGrid n x).ports = s.ports := rfl
@[simp] theorem State.setGrid_portErr (x : Grid) : (s.setGrid n x).portErr = s.portErr := rfl
@[simp] theorem State.setGrid_netOut (x : Grid) : (s.setGrid n x).netOut = s.netOut := rfl
@[simp] theorem State.setGrid_netWait (x : Grid) : (s.setGrid n x).netWait = s.netWait := rfl
@[simp] theorem State.setGrid_sw (x : Grid) : (s.setGrid n x).sw = s.sw := rfl
@[simp] theorem State.setGrid_collHeld (x : Grid) : (s.setGrid n x).collHeld = s.collHeld := rfl
@[simp] theorem State.setGrid_early (x : Grid) : (s.setGrid n x).early = s.early := rfl
@[simp] theorem State.setGrid_notifyQ (x : Grid) : (s.setGrid n x).notifyQ = s.notifyQ := rfl
@[simp] theorem State.setGrid_ringBase (x : Grid) : (s.setGrid n x).ringBase = s.ringBase := rfl
@[simp] theorem State.setGrid_ringLen (x : Grid) : (s.setGrid n x).ringLen = s.ringLen := rfl
@[simp] theorem State.setGrid_ringHead (x : Grid) : (s.setGrid n x).ringHead = s.ringHead := rfl
@[simp] theorem State.setGrid_ringTail (x : Grid) : (s.setGrid n x).ringTail = s.ringTail := rfl
@[simp] theorem State.setGrid_ringOverflow (x : Grid) : (s.setGrid n x).ringOverflow = s.ringOverflow := rfl
@[simp] theorem State.setGrid_held (x : Grid) : (s.setGrid n x).held = s.held := rfl
@[simp] theorem State.setGrid_breaks (x : Grid) : (s.setGrid n x).breaks = s.breaks := rfl
@[simp] theorem State.setGrid_saving (x : Grid) : (s.setGrid n x).saving = s.saving := rfl
@[simp] theorem State.setGrid_cmdSeq (x : Grid) : (s.setGrid n x).cmdSeq = s.cmdSeq := rfl
@[simp] theorem State.setGrid_gangs (x : Grid) : (s.setGrid n x).gangs = s.gangs := rfl
@[simp] theorem State.setGrid_recalls (x : Grid) : (s.setGrid n x).recalls = s.recalls := rfl
@[simp] theorem State.setGrid_vfEnable (x : Grid) : (s.setGrid n x).vfEnable = s.vfEnable := rfl
@[simp] theorem State.setGrid_numVFs (x : Grid) : (s.setGrid n x).numVFs = s.numVFs := rfl
@[simp] theorem State.setGrid_isReady (x : Grid) : (s.setGrid n x).isReady = s.isReady := rfl
@[simp] theorem State.setGrid_recovery (x : Grid) : (s.setGrid n x).recovery = s.recovery := rfl
@[simp] theorem State.setGrid_minVer (x : Grid) : (s.setGrid n x).minVer = s.minVer := rfl
@[simp] theorem State.setGrid_flashVer (x : Grid) : (s.setGrid n x).flashVer = s.flashVer := rfl
@[simp] theorem State.setGrid_flashOk (x : Grid) : (s.setGrid n x).flashOk = s.flashOk := rfl
@[simp] theorem State.setGrid_flashMeters (x : Grid) : (s.setGrid n x).flashMeters = s.flashMeters := rfl
@[simp] theorem State.setGrid_pwrlim (x : Grid) : (s.setGrid n x).pwrlim = s.pwrlim := rfl
@[simp] theorem State.setGrid_pwrnow (x : Grid) : (s.setGrid n x).pwrnow = s.pwrnow := rfl
@[simp] theorem State.setGrid_caps (x : Grid) : (s.setGrid n x).caps = s.caps := rfl
@[simp] theorem State.setGrid_plan (x : Grid) : (s.setGrid n x).plan = s.plan := rfl
@[simp] theorem State.setGrid_lag (x : Grid) : (s.setGrid n x).lag = s.lag := rfl
@[simp] theorem State.setGrid_agestat (x : Grid) : (s.setGrid n x).agestat = s.agestat := rfl
@[simp] theorem State.setGrid_agehrs (x : Grid) : (s.setGrid n x).agehrs = s.agehrs := rfl
@[simp] theorem State.setGrid_powerHist (x : Grid) : (s.setGrid n x).powerHist = s.powerHist := rfl
@[simp] theorem State.setGrid_retireWait (x : Grid) : (s.setGrid n x).retireWait = s.retireWait := rfl
@[simp] theorem State.setGrid_ksLast (x : Grid) : (s.setGrid n x).ksLast = s.ksLast := rfl
@[simp] theorem State.setGrid_migs (x : Grid) : (s.setGrid n x).migs = s.migs := rfl
@[simp] theorem State.setGrid_wins (x : Grid) : (s.setGrid n x).wins = s.wins := rfl
@[simp] theorem State.setGrid_movedVdns (x : Grid) : (s.setGrid n x).movedVdns = s.movedVdns := rfl
@[simp] theorem State.setGrid_fwd (x : Grid) : (s.setGrid n x).fwd = s.fwd := rfl
@[simp] theorem State.setGrid_doms (x : Grid) : (s.setGrid n x).doms = s.doms := rfl
@[simp] theorem State.setGrid_sealWait (x : Grid) : (s.setGrid n x).sealWait = s.sealWait := rfl
@[simp] theorem State.setGrid_afterBi (x : Grid) : (s.setGrid n x).afterBi = s.afterBi := rfl
@[simp] theorem State.setGrid_agenda (x : Grid) : (s.setGrid n x).agenda = s.agenda := rfl
@[simp] theorem State.setGrid_cur (x : Grid) : (s.setGrid n x).cur = s.cur := rfl
@[simp] theorem State.setGrid_turn (x : Grid) : (s.setGrid n x).turn = s.turn := rfl
@[simp] theorem State.setGrid_nextTeam (x : Grid) : (s.setGrid n x).nextTeam = s.nextTeam := rfl
@[simp] theorem State.setGrid_nextGrid (x : Grid) : (s.setGrid n x).nextGrid = s.nextGrid := rfl
@[simp] theorem State.setGrid_nextTok (x : Grid) : (s.setGrid n x).nextTok = s.nextTok := rfl
@[simp] theorem State.setGrid_nextCard (x : Grid) : (s.setGrid n x).nextCard = s.nextCard := rfl
@[simp] theorem State.setGrid_nextBatch (x : Grid) : (s.setGrid n x).nextBatch = s.nextBatch := rfl
@[simp] theorem State.setGrid_freeCtr (x : Grid) : (s.setGrid n x).freeCtr = s.freeCtr := rfl
@[simp] theorem State.setGrid_core (x : Grid) : (s.setGrid n x).core m = s.core m := rfl
@[simp] theorem State.setGrid_plane (x : Grid) : (s.setGrid n x).plane m = s.plane m := rfl
@[simp] theorem State.setGrid_die (x : Grid) : (s.setGrid n x).die m = s.die m := rfl
@[simp] theorem State.setGrid_func (x : Grid) : (s.setGrid n x).func m = s.func m := rfl
@[simp] theorem State.setGrid_group (x : Grid) : (s.setGrid n x).group m = s.group m := rfl
@[simp] theorem State.setGrid_team (x : Grid) : (s.setGrid n x).team? m = s.team? m := rfl
theorem State.setGrid_grid (x : Grid) : (s.setGrid n x).grid? m = if m = n then some x else s.grid? m := tfind_tset _ _ _ _
@[simp] theorem State.setGrid_grid_same (x : Grid) : (s.setGrid n x).grid? n = some x := by simp [State.setGrid_grid]

end Sys2Proof.Machine
end

