-- ==== Sys2Proof/Laws/Ops.lean ====
section
/-!
SUPPORT. What one issue does: the common checks of 01 R24 passed, `issue` is the instruction's own body.
-/
namespace Sys2Proof.Machine

theorem issuesB_iff (s : State) (f : Info) (ops ex : List Opnd) (c : Ctx) (h : issuesB s f ops ex c = true) :
    Issues s f ops ex c := by
  simp only [issuesB, Bool.and_eq_true, decide_eq_true_eq, List.all_eq_true, Bool.or_eq_true, Bool.not_eq_true',
    decide_eq_false_iff_not] at h
  obtain ⟨⟨⟨⟨⟨⟨⟨⟨⟨⟨⟨h1, h2⟩, h3⟩, h4⟩, h5⟩, h6⟩, h7⟩, h12⟩, h8⟩, h9⟩, h10⟩, h11⟩ := h
  refine ⟨h1, h2, h3, h4, h5, h6, h7, h12, List.all_eq_true.2 h8, ?_, ?_, h11⟩
  · intro hc
    rcases h9 with h | h
    · exact absurd hc h
    · exact h
  · intro l hl hc
    rcases h10 l hl with h | h
    · simp [h] at hc
    · exact h

/-- The outcome of `issue` when the common checks pass outside run-ahead. -/
def resOut (c : Ctx) (f : Info) : Res → Host.Outcome State Fault Refusal
  | .ok e => .next (State.commit c f e)
  | .trap cause a => .next (c.raise c.cohort cause a)
  | .trapAct cause =>
    if c.g.unsettled c.act then .next { c.s with cur := none } else
      let s' := c.s.deliver c.gk c.act cause 0
      .next (State.commit { c with s := s', g := s'.group c.gk, cohort := c.cohort &&& ~~~c.act, act := 0 } f { s := s', also := c.act })
  | .hold s' => .next { s' with cur := none }
  | .viol code a =>
    if c.g.unsettled c.cohort then .next { c.s with cur := none } else .next { c.s.freeze c.t.func code a c.pc.toNat (whereOf c.core c.gid) with cur := none }
  | .xl acc bad _ =>
    if bad.any (fun b => decide (2 ≤ xRank b.2.2)) && !(bad.any (fun b => decide (xRank b.2.2 < 2))) &&
        (match bad.foldl (fun (m : Nat) (b : Nat × Nat × XRes) => min m (xRank b.2.2)) 9 with | 2 => true | 4 => true | _ => false) then
      .next (({ c with s := c.s.dropWfail c.core c.t.func (bad.map (fun b => b.2.1)) } : Ctx).startRunAhead acc bad).1
    else c.xlStop bad

theorem issue_of_issues {s : State} {f : Info} {o : Opts} {body : Ctx → Res} {c : Ctx} {r : List Opnd}
    (h : Issues s f (f.opnds ++ r) o.noStall c) (hr : o.runs c = some r) (hi : o.ill c = false) : issue f o body s = resOut c { f with opnds := f.opnds ++ r } (body c) := by
  obtain ⟨cs, gk, g, t, cohort, act, pos⟩ := c
  obtain ⟨hcur, hs, ht, hg, hact, hrdy, hra, hbe, hcnt, hmode, hfr, hmk⟩ := h
  simp only at hcur hs ht hg hact hrdy hra hbe hcnt hmode hfr hmk
  subst hs
  subst hg
  subst hact
  have h1 : ((lanesOf cohort).any fun l => ((cs.group gk).lane l).chk &&
      (readCodes f.h (o.noStall.foldl List.erase (f.opnds ++ r))).any fun r => (cs.group gk).stale f.h l r) = false := by
    rw [List.any_eq_false]
    intro l hl
    simp only [Bool.and_eq_true, not_and, List.any_eq_true, not_exists, Bool.not_eq_true]
    intro hc x hx
    simpa using hfr l hl hc x hx
  have h2 : (if o.noEcc then (none : Option DWord) else
      (Ctx.lanes ⟨cs, gk, cs.group gk, t, cohort, maskOf ((lanesOf cohort).filter fun l => (cs.group gk).guard l f.h), pos⟩).findSome?
        fun l => (readCodes f.h (o.noStall.foldl List.erase (f.opnds ++ r))).findSome? fun r =>
          (cs.group gk).markOf (cs.cycle t.core) l r) = none := by
    split
    · rfl
    · simp only [List.findSome?_eq_none_iff]
      exact fun l hl x hx => hmk l hl x hx
  have h3 : (decide (f.cls = .sys) && !Ctx.sup ⟨cs, gk, cs.group gk, t, cohort,
      maskOf ((lanesOf cohort).filter fun l => (cs.group gk).guard l f.h), pos⟩) = false := by
    by_cases hc : f.cls = .sys
    · simp [hc, hmode hc]
    · simp [hc]
  replace hrdy : (cs.group gk).ready (cs.cycle t.core) f.h pos = true := hrdy
  unfold issue
  simp only [hcur, ht, hrdy, hr, hcnt, hi, h1, h2, h3, hbe, hra, Bool.not_true, Bool.false_eq_true, if_false, Bool.or_false,
    Option.isSome_none, Bool.false_and]
  cases body ⟨cs, gk, cs.group gk, t, cohort, maskOf ((lanesOf cohort).filter fun l => (cs.group gk).guard l f.h), pos⟩ <;>
    first | rfl | (simp [resOut]; done) | (simp [resOut] <;> rfl)

theorem issueI_of_ready {i : Instr} {s : State} {f : Info} {o : Opts} {body : Info → Ctx → Res} {c : Ctx} {r : List Opnd}
    (hf : i.info = some f) (h : Issues s f (f.opnds ++ r) o.noStall c) (hr : o.runs c = some r) (hi : o.ill c = false) :
    issueI i o body s = resOut c { f with opnds := f.opnds ++ r } (body f c) := by
  simp only [issueI, hf]
  exact issue_of_issues h hr hi

/-- An instruction whose operands are all in its word, and that has no check of its own before its body. -/
theorem issueI_plain {i : Instr} {s : State} {f : Info} {o : Opts} {body : Info → Ctx → Res} {c : Ctx}
    (hc : Ready i s f c) (hn : o.noStall = []) (hr : o.runs c = some []) (hi : o.ill c = false) :
    issueI i o body s = resOut c f (body f c) := by
  have h := issueI_of_ready (body := body) hc.1 (r := []) (by simpa [hn] using hc.2) hr hi
  simpa using h

/-- An instruction of fixed latency that computes register results from registers. -/
theorem alu_gives {i : Instr} {s : State} {c : Ctx} {w : Ctx → Nat → List Wr} {f : Info} (hc : Ready i s f c) :
    alu i w s = .next (c.wrote f (w c)) := by
  have h := issueI_plain (i := i) (o := {}) (body := fun (inf : Info) c =>
    Res.ok { s := c.s, wr := c.lanes.flatMap (w c), mode := .fixed inf.lat }) hc rfl rfl rfl
  simpa [issueI, alu, hc.1, resOut, Ctx.wrote] using h

theorem crcBytes_cons (c : Nat) (b : Byte) (bs : List Byte) : crcBytes c (b :: bs) = crcBytes (crcByte c b) bs := by
  have h (n : Nat) : (match n with | 0 => crcBytes 0 bs | k + 1 => crcBytes (k + 1) bs) = crcBytes n bs := by cases n <;> rfl
  exact h (crcByte c b)

/-- The CRC of a record is the fold over its bytes (21 R370). -/
theorem crcBytes_eq_foldl (c : Nat) (bs : List Byte) : crcBytes c bs = bs.foldl crcByte c := by
  induction bs generalizing c with
  | nil => rfl
  | cons b bs ih => rw [crcBytes_cons, ih, List.foldl_cons]

end Sys2Proof.Machine
end

