-- ==== Sys2Proof/Laws/PerInstr.lean ====
section
/-!
SUPPORT. Decoding and encoding agree, one lemma an instruction: `RoundTrip.Statement i` says that the fields which the encoder
gives a well-formed instruction `i` are decoded as `i`. A step of another agent has no word.
-/
namespace Sys2Proof.Laws

namespace RoundTrip

/-- A well-formed instruction's fields are decoded as that instruction. -/
def Statement (i : Instr) : Prop := ∀ r, i.wfErr = none → i.raw = some r → decodeRaw r = .ok i

theorem mov (h : Hdr) (wide : Bool) (d : RegCode) (a : Src) : Statement (.mov h wide d a) := by
  intro r hw hr
  cases hr
  cases wide <;> cases a <;> simp [decodeRaw, decode0, need, guardE, Raw.srcA, Raw.hdr, Raw.mk', Raw.sA]

theorem movs (h : Hdr) (d : RegCode) (code : BitVec 12) : Statement (.movs h d code) := by
  intro r hw hr
  cases hr
  simp [decodeRaw, decode0, guardE, fn0, Raw.form3, Raw.hdr, Raw.mk'] <;> omega

theorem movsw (h : Hdr) (d : RegCode) (code : BitVec 12) : Statement (.movsw h d code) := by
  intro r hw hr
  cases hr
  simp [decodeRaw, decode0, guardE, fn0, Raw.form3, Raw.hdr, Raw.mk'] <;> omega

theorem iadd (h : Hdr) (m : SatMode) (d : RegCode) (a : RegCode) (b : Src) : Statement (.iadd h m d a b) := by
  intro r hw hr
  cases hr
  cases b <;> simp [decodeRaw, decode0, need, guardE, Raw.src, Raw.hdr, Raw.mk', Raw.s3]

theorem isub (h : Hdr) (m : SatMode) (d : RegCode) (a : RegCode) (b : Src) : Statement (.isub h m d a b) := by
  intro r hw hr
  cases hr
  cases b <;> simp [decodeRaw, decode0, need, guardE, Raw.src, Raw.hdr, Raw.mk', Raw.s3]

theorem iaddx (h : Hdr) (m : CarryMode) (d : RegCode) (a : RegCode) (b : RegCode) (pout : BitVec 3) : Statement (.iaddx h m d a b pout) := by
  intro r hw hr
  cases hr
  simp [decodeRaw, decode0, need, guardE, Raw.form0i, Raw.hdr, Raw.mk'] <;> omega

theorem imul (h : Hdr) (d : RegCode) (a : RegCode) (b : Src) : Statement (.imul h d a b) := by
  intro r hw hr
  cases hr
  cases b <;> simp [decodeRaw, decode0, guardE, fn0, Raw.src, Raw.hdr, Raw.mk', Raw.s3]

theorem imulh (h : Hdr) (m : HiMode) (d : RegCode) (a : RegCode) (b : Src) : Statement (.imulh h m d a b) := by
  intro r hw hr
  cases hr
  cases b <;> simp [decodeRaw, decode0, need, guardE, Raw.src, Raw.hdr, Raw.mk', Raw.s3]

theorem imad (h : Hdr) (d : RegCode) (a : RegCode) (b : Src) (c : RegCode) : Statement (.imad h d a b c) := by
  intro r hw hr
  cases hr
  cases b <;> simp [decodeRaw, decode0, guardE, fn0, Raw.src, Raw.hdr, Raw.mk', Raw.s3]

theorem imadw (h : Hdr) (sg : Bool) (d : RegCode) (a : RegCode) (b : Src) (c : RegCode) : Statement (.imadw h sg d a b c) := by
  intro r hw hr
  cases hr
  cases sg <;> cases b <;> simp [decodeRaw, decode0, need, guardE, Raw.src, Raw.hdr, Raw.mk', Raw.s3]

theorem idiv (h : Hdr) (sg : Bool) (d : RegCode) (a : RegCode) (b : Src) : Statement (.idiv h sg d a b) := by
  intro r hw hr
  cases hr
  cases sg <;> cases b <;> simp [decodeRaw, decode0, need, guardE, Raw.src, Raw.hdr, Raw.mk', Raw.s3]

theorem irem (h : Hdr) (sg : Bool) (d : RegCode) (a : RegCode) (b : Src) : Statement (.irem h sg d a b) := by
  intro r hw hr
  cases hr
  cases sg <;> cases b <;> simp [decodeRaw, decode0, need, guardE, Raw.src, Raw.hdr, Raw.mk', Raw.s3]

theorem imin (h : Hdr) (sg : Bool) (d : RegCode) (a : RegCode) (b : Src) : Statement (.imin h sg d a b) := by
  intro r hw hr
  cases hr
  cases sg <;> cases b <;> simp [decodeRaw, decode0, need, guardE, Raw.src, Raw.hdr, Raw.mk', Raw.s3]

theorem imax (h : Hdr) (sg : Bool) (d : RegCode) (a : RegCode) (b : Src) : Statement (.imax h sg d a b) := by
  intro r hw hr
  cases hr
  cases sg <;> cases b <;> simp [decodeRaw, decode0, need, guardE, Raw.src, Raw.hdr, Raw.mk', Raw.s3]

theorem iabs (h : Hdr) (sat : Bool) (d : RegCode) (a : RegCode) : Statement (.iabs h sat d a) := by
  intro r hw hr
  cases hr
  cases sat <;> simp [decodeRaw, decode0, need, guardE, Raw.form0, Raw.hdr, Raw.mk']

theorem and (h : Hdr) (d : RegCode) (a : RegCode) (b : Src) : Statement (.and h d a b) := by
  intro r hw hr
  cases hr
  cases b <;> simp [decodeRaw, decode1, guardE, fn0, Raw.src, Raw.hdr, Raw.mk', Raw.s3]

theorem or (h : Hdr) (d : RegCode) (a : RegCode) (b : Src) : Statement (.or h d a b) := by
  intro r hw hr
  cases hr
  cases b <;> simp [decodeRaw, decode1, guardE, fn0, Raw.src, Raw.hdr, Raw.mk', Raw.s3]

theorem xor (h : Hdr) (d : RegCode) (a : RegCode) (b : Src) : Statement (.xor h d a b) := by
  intro r hw hr
  cases hr
  cases b <;> simp [decodeRaw, decode1, guardE, fn0, Raw.src, Raw.hdr, Raw.mk', Raw.s3]

theorem andn (h : Hdr) (d : RegCode) (a : RegCode) (b : Src) : Statement (.andn h d a b) := by
  intro r hw hr
  cases hr
  cases b <;> simp [decodeRaw, decode1, guardE, fn0, Raw.src, Raw.hdr, Raw.mk', Raw.s3]

theorem lop3 (h : Hdr) (d : RegCode) (a : RegCode) (b : RegCode) (c : RegCode) (lut : BitVec 8) : Statement (.lop3 h d a b c lut) := by
  intro r hw hr
  cases hr
  simp [decodeRaw, decode1, guardE, fn0, Raw.form3, Raw.hdr, Raw.mk'] <;> omega

theorem shl (h : Hdr) (d : RegCode) (a : RegCode) (b : Src) : Statement (.shl h d a b) := by
  intro r hw hr
  cases hr
  cases b <;> simp [decodeRaw, decode1, guardE, fn0, Raw.src, Raw.hdr, Raw.mk', Raw.s3]

theorem shr (h : Hdr) (d : RegCode) (a : RegCode) (b : Src) : Statement (.shr h d a b) := by
  intro r hw hr
  cases hr
  cases b <;> simp [decodeRaw, decode1, guardE, fn0, Raw.src, Raw.hdr, Raw.mk', Raw.s3]

theorem sar (h : Hdr) (d : RegCode) (a : RegCode) (b : Src) : Statement (.sar h d a b) := by
  intro r hw hr
  cases hr
  cases b <;> simp [decodeRaw, decode1, guardE, fn0, Raw.src, Raw.hdr, Raw.mk', Raw.s3]

theorem rol (h : Hdr) (d : RegCode) (a : RegCode) (b : Src) : Statement (.rol h d a b) := by
  intro r hw hr
  cases hr
  cases b <;> simp [decodeRaw, decode1, guardE, fn0, Raw.src, Raw.hdr, Raw.mk', Raw.s3]

theorem fshf (h : Hdr) (right : Bool) (d : RegCode) (a : RegCode) (b : RegCode) (n : Sel 5) : Statement (.fshf h right d a b n) := by
  intro r hw hr
  cases hr
  cases right <;> cases n <;> simp [decodeRaw, decode1, need, guardE, Raw.sel, Raw.hdr, Raw.mk', Sel.form, Sel.fld, Sel.im] <;> omega

theorem popc (h : Hdr) (d : RegCode) (a : RegCode) : Statement (.popc h d a) := by
  intro r hw hr
  cases hr
  simp [decodeRaw, decode1, guardE, fn0, Raw.form0, Raw.hdr, Raw.mk']

theorem clz (h : Hdr) (d : RegCode) (a : RegCode) : Statement (.clz h d a) := by
  intro r hw hr
  cases hr
  simp [decodeRaw, decode1, guardE, fn0, Raw.form0, Raw.hdr, Raw.mk']

theorem brev (h : Hdr) (d : RegCode) (a : RegCode) : Statement (.brev h d a) := by
  intro r hw hr
  cases hr
  simp [decodeRaw, decode1, guardE, fn0, Raw.form0, Raw.hdr, Raw.mk']

theorem bfx (h : Hdr) (sg : Bool) (d : RegCode) (a : RegCode) (f : Sel 16) : Statement (.bfx h sg d a f) := by
  intro r hw hr
  cases hr
  cases sg <;> cases f <;> simp [decodeRaw, decode1, need, guardE, Raw.sel, Raw.hdr, Raw.mk', Sel.form, Sel.fld, Sel.im] <;> omega

theorem bfi (h : Hdr) (d : RegCode) (a : RegCode) (b : RegCode) (f : Sel 16) : Statement (.bfi h d a b f) := by
  intro r hw hr
  cases hr
  cases f <;> simp [decodeRaw, decode1, guardE, fn0, Raw.sel, Raw.hdr, Raw.mk', Sel.form, Sel.fld, Sel.im] <;> omega

theorem prmt (h : Hdr) (d : RegCode) (a : RegCode) (b : RegCode) (f : Sel 20) : Statement (.prmt h d a b f) := by
  intro r hw hr
  cases hr
  cases f <;> simp [decodeRaw, decode1, guardE, fn0, Raw.sel, Raw.hdr, Raw.mk', Sel.form, Sel.fld, Sel.im] <;> omega

theorem sel (h : Hdr) (wide : Bool) (d : RegCode) (a : RegCode) (b : Src) (c : RegCode) : Statement (.sel h wide d a b c) := by
  intro r hw hr
  cases hr
  cases wide <;> cases b <;> simp [decodeRaw, decode2, need, guardE, Raw.src, Raw.hdr, Raw.mk', Raw.s3]

theorem isetp (h : Hdr) (m : Cmp) (d : RegCode) (a : RegCode) (b : Src) : Statement (.isetp h m d a b) := by
  intro r hw hr
  cases hr
  cases b <;> simp [decodeRaw, decode2, need, guardE, Raw.src, Raw.hdr, Raw.mk', Raw.s3]

theorem icmps (h : Hdr) (m : Cmp) (d : RegCode) (a : RegCode) (b : Src) : Statement (.icmps h m d a b) := by
  intro r hw hr
  cases hr
  cases b <;> simp [decodeRaw, decode2, need, guardE, Raw.src, Raw.hdr, Raw.mk', Raw.s3]

theorem plop (h : Hdr) (d : RegCode) (a : RegCode) (b : RegCode) (c : RegCode) (lut : BitVec 8) : Statement (.plop h d a b c lut) := by
  intro r hw hr
  cases hr
  simp [decodeRaw, decode2, guardE, fn0, Raw.form3, Raw.hdr, Raw.mk'] <;> omega

theorem p2g (h : Hdr) (d : RegCode) : Statement (.p2g h d) := by
  intro r hw hr
  cases hr
  simp [decodeRaw, decode2, guardE, fn0, Raw.form0, Raw.hdr, Raw.mk']

theorem g2p (h : Hdr) (a : RegCode) (mask : BitVec 7) : Statement (.g2p h a mask) := by
  intro r hw hr
  cases hr
  simp [decodeRaw, decode2, guardE, fn0, Raw.form3, Raw.hdr, Raw.mk'] <;> omega

theorem iadd64 (h : Hdr) (d : RegCode) (a : RegCode) (b : Src) : Statement (.iadd64 h d a b) := by
  intro r hw hr
  cases hr
  cases b <;> simp [decodeRaw, decode2, guardE, fn0, Raw.src, Raw.hdr, Raw.mk', Raw.s3]

theorem isub64 (h : Hdr) (d : RegCode) (a : RegCode) (b : Src) : Statement (.isub64 h d a b) := by
  intro r hw hr
  cases hr
  cases b <;> simp [decodeRaw, decode2, guardE, fn0, Raw.src, Raw.hdr, Raw.mk', Raw.s3]

theorem lea (h : Hdr) (sg : Bool) (d : RegCode) (a : RegCode) (b : RegCode) (sh : BitVec 3) : Statement (.lea h sg d a b sh) := by
  intro r hw hr
  cases hr
  cases sg <;> simp [decodeRaw, decode2, need, guardE, Raw.form0i, Raw.hdr, Raw.mk'] <;> omega

theorem isetp64 (h : Hdr) (m : Cmp) (d : RegCode) (a : RegCode) (b : Src) : Statement (.isetp64 h m d a b) := by
  intro r hw hr
  cases hr
  cases b <;> simp [decodeRaw, decode2, need, guardE, Raw.src, Raw.hdr, Raw.mk', Raw.s3]

theorem shl64 (h : Hdr) (d : RegCode) (a : RegCode) (b : Src) : Statement (.shl64 h d a b) := by
  intro r hw hr
  cases hr
  cases b <;> simp [decodeRaw, decode2, guardE, fn0, Raw.src, Raw.hdr, Raw.mk', Raw.s3]

theorem shr64 (h : Hdr) (arith : Bool) (d : RegCode) (a : RegCode) (b : Src) : Statement (.shr64 h arith d a b) := by
  intro r hw hr
  cases hr
  cases arith <;> cases b <;> simp [decodeRaw, decode2, need, guardE, Raw.src, Raw.hdr, Raw.mk', Raw.s3]

theorem idp4 (h : Hdr) (asg : Bool) (bsg : Bool) (sat : Bool) (d : RegCode) (a : RegCode) (b : Src) (c : RegCode) : Statement (.idp4 h asg bsg sat d a b c) := by
  intro r hw hr
  cases hr
  cases asg <;> cases bsg <;> cases sat <;> cases b <;> simp [decodeRaw, decode2, guardE, Raw.src, Raw.hdr, Raw.mk', Raw.s3]

theorem idp2 (h : Hdr) (asg : Bool) (bsg : Bool) (sat : Bool) (d : RegCode) (a : RegCode) (b : Src) (c : RegCode) : Statement (.idp2 h asg bsg sat d a b c) := by
  intro r hw hr
  cases hr
  cases asg <;> cases bsg <;> cases sat <;> cases b <;> simp [decodeRaw, decode2, guardE, Raw.src, Raw.hdr, Raw.mk', Raw.s3]

theorem fadd (h : Hdr) (rm : Rm) (sub : Bool) (d : RegCode) (a : RegCode) (b : Src) : Statement (.fadd h rm sub d a b) := by
  intro r hw hr
  cases hr
  cases sub <;> cases b <;> simp [decodeRaw, decode4, guardE, Raw.src, Raw.hdr, Raw.mk', Raw.s3, fnRm]

theorem fmul (h : Hdr) (rm : Rm) (d : RegCode) (a : RegCode) (b : Src) : Statement (.fmul h rm d a b) := by
  intro r hw hr
  cases hr
  cases b <;> simp [decodeRaw, decode4, guardE, Raw.src, Raw.hdr, Raw.mk', Raw.s3, fnRm]

theorem ffma (h : Hdr) (rm : Rm) (np : Bool) (nc : Bool) (d : RegCode) (a : RegCode) (b : Src) (c : RegCode) : Statement (.ffma h rm np nc d a b c) := by
  intro r hw hr
  cases hr
  cases np <;> cases nc <;> cases b <;> simp [decodeRaw, decode4, guardE, Raw.src, Raw.hdr, Raw.mk', Raw.s3, fnRm]

theorem fmin (h : Hdr) (d : RegCode) (a : RegCode) (b : Src) : Statement (.fmin h d a b) := by
  intro r hw hr
  cases hr
  cases b <;> simp [decodeRaw, decode4, guardE, fn0, Raw.src, Raw.hdr, Raw.mk', Raw.s3]

theorem fmax (h : Hdr) (d : RegCode) (a : RegCode) (b : Src) : Statement (.fmax h d a b) := by
  intro r hw hr
  cases hr
  cases b <;> simp [decodeRaw, decode4, guardE, fn0, Raw.src, Raw.hdr, Raw.mk', Raw.s3]

theorem fsetp (h : Hdr) (m : FCmp) (d : RegCode) (a : RegCode) (b : Src) : Statement (.fsetp h m d a b) := by
  intro r hw hr
  cases hr
  cases b <;> simp [decodeRaw, decode4, need, guardE, Raw.src, Raw.hdr, Raw.mk', Raw.s3]

theorem fclass (h : Hdr) (f : FKind) (d : RegCode) (a : RegCode) : Statement (.fclass h f d a) := by
  intro r hw hr
  cases hr
  cases f <;> simp [decodeRaw, decode4, need, guardE, Raw.form0, Raw.hdr, Raw.mk']

theorem fdiv (h : Hdr) (d : RegCode) (a : RegCode) (b : Src) : Statement (.fdiv h d a b) := by
  intro r hw hr
  cases hr
  cases b <;> simp [decodeRaw, decode4, guardE, fn0, Raw.src, Raw.hdr, Raw.mk', Raw.s3]

theorem fsqrt (h : Hdr) (d : RegCode) (a : RegCode) : Statement (.fsqrt h d a) := by
  intro r hw hr
  cases hr
  simp [decodeRaw, decode4, guardE, fn0, Raw.form0, Raw.hdr, Raw.mk']

theorem frcp (h : Hdr) (d : RegCode) (a : RegCode) : Statement (.frcp h d a) := by
  intro r hw hr
  cases hr
  simp [decodeRaw, decode4, guardE, fn0, Raw.form0, Raw.hdr, Raw.mk']

theorem frsq (h : Hdr) (d : RegCode) (a : RegCode) : Statement (.frsq h d a) := by
  intro r hw hr
  cases hr
  simp [decodeRaw, decode4, guardE, fn0, Raw.form0, Raw.hdr, Raw.mk']

theorem fex2 (h : Hdr) (d : RegCode) (a : RegCode) : Statement (.fex2 h d a) := by
  intro r hw hr
  cases hr
  simp [decodeRaw, decode4, guardE, fn0, Raw.form0, Raw.hdr, Raw.mk']

theorem flg2 (h : Hdr) (d : RegCode) (a : RegCode) : Statement (.flg2 h d a) := by
  intro r hw hr
  cases hr
  simp [decodeRaw, decode4, guardE, fn0, Raw.form0, Raw.hdr, Raw.mk']

theorem fsinpi (h : Hdr) (d : RegCode) (a : RegCode) : Statement (.fsinpi h d a) := by
  intro r hw hr
  cases hr
  simp [decodeRaw, decode4, guardE, fn0, Raw.form0, Raw.hdr, Raw.mk']

theorem fcospi (h : Hdr) (d : RegCode) (a : RegCode) : Statement (.fcospi h d a) := by
  intro r hw hr
  cases hr
  simp [decodeRaw, decode4, guardE, fn0, Raw.form0, Raw.hdr, Raw.mk']

theorem ftanh (h : Hdr) (d : RegCode) (a : RegCode) : Statement (.ftanh h d a) := by
  intro r hw hr
  cases hr
  simp [decodeRaw, decode4, guardE, fn0, Raw.form0, Raw.hdr, Raw.mk']

theorem hadd2 (h : Hdr) (bf : Bool) (rm : Rm) (sub : Bool) (d : RegCode) (a : RegCode) (b : Src) : Statement (.hadd2 h bf rm sub d a b) := by
  intro r hw hr
  cases hr
  cases bf <;> cases sub <;> cases b <;> simp [decodeRaw, decode5, guardE, Raw.src, Raw.hdr, Raw.mk', Raw.s3]

theorem hmul2 (h : Hdr) (bf : Bool) (rm : Rm) (d : RegCode) (a : RegCode) (b : Src) : Statement (.hmul2 h bf rm d a b) := by
  intro r hw hr
  cases hr
  cases bf <;> cases b <;> simp [decodeRaw, decode5, guardE, Raw.src, Raw.hdr, Raw.mk', Raw.s3]

theorem hfma2 (h : Hdr) (bf : Bool) (rm : Rm) (d : RegCode) (a : RegCode) (b : Src) (c : RegCode) : Statement (.hfma2 h bf rm d a b c) := by
  intro r hw hr
  cases hr
  cases bf <;> cases b <;> simp [decodeRaw, decode5, guardE, Raw.src, Raw.hdr, Raw.mk', Raw.s3]

theorem hmnmx2 (h : Hdr) (bf : Bool) (max : Bool) (d : RegCode) (a : RegCode) (b : Src) : Statement (.hmnmx2 h bf max d a b) := by
  intro r hw hr
  cases hr
  cases bf <;> cases max <;> cases b <;> simp [decodeRaw, decode5, guardE, Raw.src, Raw.hdr, Raw.mk', Raw.s3]

theorem cvtff (h : Hdr) (cv : Cv) (sat : Bool) (dst : FKind) (src : FKind) (d : RegCode) (a : RegCode) : Statement (.cvtff h cv sat dst src d a) := by
  intro r hw hr
  cases hr
  cases sat <;> cases dst <;> cases src <;> simp [decodeRaw, decode5, need, guardE, Raw.form3, Raw.hdr, Raw.mk']

theorem cvtfi (h : Hdr) (cv : Cv) (k : IKind) (sat : Bool) (d : RegCode) (a : RegCode) : Statement (.cvtfi h cv k sat d a) := by
  intro r hw hr
  cases hr
  cases cv <;> cases k <;> cases sat <;> simp [decodeRaw, decode5, need, guardE, Raw.form3, Raw.hdr, Raw.mk'] <;> rfl

theorem cvtif (h : Hdr) (cv : Cv) (k : IKind) (d : RegCode) (a : RegCode) : Statement (.cvtif h cv k d a) := by
  intro r hw hr
  cases hr
  cases cv <;> cases k <;> simp [decodeRaw, decode5, need, guardE, Raw.form0, Raw.hdr, Raw.mk'] <;> rfl

theorem cvtpk (h : Hdr) (cv : CvD) (sat : Bool) (d : RegCode) (a : RegCode) (b : RegCode) (slot : BitVec 3) : Statement (.cvtpk h cv sat d a b slot) := by
  intro r hw hr
  cases hr
  cases sat <;> simp [decodeRaw, decode5, guardE, Raw.form3, Raw.hdr, Raw.mk'] <;> omega

theorem cvtunpk (h : Hdr) (cv : Cv) (sat : Bool) (d : RegCode) (a : RegCode) (b : RegCode) (slot : BitVec 3) : Statement (.cvtunpk h cv sat d a b slot) := by
  intro r hw hr
  cases hr
  cases sat <;> simp [decodeRaw, decode5, need, guardE, Raw.form3, Raw.hdr, Raw.mk'] <;> omega

theorem frnd (h : Hdr) (rm : Rm) (d : RegCode) (a : RegCode) : Statement (.frnd h rm d a) := by
  intro r hw hr
  cases hr
  simp [decodeRaw, decode5, guardE, Raw.form0, Raw.hdr, Raw.mk', fnRm]

theorem fscale (h : Hdr) (rm : Rm) (d : RegCode) (a : RegCode) (b : Src) : Statement (.fscale h rm d a b) := by
  intro r hw hr
  cases hr
  cases b <;> simp [decodeRaw, decode5, guardE, Raw.src, Raw.hdr, Raw.mk', Raw.s3, fnRm]

theorem fgetexp (h : Hdr) (d : RegCode) (a : RegCode) : Statement (.fgetexp h d a) := by
  intro r hw hr
  cases hr
  simp [decodeRaw, decode5, guardE, fn0, Raw.form0, Raw.hdr, Raw.mk']

theorem bra (h : Hdr) (off : BitVec 29) (slot : BitVec 3) : Statement (.bra h off slot) := by
  intro r hw hr
  cases hr
  simp [decodeRaw, decode6, guardE, fn0, Raw.form1, Raw.hdr, Raw.mk']

theorem brx (h : Hdr) (a : RegCode) : Statement (.brx h a) := by
  intro r hw hr
  cases hr
  simp [decodeRaw, decode6, guardE, fn0, Raw.form0, Raw.hdr, Raw.mk']

theorem call (h : Hdr) (d : RegCode) (off : BitVec 29) (slot : BitVec 3) : Statement (.call h d off slot) := by
  intro r hw hr
  cases hr
  simp [decodeRaw, decode6, guardE, fn0, Raw.form1, Raw.hdr, Raw.mk']

theorem callx (h : Hdr) (d : RegCode) (a : RegCode) : Statement (.callx h d a) := by
  intro r hw hr
  cases hr
  simp [decodeRaw, decode6, guardE, fn0, Raw.form0, Raw.hdr, Raw.mk']

theorem ret (h : Hdr) (a : RegCode) : Statement (.ret h a) := by
  intro r hw hr
  cases hr
  simp [decodeRaw, decode6, guardE, fn0, Raw.form0, Raw.hdr, Raw.mk']

theorem exit (h : Hdr) : Statement (.exit h) := by
  intro r hw hr
  cases hr
  simp [decodeRaw, decode6, guardE, fn0, Raw.form0, Raw.hdr, Raw.mk']

theorem trap (h : Hdr) (code : BitVec 16) : Statement (.trap h code) := by
  intro r hw hr
  cases hr
  simp [decodeRaw, decode6, guardE, fn0, Raw.form3, Raw.hdr, Raw.mk'] <;> omega

theorem nop (h : Hdr) : Statement (.nop h) := by
  intro r hw hr
  cases hr
  simp [decodeRaw, decode6, guardE, fn0, Raw.form0, Raw.hdr, Raw.mk']

theorem yield (h : Hdr) : Statement (.yield h) := by
  intro r hw hr
  cases hr
  simp [decodeRaw, decode6, guardE, fn0, Raw.form0, Raw.hdr, Raw.mk']

theorem bpt (h : Hdr) (code : BitVec 16) : Statement (.bpt h code) := by
  intro r hw hr
  cases hr
  simp [decodeRaw, decode6, guardE, fn0, Raw.form3, Raw.hdr, Raw.mk'] <;> omega

theorem sleep (h : Hdr) (b : Src) : Statement (.sleep h b) := by
  intro r hw hr
  cases hr
  cases b <;> simp [decodeRaw, decode6, guardE, fn0, Raw.src, Raw.hdr, Raw.mk', Raw.s3]

theorem ld (h : Hdr) (sz : LdSize) (d : RegCode) (a : RegCode) (off : Word) : Statement (.ld h sz d a off) := by
  intro r hw hr
  cases hr
  simp [decodeRaw, decode7, need, guardE, Raw.form2, Raw.hdr, Raw.mk']

theorem st (h : Hdr) (sz : StSize) (a : RegCode) (off : Word) (b : RegCode) : Statement (.st h sz a off b) := by
  intro r hw hr
  cases hr
  simp [decodeRaw, decode7, need, guardE, Raw.form2, Raw.hdr, Raw.mk']

theorem ldl (h : Hdr) (sz : LdSize) (d : RegCode) (a : RegCode) (off : Word) : Statement (.ldl h sz d a off) := by
  intro r hw hr
  cases hr
  simp [decodeRaw, decode7, need, guardE, Raw.form2, Raw.hdr, Raw.mk']

theorem stl (h : Hdr) (sz : StSize) (a : RegCode) (off : Word) (b : RegCode) : Statement (.stl h sz a off b) := by
  intro r hw hr
  cases hr
  simp [decodeRaw, decode7, need, guardE, Raw.form2, Raw.hdr, Raw.mk']

theorem pref (h : Hdr) (l2 : Bool) (a : RegCode) (off : Word) : Statement (.pref h l2 a off) := by
  intro r hw hr
  cases hr
  cases l2 <;> simp [decodeRaw, decode7, need, guardE, Raw.form2, Raw.hdr, Raw.mk']

theorem ldc (h : Hdr) (sz : LdSize) (d : RegCode) (a : RegCode) (off : Word) : Statement (.ldc h sz d a off) := by
  intro r hw hr
  cases hr
  simp [decodeRaw, decode7, need, guardE, Raw.form2, Raw.hdr, Raw.mk']

theorem kjoin (h : Hdr) (k : BitVec 4) : Statement (.kjoin h k) := by
  intro r hw hr
  cases hr
  simp [decodeRaw, decode8, guardE, fn0, Raw.form3, Raw.hdr, Raw.mk'] <;> omega

theorem kleave (h : Hdr) (k : BitVec 4) : Statement (.kleave h k) := by
  intro r hw hr
  cases hr
  simp [decodeRaw, decode8, guardE, fn0, Raw.form3, Raw.hdr, Raw.mk'] <;> omega

theorem kwait (h : Hdr) (k : BitVec 4) : Statement (.kwait h k) := by
  intro r hw hr
  cases hr
  simp [decodeRaw, decode8, guardE, fn0, Raw.form3, Raw.hdr, Raw.mk'] <;> omega

theorem ksetG (h : Hdr) (k : BitVec 4) (a : RegCode) : Statement (.ksetG h k a) := by
  intro r hw hr
  cases hr
  simp [decodeRaw, decode8, need, guardE, fnCase, Raw.form3, Raw.hdr, Raw.mk'] <;> omega

theorem ksetCohort (h : Hdr) (k : BitVec 4) : Statement (.ksetCohort h k) := by
  intro r hw hr
  cases hr
  simp [decodeRaw, decode8, need, guardE, fnCase, Raw.form3, Raw.hdr, Raw.mk'] <;> omega

theorem ksetClr (h : Hdr) (k : BitVec 4) : Statement (.ksetClr h k) := by
  intro r hw hr
  cases hr
  simp [decodeRaw, decode8, need, guardE, fnCase, Raw.form3, Raw.hdr, Raw.mk'] <;> omega

theorem ksetLive (h : Hdr) (k : BitVec 4) : Statement (.ksetLive h k) := by
  intro r hw hr
  cases hr
  simp [decodeRaw, decode8, need, guardE, fnCase, Raw.form3, Raw.hdr, Raw.mk'] <;> omega

theorem kmov (h : Hdr) (d : RegCode) (k : BitVec 4) : Statement (.kmov h d k) := by
  intro r hw hr
  cases hr
  simp [decodeRaw, decode8, guardE, Raw.form3, Raw.hdr, Raw.mk'] <;> omega

theorem kmovK (h : Hdr) (k : BitVec 4) (j : BitVec 4) : Statement (.kmovK h k j) := by
  intro r hw hr
  cases hr
  simp [decodeRaw, decode8, guardE, Raw.form3, Raw.hdr, Raw.mk']

theorem elect (h : Hdr) (d : RegCode) : Statement (.elect h d) := by
  intro r hw hr
  cases hr
  simp [decodeRaw, decode8, guardE, fn0, Raw.form0, Raw.hdr, Raw.mk']

theorem vote (h : Hdr) (m : VoteMode) (neg : Bool) (d : RegCode) (a : RegCode) : Statement (.vote h m neg d a) := by
  intro r hw hr
  cases hr
  cases m <;> cases neg <;> simp [decodeRaw, decode8, guardE, Raw.form0, Raw.hdr, Raw.mk'] <;> rfl

theorem shfl (h : Hdr) (m : ShflMode) (d : RegCode) (a : RegCode) (b : ShflB) (c : RegCode) : Statement (.shfl h m d a b c) := by
  intro r hw hr
  cases hr
  cases b <;> simp [decodeRaw, decode8, need, guardE, Raw.shflB, Raw.hdr, Raw.mk', ShflB.form, ShflB.fld, ShflB.im]

theorem redux (h : Hdr) (op : ReduxOp) (d : RegCode) (a : RegCode) : Statement (.redux h op d a) := by
  intro r hw hr
  cases hr
  simp [decodeRaw, decode8, need, guardE, Raw.form0, Raw.hdr, Raw.mk']

theorem matchLanes (h : Hdr) (wide : Bool) (m : MatchMode) (d : RegCode) (a : RegCode) : Statement (.matchLanes h wide m d a) := by
  intro r hw hr
  cases hr
  cases wide <;> cases m <;> simp [decodeRaw, decode8, need, guardE, fnCase, Raw.form0, Raw.hdr, Raw.mk', MatchMode.fld, MatchMode.isAll, fn4]

theorem rdlane (h : Hdr) (wide : Bool) (d : RegCode) (a : RegCode) (b : Src) : Statement (.rdlane h wide d a b) := by
  intro r hw hr
  cases hr
  cases wide <;> cases b <;> simp [decodeRaw, decode8, need, guardE, Raw.src, Raw.hdr, Raw.mk', Raw.s3]

theorem mlds (h : Hdr) (sp : Bool) (a : RegCode) (b : RegCode) (c : RegCode) (slot : BitVec 3) : Statement (.mlds h sp a b c slot) := by
  intro r hw hr
  cases hr
  cases sp <;> simp [decodeRaw, decode9, need, guardE, Raw.form3, Raw.hdr, Raw.mk'] <;> omega

theorem mswap (h : Hdr) : Statement (.mswap h) := by
  intro r hw hr
  cases hr
  simp [decodeRaw, decode9, guardE, fn0, Raw.form0, Raw.hdr, Raw.mk']

theorem mstr (h : Hdr) (set : Bool) (gang : Bool) (a : RegCode) (b : RegCode) (c : RegCode) (slot : BitVec 3) (bank : BitVec 2) (q0 : BitVec 8) : Statement (.mstr h set gang a b c slot bank q0) := by
  intro r hw hr
  cases hr
  cases set <;> cases gang <;> simp [decodeRaw, decode9, guardE, Raw.form3, Raw.hdr, Raw.mk']

theorem mstrr (h : Hdr) (set : Bool) (gang : Bool) (a : RegCode) (c : RegCode) (slot : BitVec 3) (rows : Rows) : Statement (.mstrr h set gang a c slot rows) := by
  intro r hw hr
  cases hr
  cases set <;> cases gang <;> simp [decodeRaw, decode9, guardE, Raw.form3, Raw.hdr, Raw.mk']

theorem mzero (h : Hdr) (rows : Rows) : Statement (.mzero h rows) := by
  intro r hw hr
  cases hr
  simp [decodeRaw, decode9, guardE, fn0, Raw.form3, Raw.hdr, Raw.mk']

theorem mbias (h : Hdr) (int : Bool) (a : RegCode) (rows : Rows) : Statement (.mbias h int a rows) := by
  intro r hw hr
  cases hr
  cases int <;> simp [decodeRaw, decode9, need, guardE, Raw.form3, Raw.hdr, Raw.mk']

theorem mdrn (h : Hdr) (x : Drain) (z : Bool) (a : RegCode) (b : RegCode) (rows : Rows) : Statement (.mdrn h x z a b rows) := by
  intro r hw hr
  cases hr
  cases x <;> cases z <;> simp [decodeRaw, decode9, need, guardE, Raw.form3, Raw.hdr, Raw.mk', Drain.fn, Drain.im, Raw.drain]

theorem mdrnr (h : Hdr) (x : Drain) (z : Bool) (d : RegCode) (b : RegCode) (rows : Rows) : Statement (.mdrnr h x z d b rows) := by
  intro r hw hr
  cases hr
  cases x <;> cases z <;> simp [decodeRaw, decode9, need, guardE, Raw.form3, Raw.hdr, Raw.mk', Drain.fn, Drain.im, Raw.drain]

theorem mgangLead (h : Hdr) (a : RegCode) : Statement (.mgangLead h a) := by
  intro r hw hr
  cases hr
  simp [decodeRaw, decode9, guardE, Raw.form3, Raw.hdr, Raw.mk']

theorem mgangJoin (h : Hdr) (a : RegCode) (bank : BitVec 2) : Statement (.mgangJoin h a bank) := by
  intro r hw hr
  cases hr
  simp [decodeRaw, decode9, guardE, Raw.form3, Raw.hdr, Raw.mk']

theorem mgangLeave (h : Hdr) : Statement (.mgangLeave h) := by
  intro r hw hr
  cases hr
  simp [decodeRaw, decode9, guardE, Raw.form3, Raw.hdr, Raw.mk']

theorem lds (h : Hdr) (sz : LdSize) (d : RegCode) (a : RegCode) (off : Word) : Statement (.lds h sz d a off) := by
  intro r hw hr
  cases hr
  simp [decodeRaw, decodeA, need, guardE, Raw.form3, Raw.hdr, Raw.mk']

theorem sts (h : Hdr) (sz : StSize) (a : RegCode) (off : Word) (b : RegCode) : Statement (.sts h sz a off b) := by
  intro r hw hr
  cases hr
  simp [decodeRaw, decodeA, need, guardE, Raw.form3, Raw.hdr, Raw.mk']

theorem ldcl (h : Hdr) (sz : LdSize) (d : RegCode) (a : RegCode) (off : Word) : Statement (.ldcl h sz d a off) := by
  intro r hw hr
  cases hr
  simp [decodeRaw, decodeA, need, guardE, Raw.form3, Raw.hdr, Raw.mk']

theorem stcl (h : Hdr) (sz : StSize) (a : RegCode) (off : Word) (b : RegCode) : Statement (.stcl h sz a off b) := by
  intro r hw hr
  cases hr
  simp [decodeRaw, decodeA, need, guardE, Raw.form3, Raw.hdr, Raw.mk']

theorem ldx (h : Hdr) (sz : LdSize) (d : RegCode) (a : RegCode) (off : Word) : Statement (.ldx h sz d a off) := by
  intro r hw hr
  cases hr
  simp [decodeRaw, decodeA, need, guardE, Raw.form2, Raw.hdr, Raw.mk']

theorem stx (h : Hdr) (sz : StSize) (a : RegCode) (off : Word) (b : RegCode) : Statement (.stx h sz a off b) := by
  intro r hw hr
  cases hr
  simp [decodeRaw, decodeA, need, guardE, Raw.form2, Raw.hdr, Raw.mk']

theorem atom (h : Hdr) (op : AtomOp) (sz : AtSize) (ord : Ord4) (scope : Scope) (d : RegCode) (a : RegCode) (b : RegCode) : Statement (.atom h op sz ord scope d a b) := by
  intro r hw hr
  cases hr
  simp [decodeRaw, decodeA, need, guardE, Raw.form3, Raw.hdr, Raw.mk']

theorem atoms (h : Hdr) (op : AtomOp) (sz : AtSize) (cl : Bool) (d : RegCode) (a : RegCode) (b : RegCode) : Statement (.atoms h op sz cl d a b) := by
  intro r hw hr
  cases hr
  cases cl <;> simp [decodeRaw, decodeA, need, guardE, Raw.form3, Raw.hdr, Raw.mk']

theorem red (h : Hdr) (op : AtomOp) (sz : AtSize) (rel : Bool) (scope : Scope) (a : RegCode) (b : RegCode) : Statement (.red h op sz rel scope a b) := by
  intro r hw hr
  cases h1 : op.redOk
  · simp [Instr.wfErr, Instr.info, chk, h1] at hw
  · cases hr
    cases rel <;> simp [decodeRaw, decodeA, need, guardE, Raw.form3, Raw.hdr, Raw.mk', AtomOp.ofCode_red _ h1]

theorem fence (h : Hdr) (ord : Ord4) (scope : Scope) : Statement (.fence h ord scope) := by
  intro r hw hr
  cases hr
  simp [decodeRaw, decodeA, need, guardE, fn0, Raw.form3, Raw.hdr, Raw.mk']

theorem relst (h : Hdr) (sz : WSize) (scope : Scope) (a : RegCode) (b : RegCode) : Statement (.relst h sz scope a b) := by
  intro r hw hr
  cases hr
  simp [decodeRaw, decodeA, need, guardE, fn0, Raw.form3, Raw.hdr, Raw.mk']

theorem relop (h : Hdr) (op : AtomOp) (sz : AtSize) (scope : Scope) (d : RegCode) (a : RegCode) (b : RegCode) : Statement (.relop h op sz scope d a b) := by
  intro r hw hr
  cases hr
  simp [decodeRaw, decodeA, need, guardE, Raw.form3, Raw.hdr, Raw.mk']

theorem acqld (h : Hdr) (sz : WSize) (scope : Scope) (d : RegCode) (a : RegCode) : Statement (.acqld h sz scope d a) := by
  intro r hw hr
  cases hr
  simp [decodeRaw, decodeA, need, guardE, fn0, Raw.form3, Raw.hdr, Raw.mk']

theorem acqwt (h : Hdr) (m : Cmp) (sz : WSize) (scope : Scope) (d : RegCode) (a : RegCode) (b : RegCode) (c : RegCode) : Statement (.acqwt h m sz scope d a b c) := by
  intro r hw hr
  cases hr
  simp [decodeRaw, decodeA, need, guardE, Raw.form3, Raw.hdr, Raw.mk']

theorem remacq (h : Hdr) (a : RegCode) : Statement (.remacq h a) := by
  intro r hw hr
  cases hr
  simp [decodeRaw, decodeA, guardE, fn0, Raw.form0, Raw.hdr, Raw.mk']

theorem barinit (h : Hdr) (a : RegCode) (b : RegCode) : Statement (.barinit h a b) := by
  intro r hw hr
  cases hr
  simp [decodeRaw, decodeA, guardE, fn0, Raw.form3, Raw.hdr, Raw.mk']

theorem bararv (h : Hdr) (grp : Bool) (scope : Scope) (d : RegCode) (c : RegCode) (a : RegCode) : Statement (.bararv h grp scope d c a) := by
  intro r hw hr
  cases hr
  cases grp <;> simp [decodeRaw, decodeB, need, guardE, Raw.form3, Raw.hdr, Raw.mk']

theorem barwt (h : Hdr) (scope : Scope) (d : RegCode) (c : RegCode) (a : RegCode) (b : RegCode) : Statement (.barwt h scope d c a b) := by
  intro r hw hr
  cases hr
  simp [decodeRaw, decodeB, need, guardE, fn0, Raw.form3, Raw.hdr, Raw.mk']

theorem bartst (h : Hdr) (scope : Scope) (d : RegCode) (c : RegCode) (a : RegCode) (b : RegCode) : Statement (.bartst h scope d c a b) := by
  intro r hw hr
  cases hr
  simp [decodeRaw, decodeB, need, guardE, fn0, Raw.form3, Raw.hdr, Raw.mk']

theorem barexp (h : Hdr) (a : RegCode) (b : RegCode) : Statement (.barexp h a b) := by
  intro r hw hr
  cases hr
  simp [decodeRaw, decodeB, guardE, fn0, Raw.form3, Raw.hdr, Raw.mk']

theorem bardrop (h : Hdr) (grp : Bool) (a : RegCode) : Statement (.bardrop h grp a) := by
  intro r hw hr
  cases hr
  cases grp <;> simp [decodeRaw, decodeB, need, guardE, Raw.form3, Raw.hdr, Raw.mk']

theorem ldnc (h : Hdr) (sz : LdSize) (d : RegCode) (a : RegCode) (off : Word) : Statement (.ldnc h sz d a off) := by
  intro r hw hr
  cases hr
  simp [decodeRaw, decodeB, need, guardE, Raw.form2, Raw.hdr, Raw.mk']

theorem cctlIvl (h : Hdr) (a : RegCode) (off : Word) : Statement (.cctlIvl h a off) := by
  intro r hw hr
  cases hr
  simp [decodeRaw, decodeB, guardE, Raw.form2, Raw.hdr, Raw.mk']

theorem cctlIvall (h : Hdr) : Statement (.cctlIvall h) := by
  intro r hw hr
  cases hr
  simp [decodeRaw, decodeB, guardE, Raw.form0, Raw.hdr, Raw.mk']

theorem cctlIvi (h : Hdr) (a : RegCode) (off : Word) : Statement (.cctlIvi h a off) := by
  intro r hw hr
  cases hr
  simp [decodeRaw, decodeB, guardE, Raw.form2, Raw.hdr, Raw.mk']

theorem cctlIviall (h : Hdr) : Statement (.cctlIviall h) := by
  intro r hw hr
  cases hr
  simp [decodeRaw, decodeB, guardE, Raw.form0, Raw.hdr, Raw.mk']

theorem cctlDrain (h : Hdr) : Statement (.cctlDrain h) := by
  intro r hw hr
  cases hr
  simp [decodeRaw, decodeB, guardE, Raw.form0, Raw.hdr, Raw.mk']

theorem sigrdTest (h : Hdr) (d : RegCode) (a : RegCode) : Statement (.sigrdTest h d a) := by
  intro r hw hr
  cases hr
  simp [decodeRaw, decodeB, guardE, Raw.form3, Raw.hdr, Raw.mk']

theorem sigrdHash (h : Hdr) (d : RegCode) (a : RegCode) : Statement (.sigrdHash h d a) := by
  intro r hw hr
  cases hr
  simp [decodeRaw, decodeB, guardE, Raw.form3, Raw.hdr, Raw.mk']

theorem sigrdWord (h : Hdr) (d : RegCode) (slot : BitVec 2) (word : BitVec 5) : Statement (.sigrdWord h d slot word) := by
  intro r hw hr
  cases hr
  simp [decodeRaw, decodeB, guardE, Raw.form3, Raw.hdr, Raw.mk']

theorem xcopy (h : Hdr) (cmd : Cmd) (d : RegCode) (a : RegCode) (b : RegCode) (c : RegCode) : Statement (.xcopy h cmd d a b c) := by
  intro r hw hr
  cases hr
  simp [decodeRaw, decodeC, need, guardE, fn0, Raw.form3, Raw.hdr, Raw.mk', Raw.cmd]

theorem xgath (h : Hdr) (cmd : Cmd) (d : RegCode) (a : RegCode) (b : RegCode) (c : RegCode) : Statement (.xgath h cmd d a b c) := by
  intro r hw hr
  cases hr
  simp [decodeRaw, decodeC, need, guardE, fn0, Raw.form3, Raw.hdr, Raw.mk', Raw.cmd]

theorem xscat (h : Hdr) (cmd : Cmd) (d : RegCode) (a : RegCode) (b : RegCode) (c : RegCode) : Statement (.xscat h cmd d a b c) := by
  intro r hw hr
  cases hr
  simp [decodeRaw, decodeC, need, guardE, fn0, Raw.form3, Raw.hdr, Raw.mk', Raw.cmd]

theorem xpack (h : Hdr) (cv : CvD) (sat : Bool) (auto : Bool) (cmd : Cmd) (slot : BitVec 3) (d : RegCode) (a : RegCode) (b : RegCode) (c : RegCode) : Statement (.xpack h cv sat auto cmd slot d a b c) := by
  intro r hw hr
  cases hr
  cases sat <;> cases auto <;> simp [decodeRaw, decodeC, need, guardE, Raw.form3, Raw.hdr, Raw.mk', Raw.cmd]

theorem xunpk (h : Hdr) (cv : Cv) (sat : Bool) (cmd : Cmd) (slot : BitVec 3) (d : RegCode) (a : RegCode) (b : RegCode) (c : RegCode) : Statement (.xunpk h cv sat cmd slot d a b c) := by
  intro r hw hr
  cases hr
  cases sat <;> simp [decodeRaw, decodeC, need, guardE, Raw.form3, Raw.hdr, Raw.mk', Raw.cmd]

theorem xfill (h : Hdr) (cmd : Cmd) (d : RegCode) (a : RegCode) (b : RegCode) (c : RegCode) : Statement (.xfill h cmd d a b c) := by
  intro r hw hr
  cases hr
  simp [decodeRaw, decodeC, need, guardE, fn0, Raw.form3, Raw.hdr, Raw.mk', Raw.cmd]

theorem wtany (h : Hdr) (d : RegCode) (a : RegCode) : Statement (.wtany h d a) := by
  intro r hw hr
  cases hr
  simp [decodeRaw, decodeC, guardE, fn0, Raw.form0, Raw.hdr, Raw.mk']

theorem wtall (h : Hdr) (d : RegCode) (a : RegCode) : Statement (.wtall h d a) := by
  intro r hw hr
  cases hr
  simp [decodeRaw, decodeC, guardE, fn0, Raw.form0, Raw.hdr, Raw.mk']

theorem ffrdy (h : Hdr) (d : RegCode) (a : RegCode) : Statement (.ffrdy h d a) := by
  intro r hw hr
  cases hr
  simp [decodeRaw, decodeC, guardE, fn0, Raw.form0, Raw.hdr, Raw.mk']

theorem tagclr (h : Hdr) (a : RegCode) : Statement (.tagclr h a) := by
  intro r hw hr
  cases hr
  simp [decodeRaw, decodeC, guardE, fn0, Raw.form0, Raw.hdr, Raw.mk']

theorem cntwt (h : Hdr) (scope : Scope) (d : RegCode) (c : RegCode) (a : RegCode) (b : RegCode) : Statement (.cntwt h scope d c a b) := by
  intro r hw hr
  cases hr
  simp [decodeRaw, decodeC, need, guardE, fn0, Raw.form3, Raw.hdr, Raw.mk']

theorem rnginit (h : Hdr) (d : RegCode) (a : RegCode) (b : RegCode) (c : RegCode) : Statement (.rnginit h d a b c) := by
  intro r hw hr
  cases hr
  simp [decodeRaw, decodeC, guardE, fn0, Raw.form0, Raw.hdr, Raw.mk']

theorem rngnxt (h : Hdr) (d : RegCode) (a : RegCode) : Statement (.rngnxt h d a) := by
  intro r hw hr
  cases hr
  simp [decodeRaw, decodeC, guardE, fn0, Raw.form0, Raw.hdr, Raw.mk']

theorem launch (h : Hdr) (wait : Bool) (d : RegCode) (a : RegCode) : Statement (.launch h wait d a) := by
  intro r hw hr
  cases hr
  cases wait <;> simp [decodeRaw, decodeC, need, guardE, Raw.form0, Raw.hdr, Raw.mk']

theorem cjoin (h : Hdr) : Statement (.cjoin h) := by
  intro r hw hr
  cases hr
  simp [decodeRaw, decodeC, guardE, fn0, Raw.form0, Raw.hdr, Raw.mk']

theorem rte (h : Hdr) : Statement (.rte h) := by
  intro r hw hr
  cases hr
  simp [decodeRaw, decodeD, guardE, fn0, Raw.form0, Raw.hdr, Raw.mk']

theorem movx (h : Hdr) (d : RegCode) (code : BitVec 12) : Statement (.movx h d code) := by
  intro r hw hr
  cases hr
  simp [decodeRaw, decodeD, need, guardE, fnCase, Raw.form3, Raw.hdr, Raw.mk'] <;> omega

theorem movxW (h : Hdr) (a : RegCode) (code : BitVec 12) : Statement (.movxW h a code) := by
  intro r hw hr
  cases hr
  simp [decodeRaw, decodeD, need, guardE, fnCase, Raw.form3, Raw.hdr, Raw.mk'] <;> omega

theorem movxw (h : Hdr) (d : RegCode) (code : BitVec 12) : Statement (.movxw h d code) := by
  intro r hw hr
  cases hr
  simp [decodeRaw, decodeD, need, guardE, fnCase, Raw.form3, Raw.hdr, Raw.mk'] <;> omega

theorem movxwW (h : Hdr) (a : RegCode) (code : BitVec 12) : Statement (.movxwW h a code) := by
  intro r hw hr
  cases hr
  simp [decodeRaw, decodeD, need, guardE, fnCase, Raw.form3, Raw.hdr, Raw.mk'] <;> omega

theorem tlbiv (h : Hdr) (a : RegCode) (off : Word) : Statement (.tlbiv h a off) := by
  intro r hw hr
  cases hr
  simp [decodeRaw, decodeD, guardE, fn0, Raw.form2, Raw.hdr, Raw.mk']

theorem tlbia (h : Hdr) : Statement (.tlbia h) := by
  intro r hw hr
  cases hr
  simp [decodeRaw, decodeD, guardE, fn0, Raw.form0, Raw.hdr, Raw.mk']

theorem halttOthers (h : Hdr) : Statement (.halttOthers h) := by
  intro r hw hr
  cases hr
  simp [decodeRaw, decodeD, need, guardE, fnCase, Raw.form0, Raw.hdr, Raw.mk']

theorem halttRelease (h : Hdr) : Statement (.halttRelease h) := by
  intro r hw hr
  cases hr
  simp [decodeRaw, decodeD, need, guardE, fnCase, Raw.form0, Raw.hdr, Raw.mk']

theorem xdrainWait (h : Hdr) : Statement (.xdrainWait h) := by
  intro r hw hr
  cases hr
  simp [decodeRaw, decodeD, need, guardE, fnCase, Raw.form0, Raw.hdr, Raw.mk']

theorem xdrainCancel (h : Hdr) : Statement (.xdrainCancel h) := by
  intro r hw hr
  cases hr
  simp [decodeRaw, decodeD, need, guardE, fnCase, Raw.form0, Raw.hdr, Raw.mk']

theorem fltqAck (h : Hdr) (a : RegCode) : Statement (.fltqAck h a) := by
  intro r hw hr
  cases hr
  simp [decodeRaw, decodeD, need, guardE, fnCase, Raw.form0, Raw.hdr, Raw.mk']

theorem fltqResume (h : Hdr) : Statement (.fltqResume h) := by
  intro r hw hr
  cases hr
  simp [decodeRaw, decodeD, need, guardE, fnCase, Raw.form0, Raw.hdr, Raw.mk']

theorem fltqFail (h : Hdr) : Statement (.fltqFail h) := by
  intro r hw hr
  cases hr
  simp [decodeRaw, decodeD, need, guardE, fnCase, Raw.form0, Raw.hdr, Raw.mk']

theorem dumpr (h : Hdr) (d : RegCode) (a : RegCode) : Statement (.dumpr h d a) := by
  intro r hw hr
  cases hr
  simp [decodeRaw, decodeD, guardE, fn0, Raw.form0, Raw.hdr, Raw.mk']

theorem xresh (h : Hdr) (cmd : ReshCmd) (d : RegCode) (a : RegCode) (b : RegCode) : Statement (.xresh h cmd d a b) := by
  intro r hw hr
  cases hr
  simp [decodeRaw, decodeE, need, guardE, fn0, Raw.form3, Raw.hdr, Raw.mk', Raw.reshCmd]

theorem xredPush (h : Hdr) (scope : Scope) (tag : Option (BitVec 6)) (a : RegCode) (b : RegCode) (c : RegCode) : Statement (.xredPush h scope tag a b c) := by
  intro r hw hr
  cases hr
  simp [decodeRaw, decodeE, need, guardE, Raw.form3, Raw.hdr, Raw.mk', Raw.cmd]

theorem xredCancel (h : Hdr) (a : RegCode) : Statement (.xredCancel h a) := by
  intro r hw hr
  cases hr
  simp [decodeRaw, decodeE, guardE, Raw.form3, Raw.hdr, Raw.mk']

theorem xmcast (h : Hdr) (scope : Scope) (tag : Option (BitVec 6)) (a : RegCode) (b : RegCode) (c : RegCode) : Statement (.xmcast h scope tag a b c) := by
  intro r hw hr
  cases hr
  simp [decodeRaw, decodeE, need, guardE, fn0, Raw.form3, Raw.hdr, Raw.mk', Raw.cmd]

theorem cwait (h : Hdr) (scope : Scope) (d : RegCode) (c : RegCode) (a : RegCode) (b : RegCode) : Statement (.cwait h scope d c a b) := by
  intro r hw hr
  cases hr
  simp [decodeRaw, decodeE, need, guardE, fn0, Raw.form3, Raw.hdr, Raw.mk']

theorem pfence (h : Hdr) (vdn : Option RegCode) : Statement (.pfence h vdn) := by
  intro r hw hr
  cases hr
  cases vdn <;> simp [decodeRaw, decodeE, need, guardE, fnCase, Raw.form0, Raw.hdr, Raw.mk'] <;> rfl

theorem fetchLineArrival (core : Nat) (i : Nat) : Statement (.fetchLineArrival core i) := nofun

theorem pipeGroupChoice (core : Nat) (pipe : Nat) : Statement (.pipeGroupChoice core pipe) := nofun

theorem kdeadDetect (gk : Nat) : Statement (.kdeadDetect gk) := nofun

theorem sleepExpiry (gk : Nat) (lane : Nat) : Statement (.sleepExpiry gk lane) := nofun

theorem epochAdvance : Statement (.epochAdvance) := nofun

theorem l1LineExpiry (core : Nat) (i : Nat) : Statement (.l1LineExpiry core i) := nofun

theorem wtbDrain (core : Nat) (i : Nat) : Statement (.wtbDrain core i) := nofun

theorem homeAccess (core : Nat) (i : Nat) : Statement (.homeAccess core i) := nofun

theorem storeAck (core : Nat) (i : Nat) : Statement (.storeAck core i) := nofun

theorem loadFill (core : Nat) (i : Nat) : Statement (.loadFill core i) := nofun

theorem pageWalk (die : Nat) : Statement (.pageWalk die) := nofun

theorem runAheadStop (gk : Nat) : Statement (.runAheadStop gk) := nofun

theorem cardAccept (die : Nat) : Statement (.cardAccept die) := nofun

theorem cardStart (die : Nat) (cls : Nat) : Statement (.cardStart die cls) := nofun

theorem cardSegmentDone (die : Nat) (card : Nat) : Statement (.cardSegmentDone die card) := nofun

theorem cardComplete (die : Nat) (card : Nat) : Statement (.cardComplete die card) := nofun

theorem mldsComplete (plane : Nat) : Statement (.mldsComplete plane) := nofun

theorem mswapWavefront (plane : Nat) : Statement (.mswapWavefront plane) := nofun

theorem mstrRowWrite (plane : Nat) : Statement (.mstrRowWrite plane) := nofun

theorem dispatchDecision (part : Nat) (die : Nat) : Statement (.dispatchDecision part die) := nofun

theorem headUnitHold (part : Nat) (level : Nat) : Statement (.headUnitHold part level) := nofun

theorem planeSwitch (core : Nat) : Statement (.planeSwitch core) := nofun

theorem launchAccept (func : Nat) (queue : Nat) : Statement (.launchAccept func queue) := nofun

theorem teamEnd (team : Nat) : Statement (.teamEnd team) := nofun

theorem gridComplete (grid : Nat) : Statement (.gridComplete grid) := nofun

theorem spillReturn (grid : Nat) : Statement (.spillReturn grid) := nofun

theorem blockedUnitSwap (part : Nat) : Statement (.blockedUnitSwap part) := nofun

theorem timeSliceEnd (part : Nat) : Statement (.timeSliceEnd part) := nofun

theorem contextSave (core : Nat) (plane : Nat) : Statement (.contextSave core plane) := nofun

theorem contextDump (core : Nat) (plane : Nat) : Statement (.contextDump core plane) := nofun

theorem contextResume (func : Nat) (image : Nat) (core : Nat) : Statement (.contextResume func image core) := nofun

theorem notify : Statement (.notify) := nofun

theorem notifyEnqueue : Statement (.notifyEnqueue) := nofun

theorem gangAttempt : Statement (.gangAttempt) := nofun

theorem meterReport (func : Nat) : Statement (.meterReport func) := nofun

theorem powerSample (watts : Nat) : Statement (.powerSample watts) := nofun

theorem trowelRound (m : Nat) : Statement (.trowelRound m) := nofun

theorem forwardingEnd (m : Nat) : Statement (.forwardingEnd m) := nofun

theorem movedTimeout (core : Nat) (i : Nat) : Statement (.movedTimeout core i) := nofun

theorem responseSlotTimeout (core : Nat) (i : Nat) : Statement (.responseSlotTimeout core i) := nofun

theorem earlyRetry : Statement (.earlyRetry) := nofun

theorem collectiveGroupBroken (group : Nat) : Statement (.collectiveGroupBroken group) := nofun

theorem rekeyStart (dom : Nat) : Statement (.rekeyStart dom) := nofun

theorem keyInstall (dom : Nat) : Statement (.keyInstall dom) := nofun

theorem rekeyBarrierArrival (dom : Nat) (member : Nat) : Statement (.rekeyBarrierArrival dom member) := nofun

theorem rekeyDone (dom : Nat) : Statement (.rekeyDone dom) := nofun

theorem seqExhausted (dom : Nat) : Statement (.seqExhausted dom) := nofun

theorem divisionComplete (gk : Nat) (i : Nat) : Statement (.divisionComplete gk i) := nofun

theorem drainComplete (plane : Nat) : Statement (.drainComplete plane) := nofun

theorem planeCleared (plane : Nat) : Statement (.planeCleared plane) := nofun

theorem migResume (m : Nat) : Statement (.migResume m) := nofun

theorem deviceReady : Statement (.deviceReady) := nofun

theorem remoteRequestReceive (pkt : Packet) : Statement (.remoteRequestReceive pkt) := nofun

theorem s2inv (func : Nat) (fpa : Nat) (len : Nat) : Statement (.s2inv func fpa len) := nofun

theorem migCopyReceive (m : Nat) (pkt : Packet) : Statement (.migCopyReceive m pkt) := nofun

theorem priResponse (func : Nat) (fpa : Nat) (ok : Bool) : Statement (.priResponse func fpa ok) := nofun

theorem queueSubmit (func : Nat) (queue : Nat) (pasid : Bool) (rec : List Byte) : Statement (.queueSubmit func queue pasid rec) := nofun

theorem resetQueue (func : Nat) (queue : Nat) : Statement (.resetQueue func queue) := nofun

theorem resetEngine (die : Nat) (cls : EngCls) (i : Nat) : Statement (.resetEngine die cls i) := nofun

theorem resetPartition (part : Nat) : Statement (.resetPartition part) := nofun

theorem resetDie (die : Nat) : Statement (.resetDie die) := nofun

theorem resetFlr : Statement (.resetFlr) := nofun

theorem resetDevice : Statement (.resetDevice) := nofun

theorem moduleResetPin : Statement (.moduleResetPin) := nofun

theorem part (t : PartTarget) (p : Nat) : Statement (.part t p) := nofun

theorem lend (core : Nat) (src : Nat) (dst : Nat) : Statement (.lend core src dst) := nofun

theorem recallCore (core : Nat) (src : Nat) (dst : Nat) : Statement (.recallCore core src dst) := nofun

theorem gang (l : List (Nat × Nat × Nat)) : Statement (.gang l) := nofun

theorem qthaw (func : Nat) (queue : Nat) : Statement (.qthaw func queue) := nofun

theorem ringset (base : Nat) (len : Nat) : Statement (.ringset base len) := nofun

theorem metrd (func : Nat) (fpa : Nat) : Statement (.metrd func fpa) := nofun

theorem s2set (func : Nat) (root : Nat) : Statement (.s2set func root) := nofun

theorem vfFlr (func : Nat) : Statement (.vfFlr func) := nofun

theorem vfEnableClear : Statement (.vfEnableClear) := nofun

theorem metreqWrite (func : Nat) (v : Nat) : Statement (.metreqWrite func v) := nofun

theorem fqSetupWrite (func : Nat) (isLen : Bool) (v : Nat) : Statement (.fqSetupWrite func isLen v) := nofun

theorem lpSaveRegWrite (func : Nat) (r : LpReg) (v : Nat) : Statement (.lpSaveRegWrite func r v) := nofun

theorem errWordClear (func : Nat) (i : Nat) (v : Nat) : Statement (.errWordClear func i v) := nofun

theorem ringheadWrite (v : Nat) : Statement (.ringheadWrite v) := nofun

theorem overflowClear : Statement (.overflowClear) := nofun

theorem domfailClear (func : Nat) : Statement (.domfailClear func) := nofun

theorem pwrlimWrite (v : Nat) : Statement (.pwrlimWrite v) := nofun

theorem registerWrite (r : HostReg) (v : Nat) : Statement (.registerWrite r v) := nofun

theorem keystoneRestart (failed : Bool) : Statement (.keystoneRestart failed) := nofun

theorem ageingReplan (retire : Option Nat) : Statement (.ageingReplan retire) := nofun

theorem powerOn : Statement (.powerOn) := nofun

theorem migStart (m : Nat) : Statement (.migStart m) := nofun

theorem migAccept (m : Nat) : Statement (.migAccept m) := nofun

theorem migAbort (m : Nat) : Statement (.migAbort m) := nofun

theorem migForce (m : Nat) : Statement (.migForce m) := nofun

theorem migClear (m : Nat) : Statement (.migClear m) := nofun

theorem remoteResponseReceive (pkt : Packet) : Statement (.remoteResponseReceive pkt) := nofun

theorem fmVdnBind (func : Nat) (vdn : Nat) : Statement (.fmVdnBind func vdn) := nofun

theorem fmVdnTableWrite (vdn : Nat) (v : Nat) : Statement (.fmVdnTableWrite vdn v) := nofun

theorem fmRedirectWrite (i : Nat) (v : Nat) : Statement (.fmRedirectWrite i v) := nofun

theorem fmMeshSet (func : Nat) (mesh : Nat) (members : List Nat) : Statement (.fmMeshSet func mesh members) := nofun

theorem slotreq (pkt : Packet) : Statement (.slotreq pkt) := nofun

theorem slotgrant (pkt : Packet) : Statement (.slotgrant pkt) := nofun

theorem push (pkt : Packet) : Statement (.push pkt) := nofun

theorem result (pkt : Packet) : Statement (.result pkt) := nofun

theorem mcast (pkt : Packet) : Statement (.mcast pkt) := nofun

theorem a2a (pkt : Packet) : Statement (.a2a pkt) := nofun

theorem cancel (pkt : Packet) : Statement (.cancel pkt) := nofun

theorem ack (pkt : Packet) : Statement (.ack pkt) := nofun

theorem domainJoin (func : Nat) (dom : Nat) (epoch : Nat) (ok : Bool) (pre : Bool) (leads : Bool) (members : List Nat) : Statement (.domainJoin func dom epoch ok pre leads members) := nofun

theorem hostMemAccess (a : HostAcc) : Statement (.hostMemAccess a) := nofun

theorem birsp (ma : Nat) (bytes : List Byte) : Statement (.birsp ma bytes) := nofun

theorem hostSnoop (ma : Nat) : Statement (.hostSnoop ma) := nofun

theorem atsInvalidation (func : Nat) (va : Nat) (len : Nat) : Statement (.atsInvalidation func va len) := nofun

theorem softError (p : ErrPlace) (corrected : Bool) : Statement (.softError p corrected) := nofun

theorem vfEnableSet (n : Nat) : Statement (.vfEnableSet n) := nofun

theorem bindRecordWrite (part : Nat) (slot : Nat) (rec : List Byte) : Statement (.bindRecordWrite part slot rec) := nofun

theorem chipScratchpadGrant (func : Nat) (granules : List Nat) : Statement (.chipScratchpadGrant func granules) := nofun

theorem domainLeave (func : Nat) : Statement (.domainLeave func) := nofun

theorem airanPortChange (port : Nat) (up : Bool) : Statement (.airanPortChange port up) := nofun

theorem configImageWrite (ver : Nat) (ok : Bool) : Statement (.configImageWrite ver ok) := nofun

end RoundTrip

end Sys2Proof.Laws
end

