-- ==== Sys2Proof/Tests/Slice0.lean ====
section
/-!
SUPPORT. Tests: ill-formed terms that WellFormed refuses; words written out from the encoding tables and the worked examples of
spec/ that decode to the instructions they stand for; single steps whose results are the spec's worked examples; and for every
statement of Certificates/Slice0 concrete states and operands that meet its hypotheses.
-/
namespace Sys2Proof.Tests

set_option Elab.async false

open Sys2Proof Sys2Proof.Machine

/-- Issue fields: guard P7, no scoreboard, STALL 0. -/
def h0 : Hdr := ⟨7, false, 0, 0, false, 0⟩

def hs (stall : BitVec 4) : Hdr := ⟨7, false, 0, 0, false, stall⟩

/-! ### WellFormed refuses ill-formed terms -/

theorem test_wf_wsb : Instr.wfErr (.ld ⟨7, false, 0, 7, false, 0⟩ .w32 4 6 0) = some .wsb := by decide
theorem test_wf_operand_pair : Instr.wfErr (.iadd64 h0 4 7 (.imm 0)) = some .operand := by decide
theorem test_wf_operand_pred : Instr.wfErr (.isetp h0 .ltS 8 4 (.imm 0)) = some .operand := by decide
theorem test_wf_run : Instr.wfErr (.cvtpk h0 .rn false 224 4 6 0) = some .run := by decide
theorem test_wf_slot : Instr.wfErr (.bra h0 1 5) = some .slot := by decide
theorem test_wf_kIndex : Instr.wfErr (.kjoin h0 12) = some .kIndex := by decide
theorem test_wf_laneWidth : Instr.wfErr (.shfl h0 .pick 4 5 (.imm 0 6) 0) = some .laneWidth := by decide
theorem test_wf_rows : Instr.wfErr (.mzero h0 ⟨0, 200, 100⟩) = some .rows := by decide
theorem test_wf_opSize : Instr.wfErr (.atom h0 .fadd .d64 .relaxed .device 4 6 8) = some .opSize := by decide
theorem test_wf_ord : Instr.wfErr (.fence h0 .relaxed .device) = some .ord := by decide
theorem test_wf_sigSlot : Instr.wfErr (.sigrdWord h0 4 3 0) = some .sigSlot := by decide
theorem test_wf_cmdScope : Instr.wfErr (.xcopy h0 ⟨.group, false, none⟩ 6 8 10 12) = some .cmdScope := by decide
theorem test_wf_barZero : Instr.wfErr (.xcopy h0 ⟨.team, true, none⟩ 255 8 10 12) = some .barZero := by decide

/-! ### Decoding: the words that the spec writes out, bits [31:0] last -/

/-- 02 Table 2-1 and the worked guard example, 03 R60, R61, R72. -/
theorem test_decode_int :
    decodeTableWord 96 0x00000000FF06050438002004 = some (.iadd (hs 2) .wrap 4 5 (.reg 6)) ∧
    decodeTableWord 96 0x00000064FFFF0B0A54001004 = some (.iadd ⟨2, true, 0, 0, false, 1⟩ .wrap 10 11 (.imm 100)) ∧
    decodeTableWord 96 0x00000001FF08060438001006 = some (.iaddx (hs 1) .add 4 6 8 1) ∧
    decodeTableWord 96 0x000000020109070538000106 = some (.iaddx h0 (.addc 1) 5 7 9 2) ∧
    decodeTableWord 96 0x010000000BFF020B78000009 = some (.imad h0 11 2 (.imm 0x01000000) 11) := by decide +kernel

/-- 05 Table 5-1 (FADD.rz.sub: MAJ 0x40, FN = 1 + 4) and the worked CVTPK. -/
theorem test_decode_fp :
    decodeTableWord 96 0x00000000FF06050438000540 = some (.fadd h0 .rz true 4 5 (.reg 6)) ∧
    decodeTableWord 96 0x00000002FF0C0814F8005057 = some (.cvtpk (hs 5) .rn false 20 8 12 2) := by decide +kernel

/-- 06: CALL, RET, NOP, SLEEP and a branch 2 lines back to slot 1 (IMM 0xFFFF_FFF1). -/
theorem test_decode_ctl :
    decodeTableWord 96 0x00000080FFFFFF2878001062 = some (.call (hs 1) 40 16 0) ∧
    decodeTableWord 96 0x00000000FFFF28FF38000064 = some (.ret h0 40) ∧
    decodeTableWord 96 0x00000000FFFFFFFF38000067 = some (.nop h0) ∧
    decodeTableWord 96 0x00000000FF14FFFF3800006A = some (.sleep h0 (.reg 20)) ∧
    decodeTableWord 96 0xFFFFFFF1FFFFFFFF78000060 = some (.bra h0 (-2) 1) := by decide +kernel

/-- 06 Table 6-2 (LD.16.s has FN 9), 15 Table 15-1 and the worked BARARV. -/
theorem test_decode_mem :
    decodeTableWord 96 0x00000400FFFF0410B8020270 = some (.ld ⟨7, false, 0, 1, false, 0⟩ .w32 16 4 0x400) ∧
    decodeTableWord 96 0x00000000FFFF0208B8020970 = some (.ld ⟨7, false, 0, 1, false, 0⟩ .s16 8 2 0) ∧
    decodeTableWord 96 0x0000000301FF0206F80201B0 = some (.bararv ⟨7, false, 0, 1, false, 0⟩ true .cluster 6 1 2) := by decide +kernel

/-- 09: KWAIT K1 and REDUX.add. -/
theorem test_decode_grp :
    decodeTableWord 96 0x00000001FFFFFFFFF8000082 = some (.kwait h0 1) ∧
    decodeTableWord 96 0x00000000FFFF060738000088 = some (.redux h0 .add 7 6) := by decide +kernel

/-- 11: the worked MSTR.set; 18: the worked XGATH; 26: the worked XRED.push; 25: PFENCE.all; 19: RTE and HALTT.others. -/
theorem test_decode_mat_eng_net_sys :
    decodeTableWord 96 0x00004011FF0B0AFFF8020192 = some (.mstr ⟨7, false, 0, 1, false, 0⟩ true false 10 11 255 1 1 64) ∧
    decodeTableWord 96 0x00000245FFE6E4FFF80400C1 = some (.xgath ⟨7, false, 0, 2, false, 0⟩ ⟨.team, false, some 5⟩ 255 228 230 255) ∧
    decodeTableWord 96 0x000006430D0C0AFFF80400E1 = some (.xredPush ⟨7, false, 0, 2, false, 0⟩ .device (some 3) 10 12 13) ∧
    decodeTableWord 96 0x00000000FFFFFFFF380000E4 = some (.pfence h0 none) ∧
    decodeTableWord 96 0x00000000FFFFFFFF380000D0 = some (.rte h0) ∧
    decodeTableWord 96 0x00000000FFFFFFFF380000D5 = some (.halttOthers h0) := by decide +kernel

/-- 02 R28: MAJ 0, an unlisted FN, a FORM that the instruction has not, a reserved bit of IMM and a scope above 11. -/
theorem test_decode_refuses :
    decodeTableWord 96 0 = none ∧ decodeTableWord 96 0x00000000FF06050438003004 = (some (.iadd (hs 3) .wrap 4 5 (.reg 6)) : Option Instr) ∧
    decodeTableWord 96 0x00000000FF06050438000304 = none ∧ decodeTableWord 96 0x00000000FF060504B8000004 = none ∧
    decodeTableWord 96 0x00000001FF06050438000004 = none ∧ decodeTableWord 96 0x0000000C01FF0206F80201B0 = none := by decide +kernel

/-! ### Single steps -/

/-- The machine of `State.withFetchWord` with the word of `i`, every lane holding the G registers `g`. -/
def at0 (i : Instr) (g : Table Word := []) : State :=
  let s := State.reset.withFetchWord 96 ((encode i).getD 0).toNat
  s.setGroup 0 { s.group 0 with lanes := List.replicate 32 { freshLane with g := g } }

/-- The state after one step, if there is one. -/
def next (s : State) : Option State := match step s with | .next t => some t | .fault _ | .refused _ => none

/-- The last value in program order of register `r` of lane 3 after one step of `i`. -/
def out (i : Instr) (r : RegCode) (g : Table Word := []) : Option Word := (next (at0 i g)).map (fun t => (t.group 0).rdLast t.clock 3 r)

/-- 03 R59, R60: the saturating forms, and the carry out. -/
theorem test_iadd : out (.iadd h0 .sat 4 5 (.imm 0x100)) 4 [(5, 0x7FFFFFF0)] = some 0x7FFFFFFF ∧
    out (.iadd h0 .wrap 4 5 (.reg 6)) 4 [(5, 0xFFFFFFFF), (6, 2)] = some 1 := by decide +kernel
theorem test_isub : out (.isub h0 .usat 4 5 (.imm 5)) 4 [(5, 3)] = some 0 := by decide +kernel
theorem test_iaddx : ((next (at0 (.iaddx h0 .add 4 6 8 1) [(6, 0xFFFFFFFF), (8, 1)])).map (fun t => (t.group 0).lastP 3 1)) = some true := by
  decide +kernel

/-- 03 Table 3-4. -/
theorem test_division : idivVal true 7 0xFFFFFFFE = 0xFFFFFFFD ∧ iremVal true 0xFFFFFFF9 2 = 0xFFFFFFFF ∧
    idivVal true 0x80000000 0xFFFFFFFF = 0x80000000 ∧ iremVal true 0x80000000 0xFFFFFFFF = 0 ∧
    idivVal false 0x2A 0 = 0xFFFFFFFF ∧ iremVal true 0xFFFFFFF9 0 = 0xFFFFFFF9 := by decide +kernel

/-- 03 R78: the worked IDP4.ss; R71: the worked selectors. -/
theorem test_idp4 : out (.idp4 h0 true true false 4 5 (.reg 6) 7) 4 [(5, 0x80FF0203), (6, 0x7F010405), (7, 0x7FFFFF00)] =
    some 0x7FFFBF96 := by decide +kernel
theorem test_prmt : out (.prmt h0 4 5 6 (.imm 0x00443)) 4 [(5, 0x11223344)] = some 0x44332211 ∧
    out (.prmt h0 4 5 6 (.imm 0xC675B)) 4 [(5, 0x11223344)] = some 0x22CC4488 := by decide +kernel

/-- 03 R65: (A AND B) OR NOT C has the lut 0x8F; R66: amounts at and above the width. -/
theorem test_lop3 : out (.lop3 h0 4 5 6 7 0x8F) 4 [(5, 0xF0F0F0F0), (6, 0xFF00FF00), (7, 0xFFFFFFFF)] = some 0xF000F000 := by decide +kernel
theorem test_sar : out (.sar h0 4 5 (.imm 32)) 4 [(5, 0x80000000)] = some 0xFFFFFFFF ∧ out (.shl h0 4 5 (.imm 32)) 4 [(5, 1)] = some 0 := by
  decide +kernel

/-- 05: FFMA with one rounding, FSCALE into the subnormals, FRND.rn of −0.4. -/
theorem test_ffma : out (.ffma h0 .rn false false 4 5 (.reg 6) 7) 4 [(5, 0x3F800001), (6, 0x3F7FFFFE), (7, 0xBF800000)] = some 0xA8800000 := by
  decide +kernel
theorem test_fscale : out (.fscale h0 .rn 4 5 (.imm 0xFFFFFF6B)) 4 [(5, 0x3FC00000)] = some 2 := by decide +kernel
theorem test_frnd : out (.frnd h0 .rn 4 5) 4 [(5, 0xBECCCCCD)] = some 0x80000000 := by decide +kernel

/-- 06: the branch of 02 R41 with IMM 0xFFFF_FFF1 from line 32 goes 2 lines back to slot 1; a lane that is not active goes on. -/
theorem test_branchTarget : branchTarget 0x1000 (-2) 1 = 0xF81 := by decide +kernel

/-- 09 R163 and R158: ELECT sets P2 in lane 0 alone; KWAIT on an empty K1 goes on. -/
theorem test_elect : ((next (at0 (.elect h0 2))).map (fun t => ((t.group 0).lastP 0 2, (t.group 0).lastP 3 2))) = some (true, false) := by
  decide +kernel
theorem test_kwait : ((next (at0 (.kwait h0 1))).map (fun t => (((t.group 0).lane 3).pc, ((t.group 0).lane 3).wait))) = some (1, .none) := by
  decide +kernel

/-- 10 Table 10-2: activations 1.0 against 2^24, 1, 1, 1 and 1 at inputs 0, 1, 8, 16 and 17 of column 0. -/
theorem test_accRow :
    let x (n : Nat) : Nat := toX (.fin false n 1)
    let w : WPlane := { w := [(0, x (2 ^ 24)), (64, x 1), (512, x 1), (1024, x 1), (1088, x 1)] }
    (accRow w (List.replicate 64 (.fin false 1 1)) (List.replicate 64 0))[0]? = some 0x4B800001 := by decide +kernel

/-- 12 Table 12-2: the weights 2, 2, 1 of the functions 2, 5, 7 give the order 2, 5, 7, 2, 5. -/
theorem test_smoothPick :
    let go (r : List Nat × Table Int) (_ : Nat) : List Nat × Table Int :=
      match smoothPick r.2 id [(2, 2), (5, 2), (7, 1)] with | some (w, t) => (r.1 ++ [w], t) | none => r
    ((List.range 5).foldl go ([], [])).1 = [2, 5, 7, 2, 5] := by decide +kernel

/-- 23 Table 23-5. -/
theorem test_predOf : predOf 1094713344 100 = 11197133 ∧ predOf 155189248 100 = 1801892 ∧ predOf 24043520 100 = 490435 := by decide +kernel

/-- 26 R441: 2^24, 1, 1 and −2^24 sum to 2.0 in the switch. -/
theorem test_reduceTile :
    (reduceTile { axes := 1, elt := 0, op := 0, skip := 0, tileb := 4, ntile := 1 }
      [leBytes 0x4B800000 4, leBytes 0x3F800000 4, leBytes 0x3F800000 4, leBytes 0xCB800000 4]).1 = leBytes 0x40000000 4 := by decide +kernel

/-- 01 R26, 19 R333: a load of 4 bytes at 0x20006 with a handler installed enters it with cause 4 and the address. -/
theorem test_misalign :
    let s := at0 (.ld h0 .w32 8 2 0) [(2, 0x20006)]
    ((next (s.setFunc 0 { s.func 0 with xvec := 0x8000 })).map (fun t => let l := (t.group 0).lane 0
      (l.xcause, l.xaddr, l.pc, l.xpc))) = some (4, 0x20006, 0x8000, 0) := by decide +kernel

/-- 19 R346, R20: RTE in user mode is ILLEGAL; in supervisor mode it goes to XPC. -/
theorem test_rte :
    let s := at0 (.rte h0)
    ((next (s.setFunc 0 { s.func 0 with xvec := 0x8000 })).map (fun t => ((t.group 0).lane 0).xcause)) = some 1 ∧
    ((next (s.setGroup 0 { s.group 0 with lanes := List.replicate 32 { freshLane with xstate := 1, xpc := 0x1002 } })).map
      (fun t => (((t.group 0).lane 5).pc, ((t.group 0).lane 5).sup))) = some (0x1002, false) := by decide +kernel

/-! ### States for the witnesses -/

/-- What an instruction's common checks need, as a Bool: `ready_sound`. -/
def ready (i : Instr) (s : State) (runs ex : List Opnd := []) : Bool :=
  match i.info with
  | some f => issuesB s f (f.opnds ++ runs) ex (s.ctx f)
  | none => false

/-- The context of an unguarded instruction. -/
def cx (s : State) : Ctx := s.ctx ⟨h0, .int, 4, [], none⟩

def completes (i : Instr) (s : State) : Bool := match exec i s with | .next _ => true | .fault _ | .refused _ => false

theorem ready_sound (i : Instr) (s : State) (runs ex : List Opnd) (h : ready i s runs ex = true) :
    ∃ f, i.info = some f ∧ Issues s f (f.opnds ++ runs) ex (s.ctx f) := by
  unfold ready at h
  split at h
  · exact ⟨_, by assumption, issuesB_iff _ _ _ _ _ h⟩
  · simp at h

/-- One group of 32 lanes of function 0, each with the registers `g`, about to issue. -/
def S (g : Table Word := []) : State := at0 (.nop h0) g

def onGroup (f : Group → Group) (s : State) : State := s.setGroup 0 (f (s.group 0))
def onLanes (f : Lane → Lane) (s : State) : State := onGroup (fun g => { g with lanes := g.lanes.map f }) s
def onTeam (f : Team → Team) (s : State) : State := match s.team? 0 with | some t => s.setTeam 0 (f t) | none => s
def onFunc (f : Func → Func) (s : State) : State := s.setFunc 0 (f (s.func 0))
def onCore (f : Core → Core) (s : State) : State := s.setCore 0 (f (s.core 0))
def onPlane (f : Plane → Plane) (s : State) : State := s.setPlane 0 (f (s.plane 0))

/-- The same in supervisor mode, and with lane 0 alone. -/
def su (s : State) : State := onLanes (fun l => { l with xstate := 1 }) s
def solo (s : State) : State := { onGroup (fun g => { g with live := 1 }) s with cur := some ⟨0, 1, .single⟩ }

/-- Pages 0 to 15 of function 0 map to themselves, cached in core 0 and die 0. -/
def idTlb : Tlb := { s1 := [⟨0, 0, 16, 0, 0x1F⟩], s2 := [⟨0, 0, 16, 0, 0x0F⟩] }
def mapped (s : State) : State :=
  (onCore (fun k => { k with tlb := idTlb }) (onFunc (fun f => { f with s1root := 1 }) s)).setDie 0 { (s.die 0) with tlb := idTlb }

/-- The translation of an address of those pages. -/
def idTr (a : Nat) : Tr := ⟨a, .loc a, 0x1F, false⟩

/-- A launch record with scratchpad, banks, tags and BF16 in slot 0. -/
def richRec : Rec := { regs := 224, spad := 64, qb := 4, tags := 8, slots := [3] }
def rich (s : State) : State := onTeam (fun t => { t with lrec := richRec, qmask := 15 }) s

/-! ### Witnesses: the fixed-latency and float instructions (03, 04, 05) -/

theorem witness_int : ([.mov h0 false 4 (.reg 5), .mov h0 true 4 (.imm 5), .movs h0 4 0, .movsw h0 4 0, .iadd64 h0 4 6 (.reg 8), .isub64 h0 4 6 (.imm 1),
    .lea h0 true 4 6 8 3, .iadd h0 .sat 4 5 (.imm 1), .isub h0 .usat 4 5 (.reg 6), .iaddx h0 (.addc 1) 4 5 6 2, .imul h0 4 5 (.imm 3),
    .imulh h0 .su 4 5 (.reg 6), .imad h0 4 5 (.reg 6) 7, .imadw h0 true 4 5 (.reg 6) 8, .imin h0 true 4 5 (.reg 6), .imax h0 false 4 5 (.reg 6),
    .iabs h0 true 4 5, .idp4 h0 true false true 4 5 (.reg 6) 7, .idp2 h0 false true false 4 5 (.reg 6) 7, .and h0 4 5 (.reg 6), .or h0 4 5 (.imm 6),
    .xor h0 255 5 (.reg 6), .andn h0 4 255 (.reg 6), .shl h0 4 5 (.imm 32), .shr h0 4 5 (.reg 6), .sar h0 4 5 (.imm 31), .rol h0 4 5 (.reg 6),
    .fshf h0 true 4 5 6 (.imm 31), .shl64 h0 4 6 (.imm 64), .shr64 h0 true 4 6 (.reg 8), .lop3 h0 4 5 6 7 0x8F, .popc h0 4 5, .clz h0 4 5,
    .brev h0 4 5, .bfx h0 true 4 5 (.imm 0x2004), .bfi h0 4 5 6 (.reg 7), .prmt h0 4 5 6 (.imm 0x443), .isetp h0 .geU 1 5 (.reg 6),
    .icmps h0 .ltS 4 5 (.imm 6), .isetp64 h0 .eq 7 6 (.reg 8), .sel h0 true 4 6 (.reg 8) 1, .plop h0 1 2 3 4 0x80, .p2g h0 4, .g2p h0 5 127,
    .idiv h0 true 4 5 (.reg 6), .irem h0 false 4 5 (.imm 0)] : List Instr).all (fun i => ready i (S [(5, 7), (6, 8)]) && completes i (S [(5, 7), (6, 8)])) = true ∧
    specialAssigned 0 = true ∧ (cx (S [])).act ≠ 0 := by decide +kernel

theorem witness_fp : ([.fadd h0 .rd true 4 5 (.imm 0x3F800000), .fmul h0 .ru 4 5 (.reg 6), .ffma h0 .rz true false 4 5 (.reg 6) 7, .fmin h0 4 5 (.reg 6),
    .fmax h0 4 5 (.reg 6), .fsetp h0 .neu 1 5 (.reg 6), .fclass h0 .bf16 4 5, .fdiv h0 4 5 (.reg 6), .frcp h0 4 5, .fsqrt h0 4 5, .frsq h0 4 5,
    .fex2 h0 4 5, .flg2 h0 4 5, .fsinpi h0 4 5, .fcospi h0 4 5, .ftanh h0 4 5, .hadd2 h0 true .rn true 4 5 (.reg 6), .hmul2 h0 false .rz 4 5 (.reg 6),
    .hfma2 h0 true .rn 4 5 (.reg 6) 7, .hmnmx2 h0 false true 4 5 (.reg 6), .cvtff h0 .rn true .f32 .bf16 4 5, .cvtfi h0 .rz .s64 true 4 5,
    .cvtif h0 .rn .u64 4 6, .frnd h0 .ru 4 5, .fscale h0 .rn 4 5 (.imm 0xFFFFFFFF), .fgetexp h0 4 5] : List Instr).all
      (fun i => ready i (S [(5, 0x3F800001), (6, 0x3F000000)]) && completes i (S [(5, 0x3F800001), (6, 0x3F000000)])) = true := by decide +kernel

/-- CVTPK and CVTUNPK through a BF16 slot: the runs of R113. -/
theorem witness_cvtpk :
    let s := rich (S [])
    let c := cx s
    (pkShape (c.t.lrec.slot 0)).isSome = true ∧
    (match pkRuns c.t.lrec true 20 8 12 0, (Instr.cvtpk h0 .slot true 20 8 12 0).info with
     | some ops, some f => issuesB s f ops [] (s.ctx f) | _, _ => false) = true ∧
    (match pkRuns c.t.lrec false 20 8 12 0, (Instr.cvtunpk h0 .rn true 20 8 12 0).info with
     | some ops, some f => issuesB s f ops [] (s.ctx f) | _, _ => false) = true := by decide +kernel

/-! ### Witnesses: values, issue and traps -/

/-- DivisionIdentity, NanOperandsGiveCanonicalNan, MinimumMaximumOrder and RoundingKeepsRepresentable: operands of each clause. -/
theorem witness_values : (0xFFFFFFFE : Word) ≠ 0 ∧ 0 < (iremVal true 7 0xFFFFFFFE).toInt ∧ (iremVal true 0xFFFFFFF9 2).toInt < 0 ∧
    (f32v 0xFF800001).isNan = true ∧ (f32v 0x7F800000).isNan = false ∧ 0x7F800000 < (0xFF800001 : Word).toNat % 2 ^ 31 ∧
    ¬ 0x7F800000 < (0xFF800000 : Word).toNat % 2 ^ 31 := by decide +kernel

/-- DivisionIssuesAndCompletes: after IDIV has issued, a division is outstanding; a guard of 0 in every lane. -/
theorem witness_divisionComplete :
    ((next (at0 (.idiv ⟨7, false, 0, 1, false, 0⟩ true 4 5 (.imm 2)) [(5, 7)])).map (fun t => ((t.group 0).divs[0]?.isSome,
      completes (.divisionComplete 0 0) t, (t.group 0).outs.map (fun o => o.wsb), tget 0 (t.group 0).sb 0))) = some (true, true, [1], 1) ∧
    ready (.irem ⟨7, true, 0, 1, false, 0⟩ true 4 5 (.imm 2)) (S []) = true ∧ ((S []).ctx ⟨⟨7, true, 0, 1, false, 0⟩, .int, 0, [], none⟩).act = 0 := by
  decide +kernel

def sameNext (o : Host.Outcome State Fault Refusal) (t : State) : Bool :=
  match o with | .next u => decide (u = t) | .fault _ | .refused _ => false

theorem sameNext_iff (o : Host.Outcome State Fault Refusal) (t : State) (h : sameNext o t = true) : o = .next t := by
  unfold sameNext at h
  split at h
  · simpa using h
  · simp at h
  · simp at h

/-- What `witness_gives` issues: G4, or S0, = G5 + 1. -/
def addI (d : RegCode) : Instr := .iadd h0 .wrap d 5 (.imm 1)
def addS : State := S [(5, 7)]
def addF (d : RegCode) : Info := ⟨h0, .int, 2, [wr d, rd 5], none⟩

/-- RegisterWritesBecomeVisible, SharedRegisterWrites, FixedLatencyFrame, IssueAdvances: an instruction that issues, gives its writes
and goes to a next state; of a G register and of an S register. -/
theorem witness_gives (d : RegCode) (h : d = 4 ∨ d = 224) : Ready (addI d) addS (addF d) (cx addS) ∧
    Gives (addI d) addS (cx addS) (fun l => wr1 l d 8) ∧ (∃ t, exec (addI d) addS = .next t) ∧
    (∀ k, ∀ e ∈ wr1 k d 8, e.lane = k) ∧ 3 < (cx addS).g.lanes.length ∧ ((cx addS).g.lane 3).wait = .none ∧
    (cx addS).g.live.getLsbD 3 = true := by
  have hi : ∀ f, (addI d).info = some f → f = addF d := by
    rcases h with rfl | rfl
    · intro f hf; exact (Option.some.inj hf).symm
    · intro f hf; exact (Option.some.inj hf).symm
  have hr : Ready (addI d) addS (addF d) (cx addS) := by
    refine ⟨by rcases h with rfl | rfl <;> rfl, ?_⟩
    apply issuesB_iff
    rcases h with rfl | rfl <;> decide +kernel
  have hs : exec (addI d) addS = .next ((cx addS).wrote (addF d) (fun l => wr1 l d 8)) := by
    apply sameNext_iff
    rcases h with rfl | rfl <;> decide +kernel
  refine ⟨hr, fun f hf => ?_, ⟨_, hs⟩, ?_, by decide +kernel, by decide +kernel, by decide +kernel⟩
  · rw [hi f hf.1]; exact hs
  · intro k e he
    rcases h with rfl | rfl
    · simp [wr1] at he; subst he; rfl
    · simp [wr1] at he; subst he; rfl

/-- CommonChecks: a scoreboard that is not zero, a register at the register count, a system instruction in user mode, a lane with CHK
that would read a register still in flight, a marked register. -/
theorem witness_commonChecks :
    let late : Flight := { dest := 5, val := 0, due := some 9, known := true, tok := 0, mark := none }
    let s1 := onGroup (fun g => { g with sb := [(0, 1)] }) (S [])
    let s4 := onLanes (fun l => { l with xstate := 4, flights := [late] }) (S [])
    let s5 := onLanes (fun l => { l with marks := [(5, 0x123)] }) (S [])
    (cx s1).g.ready s1.clock ⟨7, false, 1, 0, false, 0⟩ .single = false ∧ (cx (S [])).g.ready 0 h0 .single = true ∧
    ([wr 224 , rd 223].any (fun o => !opInCount 223 o) = true) ∧ (cx (S [])).sup = false ∧
    ((cx s4).g.lane 0).chk = true ∧ (cx s4).g.stale h0 0 5 = true ∧ (cx s5).g.markOf 0 0 5 = some 0x123 ∧ ((cx s5).g.lane 0).chk = false ∧
    (cx (S [])).g.ready ((S []).cycle 0) h0 .single = true ∧ completes (addI 4) s1 = true ∧ completes (.rte h0) (S []) = true ∧ completes (addI 4) s4 = true ∧ completes (addI 4) s5 = true := by
  decide +kernel

def handler (s : State) : State := onFunc (fun f => { f with xvec := 0x8000 }) s
def nested (s : State) : State := onLanes (fun l => { l with xstate := 9 }) s

/-- TrapEntry: a handler with user lanes, with supervisor lanes, with nested lanes, and none; a write that has no value yet. -/
theorem witness_trapEntry :
    let c (s : State) : Ctx := cx s
    let late := onLanes (fun l => { l with flights := [{ dest := 5, val := 0, due := none, known := false, tok := 3, mark := none }] }) (S [])
    (c late).g.ra = none ∧ (∃ l ∈ lanesOf 0xFFFFFFFF, ∃ f ∈ ((c late).g.lane l).flights, f.due = none) ∧
    (c (handler (S []))).g.ra = none ∧ (c (handler (S []))).g.unsettled 0xFFFFFFFF = false ∧ (c (handler (S []))).fn.xvec ≠ 0 ∧
    (handler (S [])).team? 0 = some (c (handler (S []))).t ∧ (c (S [])).fn.xvec = 0 ∧ lanesOf 0xFFFFFFFF ≠ [] ∧
    (tfind (S []).groups 0).isSome = true ∧ ((c (su (S []))).g.lane 3).sup = true ∧ ((c (su (S []))).g.lane 3).nest = false ∧
    ((c (nested (S []))).g.lane 3).nest = true ∧ ((c (nested (S []))).g.lane 3).sup = true := by decide +kernel

/-! ### Witnesses: control flow (06, 19) -/

def bitIs (t : TgtRes) (b : Bool) : Bool := match t with | .bit x => x == b | .absent .. | .moving _ | .walk | .later => false

/-- ControlTransfers: every target's TGT bit is 1 (slot 0), or 0 (slot 1), or R14 refuses it (slot 5). -/
theorem witness_control :
    let s := mapped (S [])
    let bad := mapped (S [(4, 5)])
    let c := cx s
    ([.bra h0 0 0, .call h0 6 0 0, .brx h0 4, .ret h0 4, .callx h0 6 4, .bra h0 0 1] : List Instr).all (fun i => ready i s && completes i s) = true ∧
    (∀ l ∈ c.lanes, bitIs (c.tgtOf (branchTarget c.pc 0 0)) true = true ∧ bitIs (c.tgtOf (branchTarget c.pc 0 1)) false = true ∧
      bitIs (c.tgtOf (c.r2 l 4)) true = true ∧ (c.r2 l 4).toNat % 64 < 5) ∧
    c.lanes.find? (fun _ => !false) = some 0 ∧ (∃ l ∈ (cx bad).lanes, 5 ≤ ((cx bad).r2 l 4).toNat % 64) ∧ ready (.brx h0 4) bad = true := by
  decide +kernel

/-- ControlInstructionsComplete, and the upper slot of a pair whose lower slot has parked its lanes. -/
theorem witness_controlInstructions :
    let s := handler (S [(5, 3)])
    let up := { onLanes (fun l => { l with wait := .sleep 9 }) s with cur := some ⟨0, 0xFFFFFFFF, .upper⟩ }
    ([.exit h0, .nop h0, .yield h0, .trap h0 7, .bpt h0 7, .sleep h0 (.reg 5), .sleep h0 (.imm 0), .sleep h0 (.imm 0xFFFFFFFF)] : List Instr).all
      (fun i => ready i s && completes i s) = true ∧
    ready (.cjoin h0) up = true ∧ ready (.sleep h0 (.reg 5)) up = true ∧
    (cx s).g.unsettled (cx s).act = false ∧ (cx s).fn.xvec ≠ 0 ∧ (∀ l ∈ (cx s).lanes, ((cx s).g.lane l).sup = false ∧ ((cx s).g.lane l).wait = .none) ∧
    twf 0 (cx s).g.k = true := by decide +kernel

/-- ReturnFromTrap: a good and a bad XPC, and XNPC under NEST. -/
theorem witness_rte :
    let s := su (S [])
    let bad := onLanes (fun l => { l with xstate := 9, xnpc := 5 }) (S [])
    ready (.rte h0) s = true ∧ ready (.rte h0) bad = true ∧ (cx s).g.writing (cx s).act = false ∧
    (∀ l ∈ (cx s).lanes, ((cx s).g.lane l).xpc.toNat % 64 < 5) ∧ (∃ l ∈ (cx bad).lanes, ((cx bad).g.lane l).nest = true ∧
      5 ≤ ((cx bad).g.lane l).xnpc.toNat % 64) := by decide +kernel

/-! ### Witnesses: the step -/

/-- StepKeepsMemoryCanonical, DecodeEncode and StepRunsDecoded. -/
theorem witness_step :
    let s := S []
    let cu : Cur := ⟨0, 0xFFFFFFFF, .single⟩
    s.memWf = true ∧ (next s).isSome = true ∧ (Instr.nop h0).wf = true ∧ encode (.nop h0) = some 0x00000000FFFFFFFF38000067 ∧
    s.agenda = [] ∧ s.cur = some cu ∧ (s.team? 0).isSome = true ∧ (lanesOf cu.cohort).head? = some 0 ∧
    (∀ k ∈ lanesOf cu.cohort, ((s.group 0).lane k).fline = some 0) ∧
    (match (s.core 0).iline 0 0 with
     | some il => !il.bad && !lineReserved il.bytes && decide (posOf il.bytes (((s.group 0).lane 0).at.toNat % 8) = .single) && (match decode (slotWord il.bytes (((s.group 0).lane 0).at.toNat % 8)) with
        | .ok i => decide (i = .nop h0) | .error _ => false)
     | none => false) = true := by decide +kernel

/-- StepRunsDecoded at a pair: an addition of each pipe class, the pair bit of slot 0 set, in the lower slot. -/
theorem witness_pair :
    let lo : Instr := .iadd h0 .wrap 4 5 (.reg 6)
    let up : Instr := .fadd (hs 2) .rn false 8 9 (.reg 10)
    let w (i : Instr) : List Byte := leBytes ((encode i).getD 0).toNat 12
    let bytes := w lo ++ w up ++ w (.nop h0) ++ w (.nop h0) ++ w (.nop h0) ++ leBytes 0x21 2 ++ leBytes 0 2
    let cu : Cur := ⟨0, 0xFFFFFFFF, .lower⟩
    let s := { onCore (fun k => { k with icache := [{ func := 0, line := 0, bytes := bytes }] }) (S []) with cur := some cu }
    lineReserved bytes = false ∧ posOf bytes 0 = .lower ∧ ((s.group 0).lane 0).at.toNat % 8 = 0 ∧ ((s.core 0).iline 0 0).isSome = true ∧
    (match decode (slotWord bytes 0), decode (slotWord bytes 1), lo.info, up.info with
     | .ok i, .ok j, some x, some y => decide (i = lo ∧ j = up) && pairOk bytes 0 x (some y.cls) &&
        !pairConflict (pairOps x (runsFor s cu i)) (pairOps y (runsFor s cu j)) && (s.group 0).pairReady (s.cycle 0) x.h y.h
     | _, _, _, _ => false) = true ∧ (next s).isSome = true := by decide +kernel

/-- The outcome of move `i` at `s` satisfies `p`. -/
def moves (i : Instr) (s : State) (p : State → Bool) : Bool := match exec i s with | .next t => p t | .fault _ | .refused _ => false

/-! ### Witnesses: loads, stores, scratchpads (06, 13, 15) -/

/-- One lane of function 0 with the registers `g`, pages 0 to 15 mapped, a launch record with everything. -/
def M (g : Table Word) : State := rich (mapped (solo (S g)))

def oks (s : State) (l : List Instr) : Bool := l.all (fun i => ready i s && completes i s)

/-- GlobalLoadsComplete: an aligned address that translates, a uniform base, and the last word of a lane-private window. -/
theorem witness_loads :
    let s := onFunc (fun f => { f with lpteams := 1, lpsize := 1024, lpbase := 0x10000 }) (M [(4, 0x3FC)])
    let c := cx s
    oks s [.ld h0 .w32 8 4 0, .ldnc h0 .s16 8 4 2, .ldc h0 .d64 8 4 4, .ldl h0 .w32 8 4 0] = true ∧
    c.lanes = [0] ∧ c.r2 0 4 = 0x3FC ∧ c.xlAs c.sup .read 0x3FC = .ok (idTr 0x3FC) ∧ (idTr 0x3FC).tgt.isFab = false ∧
    c.fn.lpteams ≠ 0 ∧ 0x3FC + 4 ≤ c.fn.lpsize ∧
    c.xlAs true .write (c.fn.lpbase.toNat + (1024 * c.t.lpslot.getD 0 + 32 * c.gid + 0) * c.fn.lpsize + 0x3FC) ≠ .access1 ∧
    c.xlAs true .read (c.fn.lpbase.toNat + (1024 * c.t.lpslot.getD 0 + 32 * c.gid + 0) * c.fn.lpsize + 0x3FC) = .ok (idTr 0x103FC) := by
  decide +kernel

/-- GlobalStoresComplete: 63 entries in the buffer and one lane that stores. -/
theorem witness_stores :
    let e (i : Nat) : WtbE := { func := 1, fpa := 32 * i, tgt := .loc (32 * i), mask := 1, data := [], rings := [1] }
    let s := onCore (fun k => { k with wtb := (List.range 63).map e }) (onFunc (fun f => { f with lpteams := 1, lpsize := 1024, lpbase := 0x10000 }) (M [(4, 0x3F0)]))
    let c := cx s
    oks s [.st h0 .b128 4 0 8, .stl h0 .b128 4 0 8] = true ∧ (s.core c.core).wtb.length + c.lanes.length ≤ 64 ∧
    c.xlAs c.sup .write 0x3F0 = .ok (idTr 0x3F0) ∧ (idTr 0x3F0).tgt = .loc 0x3F0 ∧ 0x3F0 + 16 ≤ c.fn.lpsize ∧
    c.xlAs true .read 0x103F0 ≠ .access1 ∧ c.xlAs true .write 0x103F0 = .ok (idTr 0x103F0) := by decide +kernel

/-- ScratchpadAccessesComplete: the last word of the scratchpad, of rank 0 and of the last granule. -/
theorem witness_scratchpad :
    let s := onFunc (fun f => { f with grant := [5] }) (M [(4, 0xFFFC), (6, 0xFFFFC)])
    let c := cx s
    oks s [.lds h0 .w32 8 4 0, .sts h0 .b32 4 0 8, .ldcl h0 .w32 8 4 0, .stcl h0 .b32 4 0 8, .ldx h0 .w32 8 6 0, .stx h0 .b32 6 0 8] = true ∧
    (c.r1 0 4).toNat + 4 = c.t.lrec.spad * 1024 ∧ 0 < c.t.lrec.w * c.t.lrec.h ∧ c.mate 0 = some 0 ∧
    (c.r2 0 6).toNat + 4 = c.fn.grant.length * 2 ^ 20 := by decide +kernel

/-- MisplacedAccessesTrap: an odd address, a window that does not exist, an offset at the end of the scratchpad; PREF. -/
theorem witness_misplaced :
    let s := M [(4, 0x1001), (6, 0x10000)]
    let c := cx s
    oks s [.ld h0 .w32 8 4 0, .ldnc h0 .u16 8 4 0, .ldl h0 .w32 8 4 0, .ldx h0 .d64 8 4 0, .st h0 .b32 4 0 8, .stl h0 .b16 4 0 8,
      .stx h0 .b64 4 0 8, .lds h0 .w32 8 4 0, .ldcl h0 .w32 8 4 0, .sts h0 .b32 4 0 8, .stcl h0 .b32 4 0 8, .ldl h0 .u8 8 4 0,
      .lds h0 .w32 8 6 0, .pref h0 false 4 0] = true ∧
    c.lanes.find? (fun l => (c.r2 l 4).toNat % 4 ≠ 0) = some 0 ∧ c.lanes.find? (fun l => (c.r1 l 4).toNat % 4 ≠ 0) = some 0 ∧
    c.lanes.find? (fun m => decide ((if c.fn.lpteams = 0 then 0 else c.fn.lpsize) < (c.r2 m 4).toNat + 1)) = some 0 ∧
    c.lanes.find? (fun m => decide (c.t.lrec.spad * 1024 < (c.r1 m 6).toNat + 4)) = some 0 ∧ c.xl .read 0x1001 ≠ .miss := by decide +kernel

/-! ### Witnesses: reconvergence and exchange (09) -/

theorem witness_reconvergence :
    let s := onGroup (fun g => { g with k := [(1, 0xFFFFFFFF)] }) (S [])
    let c := cx s
    oks s [.kjoin h0 1, .kleave h0 1, .ksetCohort h0 11, .ksetClr h0 0, .ksetLive h0 2, .kmovK h0 1 2, .ksetG h0 1 4, .kmov h0 4 1,
      .kwait h0 1, .kwait h0 11] = true ∧
    (∀ l ∈ c.lanes, c.r1 l 4 = 0) ∧ c.g.lanes.length = 32 ∧
    (∀ l ∈ lanesOf c.cohort, (c.g.lane l).wait = .none ∧ c.g.live.getLsbD l = true) := by decide +kernel

/-- GroupOperationResults: A as it stands, outstanding, and marked; a source lane from a register, uniform and not. -/
theorem witness_exchange :
    let s := S [(5, 3)]
    let late := onLanes (fun l => { l with flights := [{ dest := 5, val := 0, due := none, known := true, tok := 9, mark := none }] }) s
    let marked := onLanes (fun l => { l with marks := [(5, 0x123)] }) s
    let varied := onGroup (fun g => { g with lanes := g.lanes.mapIdx (fun l x => { x with g := [(6, BitVec.ofNat 32 l)] }) }) s
    let l : List Instr := [.shfl h0 .rot 4 5 (.imm 1 5) 1, .shfl h0 .pick 4 5 (.reg 6) 7, .redux h0 .add 4 5, .redux h0 .fadd 4 5,
      .matchLanes h0 false .any 4 5, .matchLanes h0 false (.all 1) 4 5]
    l.all (fun i => ready i s [] [rd 5] && ready i late [] [rd 5] && completes i s && completes i late) = true ∧
    ready (.matchLanes h0 true .any 4 6) s [] [rd2 6] = true ∧ completes (.matchLanes h0 true (.all 1) 4 6) s = true ∧
    ready (.matchLanes h0 true .any 4 6) late [] [rd2 6] = true ∧ ready (.rdlane h0 false 4 5 (.imm 31)) s [] [rd 5] = true ∧
    ready (.rdlane h0 true 4 6 (.imm 0)) s [] [rd2 6] = true ∧
    oks s [.elect h0 1, .vote h0 .all false 1 2, .vote h0 .any true 1 2, .vote h0 .uni false 1 2, .vote h0 .ballot false 4 2] = true ∧
    (cx late).unlanded (cx late).lanes = true ∧ (cx s).unlanded (cx s).lanes = false ∧ (cx s).act ≠ 0 ∧
    (cx s).unlanded [31] = false ∧ (cx s).lastMark (cx s).lanes (opCodes (rd2 6)) = none ∧ (cx s).lastMark [31] (opCodes (rd 5)) = none ∧
    l.all (fun i => ready i marked [] [rd 5] && completes i marked) = true ∧ (cx marked).lastMark (cx marked).lanes (opCodes (rd 5)) = some 0x123 ∧
    (cx marked).unlanded (cx marked).lanes = false ∧
    ready (.rdlane h0 false 4 5 (.reg 6)) s [] [rd 5] = true ∧ (∀ a ∈ (cx s).lanes, ∀ b ∈ (cx s).lanes, (cx s).r1 a 6 = (cx s).r1 b 6) ∧
    ready (.rdlane h0 false 4 5 (.reg 6)) varied [] [rd 5] = true ∧ (∃ a ∈ (cx varied).lanes, ∃ b ∈ (cx varied).lanes, (cx varied).r1 a 6 ≠ (cx varied).r1 b 6) ∧
    (cx varied).unlanded [] = false ∧ completes (.rdlane h0 true 4 8 (.reg 6)) varied = true := by decide +kernel

/-! ### Witnesses: the array (10, 11) -/

/-- MatrixInstructionsIssue: an idle and a busy plane, no rows, and a leader with one member. -/
theorem witness_matrix :
    let s := M [(4, 0xE000), (6, 2), (8, 0), (10, 0x2000)]
    let busy := onPlane (fun p => { p with matq := List.replicate 7 (.swap ⟨0, 0, 1⟩) }) s
    let c := cx s
    let rows : Rows := ⟨3, 255, 0⟩
    let lead := onTeam (fun t => { t with gang := .lead [some 1] true }) s
    let gang := { lead with teams := lead.teams ++ (lead.teams.map (fun e => (1, { e.2 with rank := 1, idx := 1, core := 1, gang := .member 0 0 true }))) }
    oks s [.mlds h0 false 4 8 8 0, .mswap h0, .mstr h0 true false 10 6 8 0 3 254, .mzero h0 rows, .mbias h0 false 10 rows,
      .mdrn h0 .raw true 10 8 rows, .mstr h0 true false 10 8 8 0 3 254] = true ∧ oks gang [.mstr h0 true true 10 6 8 0 3 254, .mstrr h0 true true 20 8 0 rows] = true ∧
    (cx gang).members = [(1, 1, 0)] ∧ (cx gang).t.gang.formed = true ∧ (gang.plane (gang.planeOf 1)).swapping = false ∧ (cx gang).streamIll true 0 = false ∧
    (c.u1 8).toNat = 0 ∧ scaleReg (c.t.lrec.slot 0) 8 = [] ∧ oks busy [.mswap h0, .mzero h0 rows, .mbias h0 true 10 rows] = true ∧
    (match mstrrRuns c.t.lrec.regs (s.plane 0).firstMeets.2.1 20 1 with
     | some r => (c.lastMark (lanesOf c.g.live) (r.flatMap opCodes)).isNone && !c.unlanded (lanesOf c.g.live) | none => false) = true ∧
    ready (.mstrr h0 true false 20 8 0 rows) s = true ∧ completes (.mstrr h0 true false 20 8 0 rows) s = true ∧
    (match mdrnrRuns c.t.lrec .raw 20 8 1 with | some r => ready (.mdrnr h0 .raw true 20 8 rows) s r | none => false) = true ∧
    c.act ≠ 0 ∧ c.cohort = c.g.live ∧ s.matLoad c.core = 0 ∧ busy.matLoad c.core = 7 ∧ (matFmt (c.t.lrec.slot 0)).isSome = true ∧
    c.t.qmask.getLsbD 3 = true ∧ c.streamIll false 0 = false ∧ c.drainIll .raw = false ∧
    (matFmt (c.t.lrec.slot 0)).map (fun e => (e.2, e.1.width, rowBytes e.1 e.2 false)) = some (16, 16, 128) ∧
    0xE000 + 64 * 64 * 16 / 8 ≤ c.t.lrec.spad * 1024 := by decide +kernel

/-- MatrixAndGangInstructions: a cohort that is not the live mask, a team without banks, a guard of 0 in every lane, a gang of two. -/
theorem witness_gang :
    let s := M [(4, 0xFFFFFFFF)]
    let part := onGroup (fun g => { g with live := 3 }) s
    let none' := onTeam (fun t => { t with qmask := 0 }) s
    let rows : Rows := ⟨0, 0, 0⟩
    let z : Instr := .mzero ⟨7, true, 0, 0, false, 0⟩ rows
    let inGang := onTeam (fun t => { t with gang := .member 1 0 false }) s
    oks part [.mswap h0, .mzero h0 rows, .mgangLeave h0] = true ∧ (cx part).cohort ≠ (cx part).g.live ∧
    oks none' [.mswap h0, .mzero h0 rows] = true ∧ (cx none').t.qmask = 0 ∧ ready z s = true ∧ (s.ctx ⟨⟨7, true, 0, 0, false, 0⟩, .mat, 0, [], none⟩).act = 0 ∧
    oks s [.mgangLead h0 4, .mgangJoin h0 4 0, .mgangLeave h0] = true ∧ gangBad (-1) 0 1 = false ∧ gangBad 0 0 1 = true ∧
    s.gangIdle 0 = true ∧ oks inGang [.mgangLead h0 4, .mgangJoin h0 4 0] = true ∧ (cx inGang).t.gang ≠ .none := by decide +kernel

/-- StreamRowAccumulates: a float tile and an integer tile of class 16, 8 and 4. -/
theorem witness_streamRow : ([16, 8, 4] : List Nat).all (fun k => let w : WPlane := { cls := k, int := decide (k = 8) }
    !w.sparse && twf 0 w.w && decide ((List.replicate 64 (0 : Word)).length = 64)) = true := by decide +kernel

/-- MatrixQueueCompletes: each operation alone at the head of the queue of plane 0, a stream with a gang member, both steps of a drain. -/
theorem witness_matrixQueue :
    let go (op : MatOp) : State := onPlane (fun p => { p with matq := [op] }) (M [])
    let tok : Token := ⟨0, 0, 1⟩
    let lead := go (.stream tok 3 254 0 2 true false 3 (.pad 0 0) 0 0 [(1, 1, 0)])
    let joined := { lead with teams := lead.teams ++ (lead.teams.map (fun e => (1, { e.2 with rank := 1, idx := 1, core := 1, gang := .member 0 0 true }))) }
    completes (.mldsComplete 0) (go (.load tok 0 16 false false 3 0 0 0)) = true ∧ completes (.mswapWavefront 0) (go (.swap tok)) = true ∧
    completes (.mstrRowWrite 0) (go (.stream tok 3 254 0 2 true false 3 (.pad 0 0) 0 0 [])) = true ∧ completes (.mstrRowWrite 0) joined = true ∧
    completes (.drainComplete 0) (go (.drain tok 0 3 255 1 .raw true 0 0 0 none false)) = true ∧ completes (.drainComplete 0) (go (.drain tok 0 3 255 1 .raw true 0 0 0 none true)) = true ∧
    completes (.drainComplete 0) (go (.drain tok 0 3 255 1 .raw true 0 0 0 (some 8) false)) = true ∧
    (joined.team? 1).isSome = true ∧ 3 * 1 + 0 ≠ 0 ∧ moves (.mstrRowWrite 0) joined (fun t => (t.plane 3).matq.length == 1) = true ∧
    (matFmt 3).isSome = true ∧ ((go (.swap tok)).plane 0).liveW.sparse = false := by decide +kernel

/-! ### Witnesses: synchronisation (14, 15) -/

def putMem (a : Nat) (bs : List Byte) (s : State) : State := { s with mem := writeBytes s.mem a bs }

/-- Nothing of core 0 is on its way to a home. -/
def calmB (s : State) : Bool := decide ((s.core 0).wtb = []) && decide ((s.core 0).loads = []) && decide ((s.core 0).peers = []) && decide (s.snoop = [])

theorem calm_sound (s : State) (h : calmB (cx s).s = true) (hc : (cx s).core = 0) : (cx s).calm := by
  simp [calmB] at h
  unfold Ctx.calm
  rw [hc]
  exact ⟨h.1.1.1, h.1.1.2, h.1.2, h.2⟩

/-- AtomicsComplete: one lane at 0x1000, a sync cell's VALUE, and at 0x1008; a scratchpad and a cluster location. -/
theorem witness_atomics :
    let s := M [(4, 0x1000), (6, 0x1008)]
    let c := cx s
    calmB s = true ∧ c.core = 0 ∧ c.lanes = [0] ∧
    oks s [.atom h0 .add .w32 .acqRel .device 8 4 10, .atom h0 (.cas 12) .d64 .relaxed .system 8 6 10, .red h0 .dec .w32 true .device 6 10,
      .relop h0 .inc .w32 .device 8 4 10, .atoms h0 .xor .d64 false 8 6 10, .atoms h0 .maxS .w32 true 8 6 10] = true ∧
    c.xl .write (c.r2 0 4).toNat = .ok (idTr 0x1000) ∧ c.xl .write (c.r2 0 6).toNat = .ok (idTr 0x1008) ∧ (c.r2 0 4).toNat % 512 = 0 ∧
    (idTr 0x1008).tgt = .loc 0x1008 ∧ (match c.spadLoc 8 0x1008, c.clusterLoc 4 0x1008 with
      | .ok (p, a), .ok (q, b) => decide (p = .team 0 ∧ a = 0x1008 ∧ q = .team 0 ∧ b = 0x1008) | _, _ => false) = true := by decide +kernel

/-- OrderingInstructionsComplete. -/
theorem witness_ordering :
    let s := M [(4, 0x1000), (8, 159)]
    let c := cx s
    calmB s = true ∧ c.core = 0 ∧ c.lanes = [0] ∧ c.act ≠ 0 ∧
    oks s [.relst h0 .w32 .device 4 10, .acqld h0 .d64 .system 10 4, .fence h0 .acqRel .system, .remacq h0 8, .cctlIvl h0 4 0, .cctlIvi h0 4 3,
      .cctlIvall h0, .cctlIviall h0, .cctlDrain h0, .sigrdTest h0 10 4, .sigrdHash h0 10 4, .sigrdWord h0 10 2 31] = true ∧
    c.xl .write 0x1000 = .ok (idTr 0x1000) ∧ c.xl .read 0x1000 = .ok (idTr 0x1000) ∧ c.xl1 0x1000 = .ok ⟨0x1000, .loc 0, 0x1F, false⟩ ∧
    (c.r1 0 8).toNat % 256 < 160 ∧ (s.core 159).wtb = [] := by decide +kernel

/-- A barrier cell at 0x1000 that expects 2, with one arrival, in phase 5: kind and flags as given. -/
def cell (flags : Nat) : List Byte :=
  leBytes 2 4 ++ leBytes 1 4 ++ leBytes 0 4 ++ leBytes flags 2 ++ leBytes 0 14 ++ leBytes 5 4 ++ leBytes 0 32

/-- BarriersComplete: the last arrival, one too many (a broken cell), a passed and a present phase. -/
theorem witness_barriers :
    let s := putMem 0x1000 (cell 256) (M [(4, 0x1000), (6, 4), (7, 5)])
    let broken := putMem 0x1000 (cell 257) s
    let c := cx s
    let l : List Instr := [.barinit h0 4 6, .bararv h0 false .device 10 1 4, .bartst h0 .device 10 1 4 6, .bartst h0 .device 10 1 4 7, .barexp h0 4 6,
      .bardrop h0 true 4, .barwt h0 .device 10 1 4 6, .barwt h0 .device 10 1 4 7]
    oks s l = true ∧ oks broken l = true ∧ calmB s = true ∧ c.core = 0 ∧ c.act ≠ 0 ∧ c.xl .write (c.u2 4).toNat = .ok (idTr 0x1000) ∧
    c.xl .read (c.u2 4).toNat = .ok (idTr 0x1000) ∧ (c.u2 4).toNat % 512 = 0 ∧
    s.cellKind (.loc 0x1000) = true ∧ s.cellBroken (.loc 0x1000) = false ∧ broken.cellBroken (.loc 0x1000) = true ∧
    ofLE (s.homeBytes (.loc 0x1004) 4) + 1 = ofLE (s.homeBytes (.loc 0x1000) 4) ∧ ofLE (s.homeBytes (.loc 0x101C) 4) = 5 := by decide +kernel

/-- WaitsParkOrGoOn: a comparison that holds, one that does not, a broken cell. -/
theorem witness_waits :
    let s := putMem 0x1000 (leBytes 5 8) (M [(4, 0x1000), (6, 5), (8, 6)])
    let broken := putMem 0x1000 (cell 1) s
    let c := cx s
    oks s [.acqwt h0 .geU .w32 .device 10 4 6 1, .acqwt h0 .gtS .d64 .device 10 4 6 1] = true ∧ oks broken [.acqwt h0 .geU .w32 .device 10 4 8 1] = true ∧
    broken.cellBroken (.loc 0x1000) = true ∧ broken.cellKind (.loc 0x1000) = false ∧ isCellAddr 0x1000 = true ∧
    calmB s = true ∧ c.xl .read 0x1000 = .ok (idTr 0x1000) ∧ (c.g.lane 0).wait = .none ∧ 0 < c.g.lanes.length := by decide +kernel

/-! ### Witnesses: engines, collectives, children (17, 18, 25, 26) -/

/-- An array record: rank 1, 8 elements of 2^esz bytes. -/
def arr (base esz : Nat) : List Byte := leBytes (base + esz * 2 ^ 64 + 2 ^ 68 + 8 * 2 ^ 80 + 7 * 2 ^ 400) 64

/-- CommandsFormCards: two pairs of records, with and without a counter, the highest tag of the team, 1,023 cards in flight. -/
theorem witness_commands :
    let s := putMem 0x2000 (arr 0x4000 2 ++ arr 0x5000 2 ++ arr 0x6000 2 ++ arr 0x7000 2 ++ arr 0x8000 0) (M [(4, 0x2000), (6, 0x2080), (8, 0x3000), (10, 0x2100)])
    let full := s.setDie 1 {}
    let cmd : Sys2Proof.Cmd := ⟨.device, false, some 7⟩
    let c := cx s
    oks s [.xcopy h0 cmd 8 4 6 255, .xgath h0 ⟨.team, true, none⟩ 8 4 6 12, .xscat h0 cmd 255 4 6 255, .xpack h0 .slot true false cmd 0 255 4 10 255,
      .xunpk h0 .rn false cmd 0 255 10 4 255, .xfill h0 cmd 255 4 6 255] = true ∧ oks full [.xcopy h0 cmd 8 4 6 255] = true ∧
    (match c.recRead 0x2000 64, c.recRead 0x2100 64 with | .ok a, .ok b => decide (a = arr 0x4000 2 ∧ b = arr 0x8000 0) | _, _ => false) = true ∧
    (viewOf (arr 0x4000 2) []).isSome = true ∧ (viewOf (arr 0x8000 0) []).isSome = true ∧ c.packIll 0 = false ∧
    coordRun c.t.lrec.regs 12 (recRank (arr 0x4000 2) + recRank (arr 0x5000 2)) = some [12, 13] ∧ c.coordTrap h0 [12, 13] = none ∧
    (c.r2 0 8).toNat % 512 = 0 ∧ c.xl .write 0x3000 = .ok (idTr 0x3000) ∧
    (let k (maj : Nat) (a b x : List Byte) : Card := { id := 0, func := 0, team := 0, tidx := 0, plane := 0, core := 0, maj := maj, fn := 0, imm := 0, sup := false, slot := 3, srec := a, drec := b, xrec := x }
     (k 0xC0 (arr 0x4000 2) (arr 0x6000 2) []).recordsOk && (k 0xC1 (arr 0x4000 2) (arr 0x6000 2) (arr 0x5000 2)).recordsOk &&
     (k 0xC2 (arr 0x4000 2) (arr 0x6000 2) (arr 0x7000 2)).recordsOk && (k 0xC3 (arr 0x4000 2) (arr 0x8000 0) []).recordsOk &&
     (k 0xC4 (arr 0x8000 0) (arr 0x4000 2) []).recordsOk && (k 0xC5 [] (arr 0x6000 2) []).recordsOk) = true ∧
    (s.die 0).inFlight none < 1024 ∧ tget 0 (s.plane 0).tagCount 7 < 255 ∧ 7 < c.t.tagBase + c.t.lrec.tags ∧ c.loadsOut = false := by decide +kernel

/-- A layout record over a mesh of two: 4 FP32 elements, the axis in the state `st`, WLEN `n`. -/
def layRec (st n : Nat) : List Byte := leBytes (4 + 2 * 2 ^ 256 + st * 2 ^ 320 + 9 * 2 ^ 352 + 0x4000 * 2 ^ 384 + n * 2 ^ 448) 64

/-- A reduction record: 4 tiles of 512 bytes, FP32, along axis 0. -/
def redRec : List Byte := leBytes (2 ^ 12 + 512 * 2 ^ 128 + 4 * 2 ^ 160 + 0x4000 * 2 ^ 192 + 0x5000 * 2 ^ 256 + 9 * 2 ^ 448) 64

def meshed (s : State) : State := onFunc (fun f => { f with vdn := some 7, mesh := some ⟨[2], [7, 8]⟩ }) s

/-- CollectiveInstructionsComplete: the last tile of a reduction, a gather; XRED.cancel of a card that has pushed nothing beside one that has
and one of another handle; PFENCE with and without a request outstanding. -/
theorem witness_collectives :
    let s := meshed (putMem 0x2000 (layRec 0x40 0 ++ layRec 0 16 ++ redRec) (M [(4, 0x2000), (6, 0x2040), (8, 0x2080), (10, 3), (11, 1)]))
    let c := cx s
    let p : Packet := ⟨8, 7, 1, 0, 0, 0, 0, false, none, true, [], 0⟩
    let far := onCore (fun k => { k with peers := [(0, { vdn := 8, slots := [(0, { pkts := [(0, p)], since := 0, what := .load 0 5 .w32 4 [(0, 0)] 0 none none, func := 0 })] })] }) { s with nextTok := 9 }
    let k (maj : Nat) (a b : List Byte) (o : List Int) : Card := { id := 0, func := 0, team := 0, tidx := 0, plane := 0, core := 0, maj := maj, fn := 0, imm := 0, sup := false, srec := a, drec := b, orig := o }
    let other := leBytes (2 ^ 12 + 512 * 2 ^ 128 + 4 * 2 ^ 160 + 0x4000 * 2 ^ 192 + 0x5000 * 2 ^ 256 + 10 * 2 ^ 448) 64
    let cards := s.setDie 0 { (s.die 0) with cards := [k 0xE1 redRec [] [3, 1, 0], { k 0xE1 redRec [] [0, 1, 0] with id := 1, done := 1 }, { k 0xE1 other [] [3, 1, 0] with id := 2 }] }
    oks s [.xresh h0 ⟨false, .device, some 7⟩ 255 4 6, .xredPush h0 .device (some 7) 8 10 11, .xmcast h0 .device none 8 10 11, .xredCancel h0 8,
      .pfence h0 none, .pfence h0 (some 10)] = true ∧ oks far [.pfence h0 none] = true ∧
    (s.meshOf 0).isSome = true ∧ (s.reshOf (k 0xE0 (layRec 0x40 0) (layRec 0 16) [0, 0, 0])).isSome = true ∧
    (match s.redOf (k 0xE1 redRec [] [3, 1, 0]) with | some (r, _, _) => decide (3 + 1 ≤ r.alg.ntile) | none => false) = true ∧
    moves (.xredCancel h0 8) cards (fun t => decide (t.allCards.map (fun x => (x.id, x.status)) = [(0, 3), (1, 0), (2, 0)] ∧ t.mem = cards.mem)) = true ∧
    ready (.xredCancel h0 8) cards = true ∧ (s.redOf (k 0xE1 redRec [] [3, 1, 0])).map (fun x => x.1.handle) = some 9 ∧
    (s.redOf (k 0xE1 other [] [3, 1, 0])).map (fun x => x.1.handle) = some 10 ∧
    s.groupRemote 0 0 s.nextTok (fun _ => true) = false ∧ far.groupRemote 0 0 far.nextTok (fun _ => true) = true ∧ c.act ≠ 0 ∧
    (match c.recRead 0x2080 64 with | .ok a => decide (a = redRec) | _ => false) = true := by decide +kernel

/-- TagCounterAndRangeInstructions: a ready tag, none, all; a counter at and short of its value; a channel; a range object. -/
theorem witness_tags :
    let s := onPlane (fun p => { p with tagReady := 0x84, tagStatus := [(2, 3)], tagCount := [(3, 1)] })
      (putMem 0x3000 (leBytes 5 8) (M [(4, 0x84), (6, 0x88), (8, 0x3000), (10, 5), (12, 6), (14, 4)]))
    let c := cx s
    oks s [.wtany h0 20 4, .wtall h0 20 4, .wtall h0 20 6, .wtany h0 20 16, .ffrdy h0 20 6, .tagclr h0 6, .cntwt h0 .device 20 1 8 10,
      .cntwt h0 .device 20 1 8 12, .cwait h0 .device 20 1 8 10, .cwait h0 .device 20 1 8 18, .rnginit h0 10 8 12 14, .rngnxt h0 20 8] = true ∧
    oks (onPlane (fun p => { p with tagReady := 0 }) s) [.wtany h0 20 4] = true ∧
    c.u2 4 &&& ~~~c.t.tagMask = 0 ∧ c.u2 6 &&& ~~~c.t.tagMask = 0 ∧ c.act ≠ 0 ∧ calmB s = true ∧ c.xl .read 0x3000 = .ok (idTr 0x3000) ∧
    c.xl .write 0x3000 = .ok (idTr 0x3000) ∧ ofLE (s.homeBytes (.loc 0x3000) 8) = 5 ∧ 0x3000 % 32 = 0 := by decide +kernel

def kidS : State := putMem 0x2000 (recBytes {}) (onFunc (fun f => { f with part := some 0 }) (M [(4, 0x2000), (6, 0x3000)]))

/-- The same with a full pool. -/
def fullS : State := kidS.setPrt 0 { (kidS.prt 0) with pool := List.replicate 4096 5 }

theorem full_pool : (fullS.prt 0).pool.length = 4096 := by
  show (List.replicate 4096 5).length = 4096
  exact List.length_replicate

theorem full_spillHold : fullS.spillHold 0 1 = none := by
  have ht : fullS.team? 0 = kidS.team? 0 := rfl
  have hg : ∀ i, fullS.grid? i = kidS.grid? i := fun _ => rfl
  have hf : ∀ i, fullS.func i = kidS.func i := fun _ => rfl
  unfold State.spillHold
  simp only [ht, hg, hf]
  have h : (kidS.team? 0).all (fun t => (kidS.func t.func).part.all (fun _ => (kidS.grid? t.grid).all (fun g => g.lrec.spn = 0))) = true := by
    decide +kernel
  split
  · rfl
  · rename_i t e
    split
    · rename_i q g e1 e2
      have hn : g.lrec.spn = 0 := by simpa [e, e1, e2] using h
      split
      · rfl
      · simp [hn]
    · rfl

/-- ChildrenComplete: no room in the pool or the spill area. -/
theorem witness_childrenFull (f : Info) (wait : Bool) (h : (Instr.launch h0 wait 8 4).info = some f) :
    Ready (.launch h0 wait 8 4) fullS f (fullS.ctx f) ∧ (fullS.prt 0).pool.length = 4096 ∧
    (fullS.grid? (cx fullS).t.grid).map (fun g => g.spillRoom) = some false ∧ fullS.spillHold 0 1 = none ∧
    calmB fullS = true ∧ (fullS.ctx f).lanes = [0] := by
  cases wait <;> obtain rfl := (Option.some.inj h).symm <;>
  refine ⟨⟨h, rfl, rfl, by decide +kernel, rfl, rfl, by decide +kernel, by decide +kernel, by decide +kernel, by decide +kernel, by decide +kernel,
    by decide +kernel, by decide +kernel⟩, full_pool, by decide +kernel, full_spillHold, by decide +kernel, by decide +kernel⟩

/-- ChildrenComplete: a record that R140 accepts and one of zeros; a team with and without children. -/
theorem witness_children :
    let s := kidS
    let c := cx s
    oks s [.launch h0 false 8 4, .launch h0 true 8 4, .launch h0 false 8 6, .cjoin h0] = true ∧ oks (onTeam (fun t => { t with children := 1 }) s) [.cjoin h0] = true ∧
    s.spillHold 0 1 = none ∧ s.launchAhead c.t.grid s.nextTok = false ∧
    calmB s = true ∧ c.lanes = [0] ∧ recOk (recBytes {}) = true ∧ recOk (List.replicate 128 0) = false ∧
    (match c.recRead 0x2000 128, c.recRead 0x3000 128 with | .ok a, .ok b => decide (a = recBytes {} ∧ b = List.replicate 128 0) | _, _ => false) = true ∧
    c.fn.part = some 0 ∧ (s.grid? c.t.grid).map (fun g => decide (g.spillHead = g.spillTail)) = some true ∧ (s.prt 0).pool.length < 4096 ∧
    c.t.children < 2 ^ 32 - 1 ∧ (tfind s.grids s.nextGrid).isNone = true := by decide +kernel

/-! ### Witnesses: system instructions (19) -/

theorem witness_system :
    let s := su (M [(4, 0x1000), (6, 1)])
    let c := cx s
    let card : Card := { id := 0, func := 0, team := 0, tidx := 0, plane := 0, core := 0, maj := 0xC5, fn := 0, imm := 0, sup := false, drec := arr 0x5000 2 }
    let busy := s.setDie 0 { (s.die 0) with cards := [card], tlb := idTlb }
    let going := s.setDie 0 { (s.die 0) with cards := [{ card with st := .running 0, inseg := true, counter := 0x3000 }] }
    let paused := s.setDie 0 { (s.die 0) with cards := [{ card with st := .paused 0 0x5000 true }] }
    oks s [.movx h0 8 0, .movxw h0 8 0x1B, .movxW h0 4 4, .movxW h0 4 5, .movxwW h0 4 1, .movxwW h0 4 0xB, .movx h0 8 6, .movxW h0 4 1, .movxwW h0 4 0x10,
      .tlbiv h0 4 0, .tlbia h0, .halttOthers h0, .halttRelease h0, .fltqAck h0 6, .fltqResume h0, .fltqFail h0, .dumpr h0 8 255,
      .xdrainWait h0, .xdrainCancel h0] = true ∧ oks busy [.xdrainWait h0, .xdrainCancel h0] = true ∧
    c.act ≠ 0 ∧ calmB s = true ∧ s.allCards = [] ∧ (∃ x ∈ busy.allCards, x.team = 0) ∧
    moves (.xdrainCancel h0) going (fun t => t.allCards.all (fun x => decide (x.counter = 0 ∧ x.ending = true ∧ x.inseg = true))) = true ∧
    moves (.fltqResume h0) paused (fun t => t.allCards.all (fun x => decide (x.st = .paused 0 0x5000 true ∧ x.again = true))) = true ∧
    c.dumpMark 0 0 0 = none ∧ c.dumpSel 0 = some (0, 0, 0) ∧
    (s.group (32 * (c.gk / 32) + 0)).writing (1#32 <<< 0) = false ∧ (tfind s.groups 0).isSome = true := by decide +kernel

/-! ### Witnesses: the machine's own moves -/

def ex (i : Instr) (s : State) : Option State := match exec i s with | .next t => some t | .fault _ | .refused _ => none

/-- The tables of function 0: pages 0, 4 and 8 map to themselves (root, level 1 and level 0 of stage 2 at 0x100000, 0x110000, 0x120000, of stage
1 at 0x130000, 0x140000, 0x150000). -/
def tables : Table Byte :=
  [(0x100000, 0x1), (0x100002, 0x11), (0x110000, 0x1), (0x110002, 0x12), (0x120000, 0xf), (0x120020, 0xf), (0x120022, 0x4), (0x120040, 0xf), (0x120042, 0x8), (0x120098, 0xf), (0x12009a, 0x13), (0x1200a0, 0xf), (0x1200a2, 0x14), (0x1200a8, 0xf), (0x1200aa, 0x15), (0x130000, 0x1), (0x130002, 0x14), (0x140000, 0x1), (0x140002, 0x15), (0x150000, 0x1f), (0x150020, 0x1f), (0x150022, 0x4), (0x150040, 0x1f), (0x150042, 0x8)]
def tabled (s : State) : State := { onFunc (fun f => { f with s1root := 0x130001, s2root := 0x100000 }) s with mem := tables }

/-- CoreEventsComplete, the front end: a good and a bad line, one of a peer; an oldest ready group, and one whose line is
absent; a dead KWAIT; a sleeper before and at its time, halted, and in a plane that is being saved. -/
theorem witness_coreFront :
    let f : Fetch := { func := 0, line := 4, tgt := .loc 256 }
    let wait (s : State) : State := { onLanes (fun l => { l with wait := .fetch 4, resume := 7, fline := none }) s with cur := none }
    let good := onCore (fun k => { k with fetches := [f] }) (wait (putMem 256 (testLine 0x38000067) (S [])))
    let bad := onCore (fun k => { k with fetches := [f] }) (wait (putMem 256 [1] (S [])))
    let idle := { S [] with cur := none }
    let dead := handler (onGroup (fun g => { g with k := [(1, 3), (2, 3)], lanes := g.lanes.mapIdx (fun l x => { x with wait := .k (1 + l % 2) }) }) idle)
    let slept := { onLanes (fun l => { l with wait := .sleep 5, resume := 9 }) idle with clock := 5 }
    let far (b : Bool) := onCore (fun k => { k with fetches := [{ f with tgt := .fab 8 0xC0, sent := b }] }) (wait (S []))
    let absent := onCore (fun k => { k with icache := [] }) (onLanes (fun l => { l with fline := none }) idle)
    lineGood (good.homeBytes f.tgt 64) = true ∧ lineGood (bad.homeBytes f.tgt 64) = false ∧
    moves (.fetchLineArrival 0 0) good (fun t => ((t.core 0).iline 0 4).isSome && decide (((t.group 0).lane 3).wait = .none ∧ ((t.group 0).lane 3).pc = 7)) = true ∧
    moves (.fetchLineArrival 0 0) bad (fun t => decide ((t.core 0).fetches = [{ f with retried := true }])) = true ∧
    (idle.pipeGroups 0 0).head?.isSome = true ∧ moves (.pipeGroupChoice 0 0) idle (fun t => decide (t.cur = some ⟨0, 0xFFFFFFFF, .single⟩)) = true ∧
    (dead.group 0).kHolds 1 = false ∧ (dead.group 0).kHolds 2 = false ∧
    moves (.kdeadDetect 0) dead (fun t => decide (((t.group 0).lane 3).xcause = 0x0A ∧ ((t.group 0).lane 3).pc = 0x8000)) = true ∧
    (dead.group 0).unsettled 0xFFFFFFFF = false ∧ (dead.func 0).frozen = false ∧ (dead.group 0).halted = 0 ∧ slept.cycleOf 0 = 5 ∧
    moves (.kdeadDetect 0) { onFunc (fun f => { f with frozen := true }) dead with clock := 0 } (fun t => decide (((t.group 0).lane 3).xcause = 0)) = true ∧
    moves (.sleepExpiry 0 3) (onGroup (fun g => { g with halted := 8 }) slept) (fun t => decide (((t.group 0).lane 3).wait = .satisfied 9 [])) = true ∧
    moves (.sleepExpiry 0 3) { slept with saving := [⟨0, 0, .slice, none⟩] } (fun t => decide (((t.group 0).lane 3).wait = .woken)) = true ∧
    (far true).pipeFetch 0 0 = none ∧ (idle.pipeFetch 0 0) = none ∧ (absent.pipeFetch 0 0).isSome = true ∧
    moves (.pipeGroupChoice 0 0) absent (fun t => decide (t.cur = some ⟨0, 0xFFFFFFFF, .single⟩)) = true ∧
    moves (.fetchLineArrival 0 0) (far true) (fun t => decide (t = far true)) = true ∧
    ((far false).request 0 0 8 1 0x80 [] (.fetch 0 4)).isSome = true ∧
    moves (.fetchLineArrival 0 0) (far false) (fun t => (t.core 0).fetches.all (fun f => f.sent)) = true ∧
    slept.savingTeam { func := 0, grid := 0, idx := 0, rank := 0, core := 0, plane := 0, lrec := {} } = false ∧
    moves (.sleepExpiry 0 3) slept (fun t => decide (((t.group 0).lane 3).wait = .none ∧ ((t.group 0).lane 3).pc = 9)) = true ∧
    moves (.sleepExpiry 0 3) { slept with clock := 4 } (fun t => decide (t = { slept with clock := 4 })) = true := by decide +kernel

/-- CoreEventsComplete, the memory side: the ring, an L1 line at and past its lease, the three places of a buffered entry, a fill. -/
theorem witness_coreMemory :
    let e (st : WtbSt) : WtbE := { func := 0, fpa := 0x1000, tgt := .loc 0x1000, mask := 3, data := [(0, 7), (1, 8)], rings := [0], st := st, toks := [⟨0, 5, 1⟩] }
    let buf (st : WtbSt) : State := onGroup (fun g => { g with outs := [⟨5, 1, 1⟩] }) (onCore (fun k => { k with wtb := [e st] }) (S []))
    let x : L1Line := { func := 0, line := 8, valid := 1, fepoch := 5, kind := .loc, stable := false, data := [] }
    let l1 (n : Nat) : State := { onCore (fun k => { k with l1 := [x] }) (S []) with epoch := n }
    let fill := onGroup (fun g => { g with outs := [⟨5, 1, 1⟩] }) (onCore (fun k => { k with loads := [{ what := ⟨0, 5, 1⟩, fills := [⟨0, 8, 0, 32, 0xFFFF, .loc 0x1000, false, 0⟩] }] }) (S []))
    moves .epochAdvance { S [] with clock := 4095 } (fun t => decide (t.epoch = 0)) = true ∧ moves .epochAdvance { S [] with clock := 4096 } (fun t => decide ((t.plane 0).ring[1]? = some { epoch := 1 } ∧ (t.plane 0).ring[0]? = some ({} : RSlot))) = true ∧
    moves (.l1LineExpiry 0 0) (l1 7) (fun t => decide ((t.core 0).l1 = [x])) = true ∧ moves (.l1LineExpiry 0 0) (l1 8) (fun t => decide ((t.core 0).l1 = [])) = true ∧
    ((buf .buffered).core 0).entryAt 0 = some (e .buffered, []) ∧ (buf .sent).snooped (.loc 0x1000) = false ∧
    moves (.wtbDrain 0 0) (buf .buffered) (fun t => decide ((t.core 0).wtb = [e .sent])) = true ∧
    moves (.homeAccess 0 0) (buf .sent) (fun t => decide (t.mem = [(0x1000, 7), (0x1001, 8)])) = true ∧
    moves (.storeAck 0 0) (buf .performed) (fun t => decide ((t.core 0).wtb = [] ∧ (t.group 0).outs.all (fun o => decide (o.lanes &&& 1 = 0)) = true ∧
      (t.plane 0).ring = ringInsert ((S []).plane 0).ring 0 8)) = true ∧
    ((buf .performed).core 0).ackDue (e .performed) [] = true ∧ (fill.core 0).loadDue 0 = true ∧
    moves (.loadFill 0 0) fill (fun t => decide ((t.core 0).loads = [] ∧ (t.group 0).outs.all (fun o => decide (o.lanes &&& 1 = 0)) = true)) = true := by decide +kernel

/-- TranslationEventsComplete: a walk that takes a walker, one that finds its leaf and one that does not; run-ahead with no page and with a stage-1 page; a PRI
answer; S2INV, S2SET and an ATS invalidation. -/
theorem witness_translation :
    let idle := { M [] with cur := none }
    let cold := onCore (fun k => { k with tlb := { k.tlb with s2 := [] } }) idle
    let q (s : State) : State := s.setDie 0 { (s.die 0) with walkq := [⟨0, 3, [some 0], false⟩], tlb := idTlb }
    let w (s : State) : State := s.setDie 0 { (s.die 0) with walkq := [], walking := [⟨0, 3, [some 0], false⟩] }
    let three := putMem 0x100000 (leBytes 0x110001 8) (putMem 0x110000 (leBytes 0x120001 8) (putMem 0x120018 (leBytes 0x3000F 8)
      (onFunc (fun f => { f with s2root := 0x100000 }) (q cold))))
    let g := idle.group 0
    let ra (p : List PageEnt) (b : Bool) : RunAhead := { ckpt := ⟨g.lanes, g.s, g.sflights, g.smarks, g.k, g.sb, g.outs, g.divs, g.sdone, g.upper⟩, plane := 1, ran := 0, s1pages := p, s2pages := [], fpc := 0, fva := 0x20008, mask := 1, page1 := b, stop := some 5 }
    let run (p : List PageEnt) (b : Bool) : State := onFunc (fun f => { f with fqbase := 0x40000, fqlen := 16 }) (handler (onGroup (fun g => { g with ra := some (ra p b) }) (tabled idle)))
    let pri := onFunc (fun f => { f with pri := [⟨0x50000, true, 0⟩] }) (onLanes (fun l => { l with wait := .pri [0x50000], resume := 7 }) idle)
    let host := onCore (fun k => { k with wtb := [{ func := 0, fpa := 0x7000, tgt := .host 0x7000, mask := 1, data := [], rings := [0] }] }) idle
    let walked := { onLanes (fun l => { l with wait := .walk 3, resume := 7 }) (w three) with cur := none }
    tget 0 (idle.func 0).wrsv 0 < 64 ∧ 0 < tget 64 (idle.func 0).wmax 0 ∧
    moves (.pageWalk 0) (q three) (fun t => decide ((t.die 0).walkq = [] ∧ (t.die 0).walking = [⟨0, 3, [some 0], false⟩])) = true ∧
    moves (.pageWalk 0) walked (fun t => decide (((t.group 0).lane 3).wait = .none ∧ ((t.group 0).lane 3).pc = 7)) = true ∧
    moves (.pageWalk 0) idle (fun t => decide (t = idle)) = true ∧ (idle.die 0).walking = [] ∧ idle.batchDue 0 = false ∧ idle.parkedLaunches = [] ∧
    (run [] false).batchDue 0 = true ∧ (run [⟨2, 1⟩] true).batchDue 0 = true ∧ ((run [] false).func 0).frozen = false ∧
    moves (.priResponse 0 0x60000 true) pri (fun t => decide (t = pri)) = true ∧ (pri.func 0).priWait = [] ∧
    (match ((q cold).walkOf ((q cold).die 0) 0 3 false (some 0)).1 with | .fail _ x => decide (x = .page2 0x30000) | .found .. | .unbacked _ => false) = true ∧
    (match (three.walkOf (three.die 0) 0 3 false (some 0)).1 with | .found _ s2 => decide (s2 = [⟨0, 3, 1, 3, 0x3000F⟩]) | .fail .. | .unbacked _ => false) = true ∧
    moves (.pageWalk 0) (w three) (fun t => decide ((t.die 0).walking = [] ∧ (⟨0, 3, 1, 3, 0x3000F⟩ : TlbE) ∈ (t.core 0).tlb.s2)) = true ∧
    moves (.pageWalk 0) (w cold) (fun t => decide ((⟨0, 3, .page2 0x30000⟩ : NoLeaf) ∈ (t.core 0).wfail)) = true ∧
    moves (.runAheadStop 0) (run [] false) (fun t => decide (t = (run [] false).setGroup 0 { ((run [] false).group 0).restore with nextIssue := 0 })) = true ∧
    (let r := run [⟨2, 1⟩] true; (match ((r.setGroup 0 (r.group 0).restore).xlKeep 0 0x40000).xlSpan 0 true .write 0x40000 512 with | .ok x => decide (x.tgt = .loc 0x40000 ∧ r.biSpan x.tgt 512 = none) | _ => false) = true) ∧ ((run [] false).func 0).fqFull = false ∧
    moves (.runAheadStop 0) (run [⟨2, 1⟩] true) (fun t => decide ((t.func 0).fqtail = 1 ∧ readLE t.mem 0x40004 1 = 1 ∧ ((t.group 0).lane 0).xcause = 5 ∧
      ((t.group 0).lane 0).xaddr = 0x20008 ∧ ((t.group 0).lane 0).pc = 0x8000)) = true ∧
    moves (.priResponse 0 0x50000 false) pri (fun t => (t.func 0).frozen) = true ∧
    moves (.priResponse 0 0x50000 true) pri (fun t => decide ((t.func 0).pri = [] ∧ ((t.group 0).lane 0).wait = .none ∧ ((t.group 0).lane 0).pc = 7)) = true ∧
    idle.recovery = false ∧ moves (.s2inv 0 0 0x10000) idle (fun t => decide (t.cmdSeq = 1 ∧ (t.core 0).tlb.s2 = [] ∧ (t.die 0).tlb.s2 = [])) = true ∧
    moves (.s2set 0 0x100000) idle (fun t => decide ((t.func 0).s2root = 0x100000)) = true ∧
    moves (.atsInvalidation 0 0x7000 1) (onFunc (fun f => { f with atc := [7, 8] }) idle) (fun t => decide ((t.func 0).atc = [8])) = true ∧
    moves (.atsInvalidation 0 0x7000 1) host (fun t => decide ((t.core 0).wtb = [])) = true := by decide +kernel

/-- CardEventsComplete: a card with and without an edge, a free engine, the last segment, the completion of a tag and of a counter. -/
theorem witness_cards :
    let c (n : Nat) (st : CardSt) : Card := { id := n, func := 0, team := 0, tidx := 0, plane := 0, core := 0, maj := 0xC5, fn := 0, imm := 0x67F, sup := true, drec := arr 0x5000 2, pattern := 0xAB, st := st }
    let k (cards queue : List Card) : State := let s := { M [] with cur := none }; s.setDie 0 { (s.die 0) with cards := cards, cardQ := queue }
    let ctr := { c 1 (.finished 0) with counter := 0x3000, imm := 0x647 }
    let run1 := k [c 1 (.running 0)] []
    let last := { c 1 (.finished 0) with imm := 0x600, status := 2 }
    let full := onFunc (fun f => { f with fqlen := 16, fqtail := 16 }) (k [last] [])
    (c 1 (.finished 0)).tag = some 63 ∧ last.tag = none ∧ (k [] []).needsEdge (c 0 .waiting) (c 1 .formed) = true ∧
    moves (.cardAccept 0) (k [] [c 1 .formed]) (fun t => decide ((t.die 0).cards = [c 1 (.ready 0)] ∧ (t.die 0).cardQ = [])) = true ∧
    moves (.cardAccept 0) (k [c 0 (.ready 0)] [c 1 .formed]) (fun t => decide ((t.die 0).cards = [c 0 (.ready 0), { c 1 .waiting with edges := [0] }])) = true ∧
    ((k [c 1 (.ready 0)] []).die 0).freeEngine (c 1 .waiting).cls = some 0 ∧ (k [c 1 (.ready 0)] []).readyCards 0 (c 1 .waiting).cls 0 ≠ [] ∧
    moves (.cardStart 0 (c 1 .waiting).cls) (k [c 1 (.ready 0)] []) (fun t => (t.die 0).cards.any (fun x => decide (x.st = .running 0))) = true ∧
    (c 1 (.running 0)).segs = 1 ∧ (c 1 (.finished 0)).out = false ∧
    moves (.cardAccept 0) (k [] [c 1 (.finished 0)]) (fun t => decide ((t.die 0).cards = [c 1 (.finished 0)] ∧ (t.die 0).cardQ = [])) = true ∧
    (run1.team? 0).any run1.savingTeam = false ∧ (match run1.drain 0 (fun x => decide (x.func = 0)) with | .ok s => decide (s = run1) | .error _ => false) = true ∧
    (match CW.carryAll ((c 1 (.running 0)).begin run1).todo ⟨run1.useFree, (c 1 (.running 0)).begin run1⟩ with | (w, [], none) => decide (w.c.outq = []) | _ => false) = true ∧
    (match (onFunc (fun f => { f with fqlen := 16, fqbase := 0x40000 }) (tabled (k [last] []))).cardRecord last 3 0 with | .written _ => true | _ => false) = true ∧
    (match (full.cardRecord last 3 0) with | .full => true | _ => false) = true ∧
    moves (.cardComplete 0 1) full (fun t => decide (t.allCards = [] ∧ (t.func 0).fqLost = 1)) = true ∧
    moves (.cardSegmentDone 0 1) (k [c 1 (.running 0)] []) (fun t => t.allCards.all (fun x => decide (x.done = 1 ∧ x.st = .finished 0)) &&
      decide (readLE t.mem 0x5000 1 = 0xAB ∧ readLE t.mem 0x501C 1 = 0xAB ∧ readLE t.mem 0x5020 1 = 0)) = true ∧
    moves (.cardComplete 0 1) (k [c 1 (.finished 0)] []) (fun t => decide (t.allCards = [] ∧ t.mem = [])) = true ∧
    (match (k [ctr] []).cardXl ctr .write 0x3008 with | .ok x => decide (x = idTr 0x3008) | .error _ => false) = true ∧ isCellAddr 0x3008 = false ∧
    moves (.cardComplete 0 1) (k [{ ctr with counter := 0x3008 }] []) (fun t => decide (readLE t.mem 0x3008 8 = 1 ∧ (t.plane 0).tagReady.getLsbD 7 = true)) = true := by decide +kernel

/-- A bind record: function 0 by queue 0 on cores 0 and 1, weight 1, up to priority 23, all planes. -/
def bind0 : Nat := 2 ^ 15 + 2 ^ 16 + 23 * 2 ^ 40 + 3 * 2 ^ 48 + 2 ^ 72 + 3 * 2 ^ 136

/-- Function 0 and core 0 in partition 0 with `bind0`, the tables in memory, and nothing chosen. -/
def P0 : State :=
  let s := tabled (onCore (fun k => { k with part := some 0 }) (onFunc (fun f => { f with part := some 0 }) (M [])))
  { s with cur := none, parts := [(0, { slots := [(0, bind0)] })] }

/-- A grid of two teams of one group, none of them placed yet. -/
def twoTeams : Grid := { func := 0, queue := 0, lrec := { ntx := 2 }, eff := 5, order := 1 }
def pendingS : State := { P0.setGrid 1 twoTeams with nextGrid := 2 }

/-- DispatchEventsComplete, the dispatcher: a unit that fits, a hold after 1,024 pass-overs, a plane of higher priority, a queue. -/
theorem witness_dispatch :
    let s := pendingS
    let passed := { s with parts := [(0, { slots := [(0, bind0)], passed := [(640, (2 ^ 64, 1024))] })] }
    let two := { (s.setPlane 1 { (s.plane 1) with teams := [7], func := some 0 }).setTeam 7 { func := 0, grid := 1, idx := 0, rank := 0, core := 0, plane := 1, lrec := {} } with nextTeam := 8 }
    let sub := onFunc (fun f => { f with queues := [(0, [recBytes {}])] }) s
    let badSub := onFunc (fun f => { f with queues := [(0, [List.replicate 128 0])] }) s
    (s.prt 0).turn = 0 ∧ moves (.dispatchDecision 0 1) s (fun t => decide (t = s)) = true ∧ (s.curIn 0 && s.midPair) = false ∧
    moves (.planeSwitch 0) { two with cur := some ⟨0, 1, .single⟩ } (fun t => decide ((t.core 0).live = 1 ∧ t.cur = none)) = true ∧
    (s.func 0).part = some 0 ∧ ((s.prt 0).bind 0).isSome = true ∧ s.headUnit 0 5 = some (.grid 1) ∧ s.fitUnit 0 0 0 5 (.grid 1) = some [(0, 0)] ∧
    twoTeams.lrec.gpt ≤ 32 ∧ (List.range 128).all (fun x => (List.range 24).all (fun v => decide (v < 5 ∨ (v = 5 ∧ x = 0)) || (s.headUnit x v).isNone)) = true ∧
    moves (.dispatchDecision 0 0) s (fun t => decide ((t.grid? 1).map (fun g => g.placed) = some 1 ∧ (t.team? 1).map (fun x => (x.grid, x.core, x.plane)) = some (1, 0, 0) ∧
      t.group 32 = startGroup twoTeams.lrec)) = true ∧
    s.unitId (.grid 1) = 2 ^ 64 ∧ passed.holder 0 5 = none ∧ passed.passCount 0 5 0 = 1024 ∧ (List.range 128).all (fun g => decide (g = 0 ∨ passed.passCount 0 5 g = 0)) = true ∧
    moves (.headUnitHold 0 5) passed (fun t => decide (tfind (t.prt 0).holds 5 = some (0, 2 ^ 64) ∧ t.holder 0 5 = some (0, 2 ^ 64))) = true ∧
    moves (.planeSwitch 0) s (fun t => decide (t = s)) = true ∧ two.planePri (two.plane 1) = some 5 ∧ two.planePri (two.plane 0) = some 0 ∧
    moves (.planeSwitch 0) two (fun t => decide ((t.core 0).live = 1)) = true ∧
    sub.stopping 0 = false ∧ (sub.bindOf 0).map (fun b => bindQueue b 0) = some true ∧ recOk (recBytes {}) = true ∧
    moves (.launchAccept 0 0) sub (fun t => decide (tget [] (t.func 0).queues 0 = [] ∧ (t.grid? 2).map (fun g => (g.queue, g.eff, g.placed)) = some (0, 0, 0))) = true ∧
    moves (.launchAccept 0 0) badSub (fun t => decide (t.grids = s.grids) && (tget 0 (t.func 0).err 0).getLsbD 0) = true := by decide +kernel

/-- DispatchEventsComplete, the ends: a team whose groups have ended, a grid without and with a counter, a spilled child, a blocked
team, an empty plane, a bind record, granules. -/
theorem witness_ends :
    let s := P0
    let gone := onGroup (fun g => { g with live := 0 }) s
    let grid (r : Rec) (n : Nat) : State := s.setGrid 0 { func := 0, queue := 0, lrec := r, eff := 0, placed := 1, ended := n }
    let spill := putMem 0x6000 (recBytes {}) (s.setGrid 0 { func := 0, queue := 0, lrec := { spb := 0x6000, spn := 2 }, eff := 0, placed := 1, spillHead := 0, spillTail := 1, spillParents := [0] })
    let spoilt := putMem 0x6000 (List.replicate 128 0) spill
    let waits := { onLanes (fun l => { l with wait := .cjoin }) (onTeam (fun t => { t with children := 1 }) pendingS) with grids := pendingS.grids.map (fun (e : Nat × Grid) => (e.1, { e.2 with lrec := { e.2.lrec with gpt := 32, regs := 64 } })), parts := [(0, { slots := [(0, bind0 - 2 * 2 ^ 48)] })] }
    s.groupsEnded 0 { func := 0, grid := 0, idx := 0, rank := 0, core := 0, plane := 0, lrec := richRec } = false ∧
    (gone.team? 0).map (fun t => gone.groupsEnded 0 t) = some true ∧ gone.teamCards 0 = false ∧ gone.gangIdle 0 = true ∧
    moves (.teamEnd 0) gone (fun t => decide (t.team? 0 = none ∧ (t.plane 0).teams = [] ∧ t.groups = [] ∧ t.agenda = [.gridComplete 0])) = true ∧
    (match (grid {} 1).drainAll 0 with | .ok t => decide (t = grid {} 1) | .error _ => false) = true ∧
    moves (.gridComplete 0) (grid {} 1) (fun t => decide (t.grid? 0 = none ∧ t.mem = s.mem)) = true ∧
    (grid { ccnt := 0x3008 } 1).xlDirect 0 .write 0x3008 = .ok ⟨0x3008, .loc 0x3008, 0x1F, false⟩ ∧
    moves (.gridComplete 0) (grid { ccnt := 0x3008 } 1) (fun t => decide (t.grid? 0 = none ∧ readLE t.mem 0x3008 8 = 1)) = true ∧
    (spill.grid? 0).map (fun g => spill.spillDue g) = some true ∧ spill.devBusy 0 ⟨spillKey, 0, 0⟩ = false ∧ spill.parkedLaunches = [] ∧
    (match spill.devRead 0 0 true 0x6000 128, spoilt.devRead 0 0 true 0x6000 128 with
     | .ok a x, .ok b y => decide (a = spill ∧ x = recBytes {} ∧ b = spoilt ∧ recOk y = false) | _, _ => false) = true ∧
    moves (.spillReturn 0) spoilt (fun t => decide ((t.grid? 0).map (fun g => (g.spillHead, g.spillParents)) = some (1, [])) && (tget 0 (t.func 0).err 0).getLsbD 3) = true ∧
    waits.swapDue 0 = true ∧ s.swapDue 0 = false ∧
    (spill.grid? 0).map (fun g => spill.xlDirect 0 .read (g.spillVa 0)) = some (.ok ⟨0x6000, .loc 0x6000, 0x1F, false⟩) ∧
    moves (.spillReturn 0) spill (fun t => decide ((t.grid? 0).map (fun g => (g.spillHead, g.spillParents)) = some (1, []) ∧ (t.prt 0).pool = [1])) = true ∧
    waits.partTeams 0 ≠ [] ∧ waits.teamBlocked 0 = true ∧ (waits.headUnit 0 5).isSome = true ∧ waits.fitUnit 0 0 0 5 (.grid 1) = none ∧
    moves (.blockedUnitSwap 0) waits (fun t => decide (t.saving.map (fun j => (j.plane, j.why)) = [(0, .swap)] ∧ t.agenda = [.contextSave 0 0])) = true ∧
    (s.plane 1).teams = [] ∧ moves (.planeCleared 1) s (fun t => (t.plane 1).cleared) = true ∧
    s.retiredCores = [] ∧ moves (.bindRecordWrite 31 127 (leBytes bind0 64)) s (fun t => decide (tget 0 (t.prt 31).slots 127 = bind0)) = true ∧
    moves (.chipScratchpadGrant 0 [0, 63]) { s with chip := [(5, 7)] } (fun t => decide ((t.func 0).grant = [0, 63] ∧ t.chip = [])) = true := by decide +kernel

/-! ### Witnesses: contexts, partitions, gangs (21, 22) -/

def P1 : State := onFunc (fun f => { f with savebase := 0x80000, savelen := 8 }) (onTeam (fun t => { t with lrec := {}, qmask := 0 }) P0)
/-- Plane 0 of function 0 with no team, and its image. -/
def P2 : State := { P1.setPlane 0 { func := some 0 } with teams := [], groups := [], grids := [] }
def img : List Byte := P2.imageOf 0 (P2.srcAt 0)
/-- An image at 0x80000 that comes back on the empty core 1. -/
def P3 (bytes : List Byte) : State :=
  { putMem 0x80000 bytes { P2 with planes := [] } with
    saved := [{ func := 0, va := 0x80000, len := bytes.length, teams := [], core := 0, plane := 0, batch := 0, blocked := false, eff := 0, place := some (1, 0) }] }

/-- The batch of the first saved image: whether each image is whole, its teams, its plane, and whether its cards fit. -/
def batchOf (s : State) : Option (List (Bool × Nat × Nat × Bool)) :=
  match s.saved.head?.bind (fun x => s.placedBatch x) with
  | some l => (match s.readBatch l with
    | .ok (s1, m) => some (m.map (fun e => (e.2.2.2.isSome, e.1.teams.length, 3 * e.2.1 + e.2.2.1, s1.cardsFit m)))
    | .error _ => none)
  | none => none

/-- ContextAndPartitionEventsComplete, the planes. -/
theorem witness_context :
    let job := { P1 with saving := [⟨0, 0, .slice, none⟩] }
    let h := job.haltPlane 0
    P0.partTeams 0 ≠ [] ∧ (P0.plane 0).teams = [0] ∧ moves (.timeSliceEnd 0) P0 (fun t => decide (t.saving.map (fun j => (j.plane, j.why)) = [(0, .slice)])) = true ∧
    moves (.contextSave 0 0) P0 (fun t => decide (t.saving.map (fun j => (j.plane, j.why)) = [(0, .slice)])) = true ∧
    moves (.contextDump 0 0) P0 (fun t => decide (t.saving.map (fun j => (j.plane, j.why)) = [(0, .dump)])) = true ∧
    job.saving.find? (fun j => decide (j.plane = 0)) = some ⟨0, 0, .slice, none⟩ ∧ h.rowsOut (job.plane 0).teams.contains = [] ∧ job.cur = none ∧ (job.plane 0).matq = [] ∧
    h.groupsOf 0 = [0] ∧ h.groupsQuiet 0 = true ∧ job.planes.all (fun e => !e.2.sends [0].contains) = true ∧ h.cardsQuiet [0] = true ∧
    (match h.drain 0 (fun e => decide (some e.func = (job.plane 0).func)) with | .ok _ => true | .error _ => false) = true := by decide +kernel

/-- The same: an image that is written, and images that come back, whole and damaged. -/
theorem witness_resume :
    (P2.plane 0).func = some 0 ∧ P2.landPlane [] = P2 ∧ P2.savePlace 0 img.length = some 0x80000 ∧
    (List.range 3).all (fun q => !P2.streams q) = true ∧ (match { P2 with nextTok := P2.nextTok + 1 }.devPut 0 0 ⟨saveKey, P2.nextTok, 0⟩ 0x80000 img with
      | .ok s3 _ => !s3.devBusy 0 ⟨saveKey, P2.nextTok, 0⟩ | _ => false) = true ∧
    batchOf (P3 (leBytes 8 4)) = some [(false, 0, 3, true)] ∧ batchOf (P3 img) = some [(true, 0, 3, true)] ∧
    (readImage img).map (fun x => x.2.length) = some 0 ∧
    moves (.contextResume 0 0x80000 1) (P3 img) (fun t => decide ((t.plane 3).func = some 0 ∧ t.saved = [])) = true ∧
    ((P3 (leBytes 8 4)).func 0).frozen = false ∧ (P3 (leBytes 8 4)).stopping 0 = false ∧
    moves (.contextResume 0 0x80000 1) (P3 (leBytes 8 4)) (fun t => (t.func 0).frozen) = true := by decide +kernel

/-- The same, the commands: PART, LEND, RECALL and GANG, applied and refused. -/
theorem witness_partition :
    let s := P0
    let lent := s.setCore 0 { (s.core 0) with lentTo := some 1 }
    let g2 : State := { s with funcs := s.funcs ++ [(1, { s.func 0 with exist := true, part := some 1 })] }
    let l : List (Nat × Nat × Nat) := [(0, 0, 0x6000), (1, 1, 0x6000)]
    let recs := putMem 0x6000 (recBytes {}) g2
    let go := { recs with gangs := [⟨0, l, 0⟩], cores := [(0, { s.core 0 with part := some 0 }), (1, { part := some 1 })], parts := [(0, { slots := [(0, bind0)] }), (1, { slots := [(0, bind0 + 1 + 2 ^ 73)] })] }
    s.recovery = false ∧ moves (.part (.func 127) 31) s (fun t => decide ((t.func 127).part = some 31)) = true ∧ (s.core 0).lentTo = none ∧
    moves (.part (.cores [319]) 1) s (fun t => decide ((t.core 319).part = some 1)) = true ∧
    moves (.part (.cores [0]) 1) lent (fun t => decide ((t.core 0).part = some 0)) = true ∧ (s.core 0).part = some 0 ∧
    moves (.lend 0 0 1) s (fun t => decide ((t.core 0).lentTo = some 1 ∧ t.cmdSeq = 1)) = true ∧
    moves (.lend 0 2 1) s (fun t => decide ((t.core 0).lentTo = none)) = true ∧ lent.recalls = [] ∧ lent.borrowed 0 1 = [] ∧
    moves (.recallCore 0 1 0) lent (fun t => decide ((t.core 0).lentTo = none)) = true ∧
    (l.map (fun p => (recs.func p.1).part)).eraseDups.length = l.length ∧ (recs.gangRecs l).isSome = true ∧ g2.gangRecs l = none ∧
    recs.gangWait l = none ∧ g2.gangWait l = none ∧ (go.gangRecs l).isSome = true ∧
    moves (.gang l) recs (fun t => decide (t.gangs = [⟨0, l, 0⟩])) = true ∧ moves (.gang l) g2 (fun t => decide (t.gangs = [])) = true ∧
    moves .gangAttempt { recs with gangs := [⟨0, l, 0⟩], parts := [] } (fun t => decide (t.gangs = [⟨0, l, 4000⟩] ∧ t.teams = recs.teams)) = true ∧
    moves .gangAttempt go (fun t => decide (t.gangs = [] ∧ t.teams.length = recs.teams.length + 2)) = true := by decide +kernel

/-! ### Witnesses: the host interface (22, 29) -/

def ringed (tail : Word) : State := { P0 with isReady := true, ringBase := 0x4000, ringLen := 16, ringTail := tail }

def fpaOk (s : State) (func : Nat) (w : Bool) : Option Tgt :=
  match (s.fpaKeep func 0x5000).fpaXl func 0x5000 512 w with | .ok x => some x.tgt | _ => none

theorem witness_host :
    let s := ringed 15
    let v := [(16, 1, 7)]
    let clear := { P0 with teams := [], groups := [], grids := [], isReady := true }
    let n (bytes : List Byte) (off : Nat) : State := { s with notifyQ := [⟨0, 0, off, 0, 0, 0, true, bytes⟩] }
    let thawed := onFunc (fun f => { f with err := [(1, 0x20)] }) (n (leBytes 0x6000 8) 8)
    let fin := onFunc (fun f => { f with meter := { f.meter with final := some (List.replicate 512 7) }, metreq := some 0x5000, s2root := 0x100000 }) s
    (s.ringTail - s.ringHead).toNat ≠ s.ringLen ∧ ((ringed 16).ringTail - (ringed 16).ringHead).toNat = (ringed 16).ringLen ∧
    (s.post 0 3 9 v).ringTail = 16 ∧ readLE (s.post 0 3 9 v).hostMem (0x4000 + 64 * 15 + 4) 4 = 15 ∧ ((ringed 16).post 0 3 9 v).ringOverflow = true ∧
    (P0.post 0 3 9 v).held = [eventBytes 0 3 9 v] ∧ (s.func 0).exist = true ∧ s.queueBusy 0 63 = false ∧
    moves (.queueSubmit 0 63 true (recBytes {})) s (fun t => decide (tget [] (t.func 0).queues 63 = [recBytes {}])) = true ∧
    moves (.queueSubmit 0 63 true [0]) s (fun t => (t.func 0).frozen) = true ∧
    moves .notify (n (leBytes 5 4) 516) (fun t => decide (t.notifyQ = [] ∧ t.ringTail = 16)) = true ∧
    (match (n (leBytes 0x6000 8) 8).releaseWait 0 0 .part with | .ok t => decide (t = n (leBytes 0x6000 8) 8) && (match t.devRead 0 0 true 0x6000 128 with | .ok .. => true | _ => false) && !t.queueBusy 0 1 | .error _ => false) = true ∧
    moves .notifyEnqueue (n (leBytes 0x6000 8) 8) (fun t => decide (tget [] (t.func 0).queues 1 = [List.replicate 128 0])) = true ∧
    thawed.queueBusy 0 1 = true ∧ moves (.queueSubmit 0 1 true (recBytes {})) thawed (fun t => decide (t = thawed)) = true ∧
    moves .notifyEnqueue thawed (fun t => (tget 0 (t.func 0).err 1).getLsbD 1) = true ∧
    moves (.registerWrite (.xvec 0) 0x8035) s (fun t => decide ((t.func 0).xvec = 0x8000)) = true ∧ s.allCards = [] ∧
    moves (.fqSetupWrite 0 true 4096) s (fun t => decide ((t.func 0).fqlen = 4096)) = true ∧ moves (.fqSetupWrite 0 true 48) s (fun t => decide ((t.func 0).fqlen = 0)) = true ∧
    clear.hasTeams 0 = false ∧ moves (.lpSaveRegWrite 0 .lpsize 1024) clear (fun t => decide ((t.func 0).lpsize = 1024)) = true ∧
    s.hasTeams 0 = true ∧ moves (.lpSaveRegWrite 0 .savebase 0) s (fun t => (tget 0 (t.func 0).err 0).getLsbD 6 && decide ((t.func 0).savebase = (s.func 0).savebase)) = true ∧
    (tget {} s.migs 7).idle = true ∧ moves (.registerWrite (.mbw 7) 5) s (fun t => decide ((tget {} t.migs 7).bw = 5)) = true ∧
    moves (.ringheadWrite 15) s (fun t => decide (t.ringHead = 15)) = true ∧ moves (.ringheadWrite 16) s (fun t => decide (t = s)) = true ∧
    moves (.pwrlimWrite 1500) s (fun t => decide (t.pwrlim = 1500)) = true ∧ moves (.pwrlimWrite 1499) s (fun t => decide (t = s)) = true ∧ s.recovery = false ∧
    moves (.qthaw 0 63) s (fun t => decide (t.cmdSeq = 1)) = true ∧ s.held = [] ∧
    moves (.ringset 0x8000 65536) s (fun t => decide (t.ringBase = 0x8000 ∧ t.ringLen = 65536 ∧ t.ringTail = 1)) = true ∧
    fpaOk fin 0 false = some (.loc 0x5000) ∧ fpaOk fin 0 true = some (.loc 0x5000) ∧ fin.biSpan (.loc 0x5000) 512 = none ∧ moves (.metrd 0 0x5000) fin (fun t => decide (readLE t.mem 0x5000 1 = 7)) = true ∧
    (s.func 0).metreq = none ∧ fpaOk (onFunc (fun f => { f with s2root := 0 }) fin) 0 true = none ∧ completes (.meterReport 0) fin = true ∧ (fin.func 0).metreq = some 0x5000 ∧
    moves (.vfEnableSet 127) s (fun t => decide (t.vfEnable = true ∧ t.numVFs = 127)) = true ∧
    moves (.vfFlr 127) { s with funcs := s.funcs ++ [(127, { s.func 0 with exist := true, frozen := true })] } (fun t => decide ((t.func 127).frozen = false ∧ (t.func 127).xvec = 0)) = true ∧
    moves .vfEnableClear s (fun t => decide (t.vfEnable = false ∧ (t.func 127).exist = false)) = true := by decide +kernel

/-! ### Witnesses: reset, power, soft errors, host memory (22, 29) -/

theorem witness_device :
    let s := ringed 0
    let c : Card := { id := 1, func := 0, team := 0, tidx := 0, plane := 0, core := 0, maj := 0xC5, fn := 0, imm := 0, sup := true, drec := arr 0x5000 2, st := .running 0 }
    let eng := s.setDie 0 { (s.die 0) with cards := [c] }
    let bi := { s with biPend := [9], snoop := [9] }
    s.recovery = false ∧ moves (.resetQueue 0 63) s (fun t => decide (tget [] (t.func 0).queues 63 = [])) = true ∧
    0 < engines (engCls .copy) ∧ c.st.engine = some (64 * engCls .copy + 0) ∧
    moves (.resetEngine 0 .copy 0) eng (fun t => t.allCards.all (fun x => decide (x.st = .finished 0 ∧ 2 ≤ x.status ∧ x.counter = 0))) = true ∧
    moves (.resetEngine 0 .copy 0) (s.setDie 0 { (s.die 0) with cards := [{ c with inseg := true }] }) (fun t => t.allCards.all (fun x => decide (x.st = .running 0 ∧ x.ending = true ∧ x.counter = 0))) = true ∧
    moves (.resetPartition 0) s (fun t => decide (t.teams = [] ∧ (t.func 0).s1root = 0)) = true ∧
    moves (.resetDie 0) s (fun t => decide (t.teams = [] ∧ (t.core 0).tlb = {} ∧ (t.core 0).part = some 0)) = true ∧
    moves .resetFlr s (fun t => decide (t.teams = [] ∧ t.ringLen = 0)) = true ∧
    moves .resetDevice s (fun t => decide (t.isReady = false ∧ t.mem = [] ∧ t.funcs = [] ∧ t.clock = 0)) = true ∧
    moves .powerOn s (fun t => decide (t.isReady = false ∧ t.mem = [] ∧ t.held = [])) = true ∧
    moves (.keystoneRestart false) { s with ksLast := some 0, clock := 3999999999 } (fun t => decide (t.clock = 0)) = true ∧
    moves (.keystoneRestart false) { s with ksLast := some 0, clock := 4000000000 } (fun t => decide (t.ksLast = some 4000000000)) = true ∧
    moves .deviceReady { s with isReady := false } (fun t => decide (t.isReady = true ∧ t.mem = [] ∧ (t.func 0).exist = true)) = true ∧
    moves (.configImageWrite 7 false) s (fun t => decide (t.flashVer = 7 ∧ t.flashOk = false)) = true ∧
    moves (.powerSample 40000) s (fun t => decide (t.clknow = 3875 ∧ t.pwrnow = 4000)) = true ∧
    moves (.powerSample 0) { s with caps := 1 } (fun t => decide (t.caps = 0 ∧ t.clknow = 4000)) = true ∧
    moves (.powerSample 29000) { s with powerHist := [], caps := 1 } (fun t => decide (t.caps = 1)) = true ∧
    moves (.powerSample 40000) { s with caps := 16 } (fun t => decide (t.caps = 16 ∧ t.clknow = 2000)) = true ∧
    moves (.ageingReplan none) s (fun t => decide (t.agehrs = 1)) = true ∧ bitOf s.agestat 21 = false ∧ s.regionPlanes 21 = [] ∧
    moves (.ageingReplan (some 21)) s (fun t => bitOf t.agestat 21) = true ∧ moves (.airanPortChange 63 true) s (fun t => t.ports.getLsbD 63) = true ∧
    moves (.softError (.mem 0x100) false) s (fun t => decide (0x100 ∈ t.memMarks ∧ (t.die (s.errDie (.mem 0x100))).errlog = 1)) = true ∧ maBacked 0x100 = true ∧
    s.hostWaits (.write 0x100 [7]) = false ∧ moves (.hostMemAccess (.write 0x100 [7])) s (fun t => decide (readLE t.mem 0x100 1 = 7)) = true ∧
    bi.hostWaits (.write (9 * 512) [7]) = true ∧ moves (.hostMemAccess (.write (9 * 512) [7])) bi (fun t => decide (t.hostWait = [.write (9 * 512) [7]])) = true ∧
    bi.netWait = [] ∧ moves (.birsp (9 * 512) (List.replicate 512 0)) bi (fun t => decide (t.biPend = [] ∧ t.snoop = [] ∧ t.biGo = [9])) = true ∧
    moves (.hostSnoop 0x200) { s with hostLines := [(1, 0)] } (fun t => decide (t.hostLines = [])) = true := by decide +kernel

/-- The pin writes a last report for each function, with a signature that is a free value (log entry 12). -/
theorem witness_pin : completes .moduleResetPin (ringed 0) = true ∧ ((ringed 0).func 0).exist = true := by decide +kernel

/-! ### Witnesses: the fabric (25) -/

theorem witness_fabric :
    let s : State := { onFunc (fun f => { f with vdn := some 7 }) P0 with vdnTable := [(8, { accept := true, valid := true, ports := 1 })], ports := 1, redirect := [(0, { vdn := 7, w := true, r := true, old := 5, new := 4, len := 1, valid := true })] }
    let p (type stat : Nat) (payload : List Byte) : Packet := ⟨7, 8, type, if type < 16 then 0 else 1, stat, 0, 0x50080, false, none, true, payload, 0⟩
    let sent : Packet := ⟨8, 7, 1, 0, 0, 0, 0x50080, false, none, true, [], 0⟩
    let r : RReq := { pkts := [(0, sent)], since := 0, what := .load 0 5 .w32 4 [(0, 0)] 0x50080 none none, func := 0 }
    let q (s : State) (r : RReq) : State := onGroup (fun g => { g with outs := [⟨5, 1, 1⟩] }) (onCore (fun k => { k with peers := [(0, { vdn := 8, slots := [(0, r)] })] }) s)
    let late := { q s { r with movedAt := some 0 } with clock := 4000000 }
    let silent := { q s r with clock := 8000000 }
    let moved := { s with movedVdns := [9] }
    let window := { s with migs := [(0, { vdn := some 9, st := 4 })] }
    let st := { onCore (fun k => { k with peers := [(0, { vdn := 8, stores := [{ pkt := sent, what := ⟨0, 5, 1⟩, func := 0, movedAt := some 0 }] })] }) s with clock := 4000000 }
    (∀ e ∈ s.funcs, e.2.domState = 0) ∧ pktSound (p 1 0 []) = true ∧ pktSound (p 2 0 (List.replicate 144 0)) = true ∧ pktSound (p 0x10 0 (List.replicate 128 9)) = true ∧
    s.routes 8 = true ∧ s.funcOfVdn 7 = some 0 ∧ s.migs = [] ∧ s.servedAt (p 1 0 []) = some 0x40080 ∧ maBacked 0x40080 = true ∧ s.memMarks = [] ∧
    moves (.remoteRequestReceive (p 1 0 [])) s (fun t => decide (t.netOut = [answer (p 1 0 []) 0 (List.replicate 128 0)])) = true ∧
    s.servedAt (p 2 0 []) = some 0x40080 ∧ s.snooped (.loc 0x40080) = false ∧
    moves (.remoteRequestReceive (p 2 0 (List.replicate 128 9 ++ leBytes 3 16))) s (fun t => decide (readLE t.mem 0x40080 4 = 0x0909)) = true ∧
    moves (.remoteRequestReceive (p 1 0 [])) { s with vdnTable := [] } (fun t => decide (t.netOut = [answer (p 1 0 []) 2 []])) = true ∧
    moves (.remoteRequestReceive (p 5 0 [])) s (fun t => decide (t.portErr = [(0, 1)] ∧ t.netOut = [])) = true ∧
    moves (.remoteResponseReceive (p 0x10 0 (List.replicate 128 9))) (q s r) (fun t => decide ((t.group 0).outs.all (fun o => decide (o.lanes &&& 1 = 0)) = true ∧
      (t.core 0).peers.all (fun e => decide (tfind e.2.slots 0 = none)) = true)) = true ∧
    moves (.remoteResponseReceive (p 0x10 2 [])) (q s r) (fun t => (t.func 0).frozen) = true ∧
    moves (.remoteResponseReceive (p 0x10 1 [])) (q s r) (fun t => decide (t.netOut = [sent])) = true ∧
    moves (.remoteRequestReceive { p 1 0 [] with dst := 9 }) moved (fun t => decide (t.netOut = [answer { p 1 0 [] with dst := 9 } 1 []])) = true ∧
    window.forwards 9 = true ∧ moves (.remoteRequestReceive { p 1 0 [] with dst := 9 }) window (fun t => decide (t.netOut = [{ p 1 0 [] with dst := 9, vc := 3 }])) = true ∧
    s.forwards 9 = false ∧ s.netWait = [] ∧ ((q s r).core 0).later = [] ∧ (tfind s.groups 0).isSome = true ∧
    moves (.movedTimeout 0 0) late (fun t => (t.func 0).frozen) = true ∧ moves (.movedTimeout 0 0) (q s r) (fun t => decide (t = q s r)) = true ∧
    moves (.responseSlotTimeout 0 0) silent (fun t => (t.func 0).frozen) = true ∧
    moves (.responseSlotTimeout 0 0) { silent with clock := 7999999 } (fun t => decide (t = { silent with clock := 7999999 })) = true ∧
    moves (.movedTimeout 0 128) st (fun t => (t.func 0).frozen) = true ∧
    moves (.fmVdnBind 0 4095) s (fun t => decide ((t.func 0).vdn = some 4095)) = true ∧
    moves (.fmVdnTableWrite 4095 (3 * 2 ^ 62 + 5 * 2 ^ 64)) s (fun t => decide (tget {} t.vdnTable 4095 = { ports := 5, valid := true, accept := true })) = true ∧
    moves (.fmRedirectWrite 1023 (1 + 3 * 2 ^ 8 + 4 * 2 ^ 40 + 5 * 2 ^ 76 + 2 ^ 112 + 7 * 2 ^ 116)) s (fun t => decide (tget {} t.redirect 1023 =
      { vdn := 7, w := false, r := true, old := 5, new := 4, len := 3, valid := true })) = true := by decide +kernel

/-! ### Witnesses: live migration (23) -/

/-- Function 0 without teams, with VDN 7, and migration block 7 as given. -/
def migS (x : Mig) : State :=
  { onFunc (fun f => { f with vdn := some 7 }) P0 with teams := [], groups := [], grids := [], planes := [], isReady := true, migs := [(7, x)] }

theorem witness_migration :
    let idle : Mig := { bw := 1024, budget := 300, peer := 8 }
    let w : Win := { func := 0, base := 4, len := 1, map := 0, dirty := [512, 513] }
    let x (st phase : Nat) : Mig := { idle with st := st, phase := phase }
    let copies (n : Nat) : State := { migS { x 1 1 with todo := List.replicate n 512 } with wins := [w] }
    let pkt (payload : List Byte) : Packet := ⟨7, 8, 0x30, 3, 0, 5, 0, false, none, true, payload, 0⟩
    let man (n : Nat) : List Byte := (List.replicate 512 0).set 24 (BitVec.ofNat 8 n)
    let dest (n : Nat) : State := onFunc (fun f => { f with savebase := 0x80000 }) (migS { x 8 1 with manifest := some (man n) })
    let s := migS idle
    let far := { s with wins := List.replicate 64 { w with func := 1 } }
    (s.growWins 0).isSome = true ∧ (far.growWins 0).isNone = true ∧ moves (.migStart 7) far (fun t => decide ((t.mig 7).st = 0)) = true ∧
    moves (.migStart 7) s (fun t => decide ((t.mig 7).st = 1 ∧ (t.mig 7).phase = 2) && t.wins.any (fun w => decide (w.base = 4 ∧ w.dirty.length = 128 * w.len))) = true ∧
    moves (.migStart 7) (migS { idle with bw := 1025 }) (fun t => decide ((t.mig 7).st = 0)) = true ∧
    moves (.migStart 7) (migS (x 1 0)) (fun t => decide ((t.mig 7).st = 1)) = true ∧ s.hasTeams 0 = false ∧ s.mapsAll 0 [(4, 9, 1)] = true ∧ s.mapsAll 0 [(9, 9, 1)] = false ∧
    moves (.migAccept 7) (migS { idle with map := [(4, 9, 1)], owed := [pkt (leBytes 3 1)] }) (fun t => decide ((t.mig 7).st = 8 ∧ t.netOut.length = 1)) = true ∧
    moves (.migAccept 7) (migS { idle with map := [(9, 9, 1)] }) (fun t => decide ((t.mig 7).st = 0)) = true ∧
    moves (.trowelRound 7) (migS { x 1 2 with unacked := 1 }) (fun t => decide ((t.mig 7).phase = 2)) = true ∧ moves (.trowelRound 7) (migS (x 1 2)) (fun t => decide ((t.mig 7).phase = 0)) = true ∧
    moves (.trowelRound 7) { migS { x 1 1 with unacked := 1 } with clock := 8000000 } (fun t => decide ((t.mig 7).st = 7)) = true ∧
    moves (.migAbort 7) (migS (x 2 0)) (fun t => decide ((t.mig 7).st = 6)) = true ∧
    moves (.migForce 7) (migS (x 2 0)) (fun t => decide ((t.mig 7).st = 3)) = true ∧ moves (.migForce 7) (migS (x 3 0)) (fun t => decide ((t.mig 7).st = 3)) = true ∧
    moves (.migClear 7) (migS (x 9 0)) (fun t => decide ((t.mig 7).st = 0 ∧ (t.mig 7).bw = 1024)) = true ∧ moves (.migClear 7) (migS (x 8 0)) (fun t => decide ((t.mig 7).st = 8)) = true ∧
    moves (.trowelRound 7) { migS (x 1 0) with wins := [w] } (fun t => decide ((t.mig 7).phase = 1 ∧ (t.mig 7).todo.take 2 = [512, 513] ∧ t.wins.head? = some { w with dirty := [] }) && t.wins.all (fun w => decide (w.dirty = []))) = true ∧
    ((copies 1).leavesOf 0).filter (fun e => decide (e.2 = 512 / 128)) = [(4, 4)] ∧ (copies 1).copyLate (x 1 1) = false ∧
    moves (.trowelRound 7) (copies 1) (fun t => decide ((t.mig 7).todo = [] ∧ (t.mig 7).unacked = 4 ∧ t.netOut.map (fun q => (q.dst, q.type, q.payload.length)) = List.replicate 4 (8, 0x30, 153))) = true ∧
    moves (.trowelRound 7) (copies 0) (fun t => decide ((t.mig 7).round = 1 ∧ (t.mig 7).pred = 250000 + (copies 0).resid 0 / 1024 ∧ (t.mig 7).st = 3)) = true ∧
    moves (.trowelRound 7) (migS (x 3 2)) (fun t => decide ((t.mig 7).st = 4 ∧ (t.func 0).vdn = none ∧ (t.mig 7).vdn = some 7)) = true ∧
    moves (.forwardingEnd 7) { migS (x 4 0) with clock := 255999 } (fun t => decide ((t.mig 7).st = 4)) = true ∧
    moves (.forwardingEnd 7) { migS { x 4 0 with vdn := some 7 } with clock := 256000 } (fun t => decide ((t.mig 7).st = 5 ∧ 7 ∈ t.movedVdns)) = true ∧
    (migS (x 8 0)).copyAt (x 8 0) (pkt (leBytes 0 1 ++ leBytes 0x40180 8)) = some 0x40180 ∧ pktSound (pkt (List.replicate 153 0)) = true ∧
    moves (.migCopyReceive 7 (pkt (leBytes 0 1 ++ leBytes 0x40180 8 ++ List.replicate 127 0 ++ [9] ++ List.replicate 16 0))) (migS (x 8 0)) (fun t => decide (t.netOut.length = 1 ∧ readLE t.mem 0x401FF 1 = 9 ∧ (t.mig 7).recv = [0x40180 / 128])) = true ∧
    moves (.migCopyReceive 7 (pkt (leBytes 4 1 ++ leBytes 1 1))) (onFunc (fun f => { f with vdn := none }) (migS { x 8 0 with manifest := some (man 0), map := [(4, 9, 1)] })) (fun t => decide ((t.mig 7).phase = 1 ∧ (t.func 0).vdn = some 8 ∧
      t.redirect = [(0, { vdn := 8, w := true, r := true, old := 9, new := 4, len := 1, valid := true })])) = true ∧
    (match (dest 1).devRead 0 0 true ((dest 1).func 0).savebase 1 with | .ok _ bs => decide (splitImages 1 bs = none) | _ => false) = true ∧ s.retireWait = [] ∧
    (match (onFunc (fun f => { f with savebase := 0x100000 }) (dest 1)).devRead 0 0 true 0x100000 1 with | .stop .. => true | _ => false) = true ∧ recNum (man 1) 24 8 = 1 ∧
    moves (.migResume 7) (dest 1) (fun t => decide ((t.mig 7).st = 7) && (t.func 0).frozen) = true ∧ recNum (man 0) 24 8 = 0 ∧
    moves (.migCopyReceive 7 (pkt (leBytes 2 1))) (migS (x 8 0)) (fun t => decide ((t.mig 7).st = 7)) = true ∧ s.saving = [] ∧ (s.func 0).domState = 0 ∧
    moves (.migResume 7) (dest 0) (fun t => decide ((t.mig 7).phase = 2 ∧ (t.mig 7).st = 8)) = true ∧
    ({ P0 with migs := [(7, { x 8 2 with manifest := some (man 0) })] } : State).migs.find? (fun e => decide (e.2.func = 0) && decide (e.2.st = 8) && decide (e.2.phase = 2)) = some (7, { x 8 2 with manifest := some (man 0) }) ∧
    (({ P0 with migs := [(7, { x 8 2 with manifest := some (man 0) })] } : State).firstIssue 0).migs.all (fun e => decide (e.2.st = 9)) = true := by decide +kernel

/-! ### Witnesses: collectives and trust domains (26, 27) -/

theorem witness_collective_events :
    let al : Alg := { axes := 1, elt := 0, op := 0, skip := 0, tileb := 512, ntile := 1 }
    let sw (w : Switch) : State := { onFunc (fun f => { f with vdn := some 7 }) P0 with sw := { w with meshes := [⟨[2], [7, 8]⟩] } }
    let hd (tile rank off : Nat) : CHead := { tile := tile, rank := rank, off := off, alg := al }
    let pk (type : Nat) (h : CHead) (data : List Byte) : Packet := collPacket type 7 0 9 3 h data
    let x : SwSlot := { group := [7, 8], handle := 9, inst := 3, alg := al, vdn := 7, weight := 0, since := 0, kind := 0, granted := [7] }
    let other (n : Nat) : SwSlot := { x with group := [5, 6], handle := n }
    let full : List SwSlot := (List.range 256).map other
    let rq : SwSlot := { x with granted := [], since := (sw {}).clock }
    let one := sw { slots := [x] }
    let k (q o : Nat) : Nat := q * 2 ^ 60 + o
    let pc (q o n : Nat) : Nat := k q o * 256 + n
    let last : SwSlot := { x with came := [pc 1 0 208, pc 1 208 208, pc 1 416 96, pc 0 0 208, pc 0 208 208] }
    let wet (w : SwSlot) := sw { slots := [w] }
    let nack : Packet := { pk 0x27 (hd 0 0 0) [] with stat := 4, rid := 2 * 0x22 }
    let ackp : Packet := { pk 0x27 (hd 0 1 0) [] with rid := 1 }
    let s := meshed P0
    let rqp : Packet := pk 0x20 (hd 0 0 0) []
    let served (w : Switch) : Switch := (sw { w with inbox := [(rq, rqp)] }).serveInbox.sw
    let next : SwSlot := { x with inst := 2, kind := 2, acked := [1, 2] }
    let toHost (inst type stat : Nat) : Packet := { collPacket type 8 7 9 inst (hd 3 0 0) [] with stat := stat }
    let c : Card := { id := 1, func := 0, team := 0, tidx := 0, plane := 0, core := 0, maj := 0xE1, fn := 0, imm := 0, sup := true, counter := 0x3000, srec := redRec, drec := [], orig := [3, 1, 0], phase := 1, st := .running 0 }
    let with1 := s.setDie 0 { (s.die 0) with cards := [c] }
    let with2 := s.setDie 0 { (s.die 0) with cards := [{ c with done := 1 }] }
    let cal : Alg := { al with ntile := 4 }
    (sw {}).sw.groupOf 7 1 = some [7, 8] ∧ (headOf (pk 0x20 (hd 0 0 0) []).payload).alg = al ∧
    moves (.slotreq rqp) (sw {}) (fun t => decide (t.sw.inbox = [(rq, rqp)] ∧ t.sw.slots = [] ∧ t.sw.out = [])) = true ∧
    pktSound rqp = true ∧ one.doms = [] ∧ decide ((served {}).slots = [{ rq with granted := [7] }] ∧ (served {}).out = [grantTo rq 7] ∧ (served {}).inbox = []) = true ∧
    decide ((served { slots := full }).queue = [rq] ∧ (served { slots := full }).slots = full ∧ (served { slots := full }).out = []) = true ∧
    decide ((served { slots := full, queue := List.replicate 1024 (other 0) }).queue.length = 1024) = true ∧
    (served { slots := full, queue := List.replicate 1024 (other 0) }).out.all (fun q => decide (q.dst = 7 ∧ q.stat = 4)) = true ∧
    moves (.push (pk 0x22 { hd 0 0 0 with alg := { al with op := 1 } } [])) one (fun t => decide (t.sw.slots = [x] ∧ t.sw.out = [refuseTo x 7 0 1 { al with op := 1 }])) = true ∧
    moves (.push (pk 0x22 (hd 0 0 208) (List.replicate 208 1))) one (fun t => decide (t.sw.out = []) && t.sw.slots.all (fun y => decide (y.came = [pc 0 208 208]))) = true ∧
    moves (.push (pk 0x22 (hd 0 0 416) (List.replicate 96 0))) (wet last) (fun t => decide (t.sw.out.length = 6) && t.sw.slots.all (fun y => decide (y.tiles = [0]))) = true ∧
    moves (.cancel (pk 0x26 (hd 0 0 0) [])) one (fun t => decide (t.sw.slots = [] ∧ t.sw.out = [])) = true ∧
    decide ((served { slots := [{ x with granted := [8] }] }).slots = [{ x with granted := [8, 7] }] ∧ (served { slots := [{ x with granted := [8] }] }).out = [grantTo x 7]) = true ∧
    next.idle = true ∧ decide ((served { slots := [next] }).slots = [{ rq with granted := [7] }]) = true ∧
    ({ x with inst := 2 } : SwSlot).idle = false ∧ decide ((served { slots := [{ x with inst := 2 }] }).slots = [{ x with inst := 2 }] ∧ (served { slots := [{ x with inst := 2 }] }).queue = [rq]) = true ∧
    moves (.cancel (pk 0x26 (hd 0 0 1) [])) (wet { next with inst := 3 }) (fun t => decide (t.sw.slots = [])) = true ∧ ({ next with inst := 3 } : SwSlot).idle = true ∧
    moves (.cancel (pk 0x26 (hd 0 0 1) [])) (wet last) (fun t => decide (t.sw.slots = [last])) = true ∧ last.idle = false ∧ last.pushedBy 7 = true ∧
    moves (.cancel (pk 0x26 (hd 0 0 0) [])) (wet last) (fun t => decide (t.sw.slots = [last])) = true ∧
    ({ x with came := [pc 1 0 208] } : SwSlot).pushedBy 7 = false ∧
    moves (.cancel (pk 0x26 (hd 0 0 0) [])) (wet { x with came := [pc 1 0 208] }) (fun t => decide (t.sw.slots = [{ x with came := [pc 1 0 208], granted := [] }])) = true ∧
    moves (.ack ackp) (wet { x with kind := 2, acked := [7] }) (fun t => t.sw.slots.all (fun y => decide (y.acked = [7, 4294967296]))) = true ∧
    fromSwitch 0x21 1 = true ∧ moves (.ack { nack with rid := 2 * 0x21 + 1 }) one (fun t => t.early.all (fun e => decide (e.2.type = 0x21 ∧ e.2.rid = 1)) && decide (t.early ≠ [])) = true ∧
    moves .earlyRetry { one with early := [(one.clock, { nack with type := 0x21, rid := 1 })] } (fun t => decide (t.early = [] ∧ t.sw.out.length = 1 ∧ t.netOut = [])) = true ∧
    (with1.redOf c).map (fun r => r.1.alg) = some cal ∧ moves (.result { collPacket 0x23 8 7 9 0 { hd 3 0 1 with alg := cal } [] with stat := 3 }) with2 (fun t => t.allCards.all (fun y => decide (y.status = 3 ∧ y.counter = 0x3000 ∧ y.st = .finished 0))) = true ∧
    3 ∈ c.range.take 1 ∧ moves (.result { collPacket 0x23 8 7 9 0 (hd 2 0 1) [] with stat := 3 }) with2 (fun t => decide (t.allCards = [{ c with done := 1 }])) = true ∧ moves (.collectiveGroupBroken 0) one (fun t => decide (t.sw.slots = [] ∧ t.sw.out = [refuseTo x 7 0 0 al, refuseTo x 8 0 0 al])) = true ∧
    x.whole = 2 ∧ moves (.ack ackp) one (fun t => t.sw.slots.all (fun y => decide (y.acked = [4294967296]))) = true ∧
    moves (.ack ackp) (wet { x with acked := [7] }) (fun t => decide (t.sw.slots = [])) = true ∧
    moves (.ack { nack with dst := 7, src := 8 }) one (fun t => t.early.all (fun e => decide (e.1 = one.clock + 4000 ∧ e.2.type = 0x22 ∧ e.2.src = 7)) && decide (t.early ≠ [])) = true ∧ one.funcOfVdn 7 = some 0 ∧
    moves .earlyRetry { one with early := [(one.clock, { nack with rid := 0 })] } (fun t => decide (t.early = [] ∧ t.netOut.length = 1)) = true ∧
    moves .earlyRetry { one with early := [(one.clock + 1, { nack with rid := 0 })] } (fun t => decide (t.early.length = 1)) = true ∧
    s.funcOfVdn 7 = some 0 ∧ (∀ e ∈ s.funcs, e.2.domState = 0) ∧ with1.allCards = [c] ∧ c.inst % 2 ^ 20 = pktInst (toHost 0 0x21 0) ∧
    with1.handleOf c = some (pktHandle (toHost 0 0x21 0)) ∧
    moves (.slotgrant (toHost 0 0x21 0)) with1 (fun t => t.allCards.all (fun y => decide (y.phase = 2))) = true ∧
    moves (.result (toHost 0 0x23 3)) with1 (fun t => t.allCards.all (fun y => decide (y.status = 3 ∧ y.counter = 0 ∧ y.st = .finished 0))) = true ∧
    s.allCards = [] ∧ [Instr.mcast (toHost 1 0x24 0), .a2a (toHost 1 0x25 0), .result (toHost 1 0x23 0)].all (fun i => moves i s (fun t => decide (t.collHeld.length = 1))) = true ∧
    [Instr.mcast (toHost 2 0x24 0), .a2a (toHost 2 0x25 0), .result (toHost 2 0x23 0)].all (fun i => moves i s (fun t => t.netOut.all (fun q => decide (q.dst = 8 ∧ q.stat = 4)) && decide (t.netOut ≠ []))) = true ∧
    [Instr.mcast (toHost 524288 0x24 0), .a2a (toHost 1048575 0x25 0), .result (toHost 524288 0x23 0)].all (fun i => moves i s (fun t => decide (t.netOut = [] ∧ t.collHeld = []))) = true ∧
    moves (.fmMeshSet 0 (2 + 256) [7, 8]) s (fun t => decide ((t.func 0).mesh = some ⟨[2, 1], [7, 8]⟩)) = true := by decide +kernel

theorem witness_domain :
    let s := onFunc (fun f => { f with vdn := some 7 }) P0
    let mem (seq : Nat) (d : Dom) : State := { onFunc (fun f => { f with domState := 2, dom := 5, seqs := [(1, seq)], replay := [(16384, 0, 0)] }) s with doms := [(5, d)] }
    let d : Dom := { members := [7], leader := true, epoch := 1 }
    (s.func 0).domState = 0 ∧ moves (.domainJoin 0 4095 1 false false true [7]) s (fun t => decide ((t.func 0).domState = 3 ∧ t.doms = [])) = true ∧
    moves (.domainJoin 0 4095 1 true true true [7]) s (fun t => decide ((t.func 0).domState = 1 ∧ (t.domAt 4095).members = [7])) = true ∧
    moves (.domainJoin 0 5 1 true false true [7]) s (fun t => decide ((t.func 0).domState = 2 ∧ t.domAt 5 = d ∧ .rekeyStart 5 ∈ t.agenda)) = true ∧
    moves (.domainJoin 0 6 1 true false true [7]) (mem 0 d) (fun t => decide (t = mem 0 d)) = true ∧ ((mem 0 d).func 0).dom = 5 ∧
    moves (.domainJoin 0 5 1 true false true [7, 8]) (mem 4 d) (fun t => decide ((t.func 0).seqs = [(1, 4)] ∧ (t.domAt 5).members = [7, 8])) = true ∧
    moves (.rekeyDone 5) (mem 0 { d with rekey := some [7], switched := true, again := true }) (fun t => decide (.rekeyStart 5 ∈ t.agenda)) = true ∧
    moves (.domainLeave 0) (mem 0 d) (fun t => decide ((t.func 0).domState = 0 ∧ 7 ∉ (t.domAt 5).members ∧ .rekeyStart 5 ∈ t.agenda)) = true ∧
    moves (.rekeyStart 5) (mem 0 d) (fun t => decide ((t.domAt 5).rekey = some [] ∧ .keyInstall 5 ∈ t.agenda)) = true ∧
    moves (.rekeyStart 5) (mem 0 { d with rekey := some [] }) (fun t => decide ((t.domAt 5).again = true)) = true ∧
    moves (.rekeyStart 5) (mem 0 { d with leader := false }) (fun t => decide (t.agenda = [])) = true ∧ (mem 0 d).localMembers 5 = [0] ∧
    moves (.keyInstall 5) (mem 9 { d with rekey := some [] }) (fun t => decide ((t.domAt 5).switched = true ∧ (t.func 0).seqs = [])) = true ∧
    (mem 0 { d with rekey := some [], switched := true }).mayArrive 5 7 = true ∧ (mem 0 { d with rekey := some [] }).mayArrive 5 7 = false ∧
    moves (.rekeyBarrierArrival 5 7) (mem 0 { d with rekey := some [], switched := true }) (fun t => decide ((t.domAt 5).rekey = some [7])) = true ∧
    moves (.rekeyBarrierArrival 5 7) (mem 0 { d with rekey := some [] }) (fun t => decide ((t.domAt 5).rekey = some [])) = true ∧
    moves (.rekeyDone 5) (mem 0 { d with rekey := some [7], switched := true }) (fun t => decide ((t.domAt 5).epoch = 2 ∧ (t.func 0).replay = [])) = true ∧
    moves (.seqExhausted 5) (mem (2 ^ 63) d) (fun t => decide ((t.domAt 5).rekey = some [])) = true ∧
    moves (.seqExhausted 5) (mem (2 ^ 63 - 1) d) (fun t => decide ((t.domAt 5).rekey = none)) = true := by decide +kernel

/-! ### Witnesses of single clauses -/

/-- A pair whose lower slot is to issue. -/
def lower (s : State) : State := { s with cur := some ⟨0, 0xFFFFFFFF, .lower⟩ }

/-- IssueAdvances and ControlInstructionsComplete, the lower slot of a pair: NOP goes on with the upper slot, SLEEP with the lanes whose
length is 0 or with none; CommonChecks: a memory instruction behind a PFENCE. -/
theorem witness_pairs :
    let s := lower (S [(5, 3)])
    let some' := onGroup (fun g => { g with lanes := g.lanes.mapIdx (fun l x => { x with g := [(5, BitVec.ofNat 32 (l / 31))] }) }) s
    let fenced := onGroup (fun g => { g with fences := [⟨0, 1, none⟩] }) (mapped (S [(4, 0x1000)]))
    let f : Info := ⟨h0, .mem, 0, [], none⟩
    ready (.nop h0) s = true ∧ moves (.nop h0) s (fun t => decide (t.cur = some ⟨0, 0xFFFFFFFF, .upper⟩)) = true ∧
    ready (.sleep h0 (.reg 5)) s = true ∧ moves (.sleep h0 (.reg 5)) s (fun t => decide (t.cur = none)) = true ∧
    ready (.sleep h0 (.reg 5)) some' = true ∧ moves (.sleep h0 (.reg 5)) some' (fun t => decide (t.cur = some ⟨0, 0x7FFFFFFF, .upper⟩)) = true ∧
    (fenced.ctx f).behind f = true ∧ (fenced.ctx f).g.ready (fenced.cycle 0) h0 .single = true ∧
    moves (.ld h0 .w32 8 4 0) fenced (fun t => decide (t = { fenced with cur := none })) = true ∧
    (cx (S [])).behind f = false := by decide +kernel

/-- MatrixAndGangInstructions: what turns MGANG away, guards of 0, a leader that meets a member, and both ways to leave. -/
theorem witness_gangMeets :
    let off : Hdr := ⟨7, true, 0, 0, false, 0⟩
    let s := M [(4, 0xFFFF01FF)]
    let cu (s : State) : Ctx := s.ctx ⟨off, .mat, 0, [], none⟩
    let two (g0 g1 : Gang) : State := let s := onTeam (fun t => { t with gang := g0, lrec := { t.lrec with w := 2 } }) (M [(4, 0xFFFF01FF)])
      { s with teams := s.teams ++ (s.teams.map (fun e => (1, { e.2 with rank := 1, idx := 1, core := 1, gang := g1 }))) }
    let gang (s : State) (i : Nat) : Option Gang := (s.team? i).map (fun t => t.gang)
    (∀ i ∈ ([.mswap off, .mzero off ⟨0, 0, 0⟩, .mgangLead off 4, .mgangJoin off 4 0, .mgangLeave off] : List Instr), ready i s = true ∧ completes i s = true) ∧
    (cu s).act = 0 ∧ (cu s).t.gang = .none ∧ (cu s).t.qmask.getLsbD 0 = true ∧
    (cx (two .none .none)).t.gang = .none ∧ ready (.mgangLead h0 4) (two .none .none) = true ∧
    gangBad 0xFFFF01FF 0 2 = false ∧ gangRanks 0xFFFF01FF = [some 1, none, none] ∧
    moves (.mgangLead h0 4) (two .none (.member 0 2 false)) (fun t => decide (gang t 0 = some (.lead [some 1, none, none] true) ∧ gang t 1 = some (.member 0 2 true))) = true ∧
    moves (.mgangLead h0 4) (two .none .none) (fun t => decide (gang t 0 = some (.lead [some 1, none, none] false))) = true ∧
    (two (.lead [some 1] true) (.member 0 2 true)).gangIdle 0 = true ∧
    decide (gang ((two (.lead [some 1] true) (.member 0 2 true)).gangLeave 0) 1 = some .none) = true ∧
    decide (gang ((two (.lead [some 1] true) (.member 0 2 true)).gangLeave 1) 0 = some (.lead [none] true)) = true := by decide +kernel

/-- OrderingInstructionsComplete: guards of 0, a cell, a line of the function in L1, and a ring slot that names it. -/
theorem witness_orderingMore :
    let off : Hdr := ⟨7, true, 0, 0, false, 0⟩
    let s := M [(4, 0x1000), (6, 0x2008), (8, 0)]
    let x : L1Line := { func := 0, line := 9, valid := 1, fepoch := 0, kind := .loc, stable := false, data := [] }
    let cached := onCore (fun k => { k with l1 := [x] }) s
    let l : List Instr := [.relst off .d64 .device 6 10, .acqld off .w32 .device 10 6, .fence off .acquire .system, .remacq off 8, .cctlIvl off 6 0,
      .cctlIvi off 6 0, .cctlIvall off, .cctlIviall off, .cctlDrain off, .sigrdTest off 10 6, .sigrdHash off 10 6, .sigrdWord off 10 1 0]
    l.all (fun i => ready i s && completes i s) = true ∧ (s.ctx ⟨off, .mem, 0, [], none⟩).act = 0 ∧
    isCellAddr 0x1000 = true ∧ isCellAddr 0x2008 = false ∧ (idTr 0x1000).tgt = .loc 0x1000 ∧
    calmB cached = true ∧ oks cached [.acqld h0 .w32 .device 10 4, .acqld h0 .d64 .system 10 6, .fence h0 .acquire .cluster, .remacq h0 8, .cctlIvall h0] = true ∧
    moves (.fence h0 .acquire .cluster) cached (fun t => decide ((t.core 0).l1 = [])) = true ∧
    moves (.remacq h0 8) cached (fun t => decide ((t.core 0).l1 = [])) = true ∧
    moves (.acqld h0 .w32 .device 10 4) cached (fun t => decide ((t.core 0).l1 = [x])) = true ∧
    ((s.core 0).wtb = [] ∧ (s.plane 0).func = some 0) ∧
    moves (.relst h0 .d64 .device 6 4) s (fun t => decide (readLE t.mem 0x2008 8 = 0x1000)) = true := by decide +kernel

/-- MatrixQueueCompletes: a row whose plane has the class and the kind of its slot; DRAIN_COMPLETE brings registers their elements. -/
theorem witness_matrixRows :
    let go (op : MatOp) : State := onPlane (fun p => { p with matq := [op], liveW := { p.liveW with cls := 16, int := false }, banks := [(0, 0x3F800000)] }) (M [])
    let tok : Token := ⟨0, 5, 1⟩
    let fl : Flight := { dest := 8, val := 0, due := none, known := false, tok := 5, mark := none }
    let drained := onLanes (fun l => { l with flights := [fl] }) (go (.drain tok 0 0 0 1 .raw false 3 0 0 (some 8) true))
    (matFmt 3).map (fun e => (e.2, e.1.isInt)) = some (16, false) ∧ ((go (.swap tok)).plane 0).liveW.cls = 16 ∧
    completes (.mstrRowWrite 0) (go (.stream tok 0 0 0 0 false false 3 (.pad 0 0) 0 0 [])) = true ∧
    (drained.group 0).ra = none ∧ (tfind drained.groups 0).isSome = true ∧
    ((((drained.group 0).lane 0).flights.filter (fun y => y.dest = 8)).getLast?) = some fl ∧
    moves (.drainComplete 0) drained (fun t => decide ((t.group 0).lastVal 0 8 = 0x3F800000)) = true := by decide +kernel

/-- TranslationEventsComplete: walks beyond a reservation and beyond WMAX; a response for a page whose leaf the host holds.
HostInterfaceComplete: the registers of the page, the reservations, the doorbell, and submissions of a function that does not exist.
DeviceEventsComplete: places that no die has, and a host write beyond the memory. -/
theorem witness_hostClauses :
    let idle := { M [] with cur := none }
    let q (f : Func → Func) : State := let s := onFunc f idle; s.setDie 0 { (s.die 0) with walkq := [⟨0, 3, [some 0], false⟩], tlb := idTlb }
    let pri := onFunc (fun f => { f with pri := [⟨0x50000, true, 0⟩] }) (tabled idle)
    let snooped := { pri with snoop := [(((pri.leaf2Addr 0 0x50000).getD 0)) / 512] }
    let s := ringed 0
    let two := { s with funcs := s.funcs ++ [(1, { s.func 0 with exist := true, wrsv := [(0, 60)] })] }
    let none' (b : Bool) : State := { s with funcs := [(3, { s.func 3 with exist := false, gone := b })] }
    moves (.pageWalk 0) (q (fun f => { f with wmax := [(0, 0)] })) (fun t => decide ((t.die 0).walkq ≠ [] ∧ (t.die 0).walking = [])) = true ∧
    moves (.pageWalk 0) (q (fun f => { f with wmax := [(0, 0)], wrsv := [(0, 1)] })) (fun t => decide ((t.die 0).walkq = [])) = true ∧
    (pri.leaf2Addr 0 0x50000).any (fun a => pri.snooped (.loc a)) = false ∧ (snooped.leaf2Addr 0 0x50000).any (fun a => snooped.snooped (.loc a)) = true ∧
    moves (.priResponse 0 0x50000 true) snooped (fun t => decide (t.afterBi = [.priResponse 0 0x50000 true] ∧ t.groups = snooped.groups)) = true ∧
    s.hasPage 0 = true ∧ s.hasPage 3 = false ∧ moves (.registerWrite (.xvec 3) 64) s (fun t => decide (t = s)) = true ∧
    moves (.metreqWrite 3 0) s (fun t => decide (t = s)) = true ∧ moves (.errWordClear 3 0 1) s (fun t => decide (t = s)) = true ∧
    two.wrsvOthers 0 0 = 60 ∧ moves (.registerWrite (.wrsv 0 0) 4) two (fun t => decide (tget 0 (t.func 0).wrsv 0 = 4)) = true ∧
    moves (.registerWrite (.wrsv 0 0) 5) two (fun t => decide (t = two)) = true ∧
    moves (.registerWrite (.wmax 0 1) 64) s (fun t => decide (tget 64 (t.func 0).wmax 1 = 64)) = true ∧
    moves (.registerWrite (.priAlloc 0) 513) s (fun t => decide ((t.func 0).priMax = 512)) = true ∧
    moves (.registerWrite (.pasid 0) (2 ^ 20 + 9)) s (fun t => decide ((t.func 0).pasid = 9)) = true ∧
    moves (.registerWrite (.ats 0) 1) s (fun t => decide ((t.func 0).ats = true)) = true ∧
    moves (.registerWrite .doorbell 10) s (fun t => decide (t = s)) = true ∧ moves (.registerWrite .doorbell 11) s (fun t => decide (t.cmdSeq = s.cmdSeq + 1 ∧ t.ringTail = 1)) = true ∧
    moves (.queueSubmit 3 0 true (recBytes {})) (none' true) (fun t => decide (t = none' true)) = true ∧
    moves (.queueSubmit 3 0 true (recBytes {})) (none' false) (fun t => (t.func 3).frozen) = true ∧
    moves (.domfailClear 0) s (fun t => decide ((t.func 0).domFail = 0)) = true ∧
    [ErrPlace.weight 960 true 0, .bank 960 0, .l1 320 0 0 0, .link 2, .mem (768 * 2 ^ 30)].all (fun p => !s.errPlaced p && moves (.softError p false) s (fun t => decide (t = s))) = true ∧
    s.errPlaced (.link 1) = true ∧ moves (.softError (.link 1) false) s (fun t => decide ((t.die 1).errlog = 1)) = true ∧
    maBacked (768 * 2 ^ 30 - 1) = true ∧ maBacked (768 * 2 ^ 30) = false ∧
    moves (.hostMemAccess (.write (768 * 2 ^ 30 - 1) [7, 7])) s (fun t => decide (t = s)) = true := by decide +kernel

/-- CoreEventsComplete: a cohort that is still to issue keeps the pipes from choosing; the next epoch acknowledges what is performed. -/
theorem witness_coreClauses :
    let e : WtbE := { func := 0, fpa := 0x1000, tgt := .loc 0x1000, mask := 3, data := [(0, 7)], rings := [0], st := .performed, toks := [] }
    let s := { onCore (fun k => { k with wtb := [e] }) (S []) with clock := 4096 }
    moves (.pipeGroupChoice 0 0) (S []) (fun t => decide (t = S [])) = true ∧ (S []).cur.isSome = true ∧
    moves .epochAdvance s (fun t => decide (t.epoch = 1 ∧ (t.core 0).wtb = [])) = true ∧ ((S []).plane 0).ring.length = 3 := by decide +kernel
end Sys2Proof.Tests
end

section
/-!
PROOFS. The integer instructions of 03 that compute in each lane from that lane's registers (R57 to R61, R63, R64,
R66 to R68, R72 to R78). One rule says when such an instruction gives its writes; one lemma for each value function of the model
says what the function is as the spec's arithmetic on integers; the statements put the two together, a line an instruction.
-/
namespace Sys2Proof.Machine

/-! ### The rule of an instruction that computes from registers -/

/-- An instruction whose meaning is `alu` of `w` gives the writes that `w` computes in this context. -/
theorem gives_of_exec_eq_alu {i : Instr} {s : State} {c : Ctx} {w : Ctx → Nat → List Wr} {v : Nat → List Wr}
    (hexec : exec i s = alu i w s) (hw : ∀ l, w c l = v l) : Gives i s c v := by
  intro f hready
  rw [hexec, alu_gives hready, funext hw]

/-- The same for an instruction with an ILLEGAL check of its own, which passes. -/
theorem gives_of_exec_eq_issueI {i : Instr} {s : State} {c : Ctx} {ill : Ctx → Bool} {w : Ctx → Nat → List Wr}
    {v : Nat → List Wr} (hexec : exec i s = issueI i { ill := ill }
      (fun inf c => .ok { s := c.s, wr := c.lanes.flatMap (w c), mode := .fixed inf.lat }) s)
    (hill : ill c = false) (hw : ∀ l, w c l = v l) : Gives i s c v := by
  intro f hready
  rw [hexec, issueI_plain hready rfl rfl hill, funext hw]
  rfl

/-! ### Sums, differences and products modulo 2^n (R59, R61, R76, R77) -/

theorem sub_eq_ofInt_sub {n : Nat} (a b : BitVec n) : a - b = BitVec.ofInt n ((a.toNat : Int) - b.toNat) := by
  simp [Int.sub_eq_add_neg, BitVec.ofInt_add, BitVec.ofInt_neg, BitVec.sub_eq_add_neg]

theorem mul_add_eq_ofNat {n : Nat} (a b c : BitVec n) :
    a * b + c = BitVec.ofNat n (a.toNat * b.toNat + c.toNat) := by
  simp [BitVec.ofNat_add, BitVec.ofNat_mul]

theorem imadwVal_signed (a b : Word) (c : DWord) :
    imadwVal true a b c = BitVec.ofInt 64 (a.toInt * b.toInt + c.toNat) := by
  simp [imadwVal, BitVec.ofInt_add]

theorem imadwVal_unsigned (a b : Word) (c : DWord) :
    imadwVal false a b c = BitVec.ofNat 64 (a.toNat * b.toNat + c.toNat) := by
  simp [imadwVal, BitVec.ofNat_add]

/-- A shift to the left is a multiplication, bits beyond the width being lost on both sides. -/
theorem shiftLeft_eq_mul_ofNat {n : Nat} (a : BitVec n) (k : Nat) : a <<< k = a * BitVec.ofNat n (2 ^ k) := by
  rw [BitVec.shiftLeft_eq_mul_twoPow]
  congr 1
  exact BitVec.eq_of_toNat_eq (by rw [BitVec.toNat_twoPow, BitVec.toNat_ofNat])

theorem leaVal_unsigned (a : DWord) (b : Word) (sh : BitVec 3) :
    leaVal false a b sh = BitVec.ofNat 64 (a.toNat + b.toNat * 2 ^ sh.toNat) := by
  simp [leaVal, shiftLeft_eq_mul_ofNat, BitVec.ofNat_add, BitVec.ofNat_mul]

theorem leaVal_signed (a : DWord) (b : Word) (sh : BitVec 3) :
    leaVal true a b sh = BitVec.ofInt 64 (a.toNat + b.toInt * 2 ^ sh.toNat) := by
  have hpow : BitVec.ofInt 64 (2 ^ sh.toNat) = BitVec.ofNat 64 (2 ^ sh.toNat) := by
    rw [← BitVec.ofInt_natCast]
    push_cast
    rfl
  simp [leaVal, BitVec.signExtend, shiftLeft_eq_mul_ofNat, BitVec.ofInt_add, BitVec.ofInt_mul, hpow]

/-! ### Minimum, maximum, absolute value (R63) -/

theorem iminVal_signed (a b : Word) : iminVal true a b = if a.toInt ≤ b.toInt then a else b := by
  simp [iminVal, BitVec.sle_eq_decide]

theorem iminVal_unsigned (a b : Word) : iminVal false a b = if a.toNat ≤ b.toNat then a else b := by
  simp [iminVal, BitVec.ule_eq_decide]

theorem imaxVal_signed (a b : Word) : imaxVal true a b = if b.toInt ≤ a.toInt then a else b := by
  simp [imaxVal, BitVec.sle_eq_decide]

theorem imaxVal_unsigned (a b : Word) : imaxVal false a b = if b.toNat ≤ a.toNat then a else b := by
  simp [imaxVal, BitVec.ule_eq_decide]

/-- IABS takes the absolute value on integers, where −2^31 has one, and narrows it at the end. -/
theorem iabsVal_eq (sat : Bool) (a : Word) :
    iabsVal sat a = w32 (if sat then clampI a.toInt.natAbs 0 (2 ^ 31 - 1) else a.toInt.natAbs) := by
  have habs : (if a.toInt < 0 then -a.toInt else a.toInt) = a.toInt.natAbs := by omega
  cases sat <;> simp [iabsVal, habs]

theorem iabsVal_wrap (a : Word) : iabsVal false a = BitVec.ofNat 32 a.toInt.natAbs := by
  rw [iabsVal_eq]
  exact BitVec.ofInt_natCast ..

/-! ### Dot products (R78) -/

theorem dotPart_eq (w : Nat) (sg : Bool) (x : Word) (i : Nat) :
    dotPart w sg x i = if sg = true ∧ 2 ^ (w - 1) ≤ x.toNat / 2 ^ (w * i) % 2 ^ w
      then ((x.toNat / 2 ^ (w * i) % 2 ^ w : Nat) : Int) - 2 ^ w else (x.toNat / 2 ^ (w * i) % 2 ^ w : Nat) := by
  cases sg <;> simp [dotPart, sextN]

theorem dotVal_bytes (asg bsg sat : Bool) (a b c : Word) :
    dotVal 8 asg bsg sat a b c =
      let x := c.toInt + dotPart 8 asg a 0 * dotPart 8 bsg b 0 + dotPart 8 asg a 1 * dotPart 8 bsg b 1 +
        dotPart 8 asg a 2 * dotPart 8 bsg b 2 + dotPart 8 asg a 3 * dotPart 8 bsg b 3
      w32 (if sat then clampI x (-2 ^ 31) (2 ^ 31 - 1) else x) := by
  cases sat <;> rfl

theorem dotVal_halves (asg bsg sat : Bool) (a b c : Word) :
    dotVal 16 asg bsg sat a b c =
      let x := c.toInt + dotPart 16 asg a 0 * dotPart 16 bsg b 0 + dotPart 16 asg a 1 * dotPart 16 bsg b 1
      w32 (if sat then clampI x (-2 ^ 31) (2 ^ 31 - 1) else x) := by
  cases sat <;> rfl

/-! ### Shifts with the amount capped at the width (R66, R68) -/

theorem shiftLeft_min {n : Nat} (a : BitVec n) (k : Nat) :
    a <<< min k n = if n ≤ k then 0 else BitVec.ofNat n (a.toNat * 2 ^ k) := by
  split
  case isTrue h => exact BitVec.shiftLeft_eq_zero (by omega)
  case isFalse h =>
    rw [Nat.min_eq_left (by omega), shiftLeft_eq_mul_ofNat, BitVec.ofNat_mul, BitVec.ofNat_toNat, BitVec.setWidth_eq]

theorem ushiftRight_min {n : Nat} (a : BitVec n) (k : Nat) :
    a >>> min k n = if n ≤ k then 0 else BitVec.ofNat n (a.toNat / 2 ^ k) := by
  split
  case isTrue h => exact BitVec.ushiftRight_eq_zero (by omega)
  case isFalse h =>
    rw [Nat.min_eq_left (by omega), ← Nat.shiftRight_eq_div_pow, ← BitVec.toNat_ushiftRight, BitVec.ofNat_toNat,
      BitVec.setWidth_eq]

theorem sshiftRight_min {n : Nat} (a : BitVec n) (k : Nat) :
    a.sshiftRight (min k n) = if n ≤ k then (if a.msb then -1 else 0) else BitVec.ofInt n (a.toInt / 2 ^ k) := by
  split
  case isTrue h =>
    rw [Nat.min_eq_right h]
    cases hmsb : a.msb
    · rw [BitVec.sshiftRight_eq_of_msb_false hmsb, BitVec.ushiftRight_eq_zero (Nat.le_refl n)]
      rfl
    · rw [BitVec.sshiftRight_eq_of_msb_true hmsb, BitVec.ushiftRight_eq_zero (Nat.le_refl n)]
      simp [BitVec.neg_one_eq_allOnes]
  case isFalse h =>
    rw [Nat.min_eq_left (by omega), BitVec.sshiftRight_eq, Int.shiftRight_eq_div_pow]
    push_cast
    rfl

/-! ### Comparisons (Table 3-3) and predicates (R75) -/

/-- Table 3-3 from the three facts that it turns on: A ≤ B signed, A = B, A ≤ B unsigned; `cmpHolds_eq_cmpOfOrders` ties it
to the model's comparison. -/
def cmpOfOrders (m : Cmp) (sle eq ule : Bool) : Bool :=
  match m with
  | .ltS => sle && !eq
  | .eq | .eqU => eq
  | .leS => sle
  | .gtS => !sle
  | .ne | .neU => !eq
  | .geS => !sle || eq
  | .ltU => ule && !eq
  | .leU => ule
  | .gtU => !ule
  | .geU => !ule || eq

theorem cmpHolds_eq_cmpOfOrders {n : Nat} (m : Cmp) (a b : BitVec n) :
    cmpHolds m a b = cmpOfOrders m (decide (a.toInt ≤ b.toInt)) (decide (a = b)) (decide (a.toNat ≤ b.toNat)) := by
  have hint : a = b ↔ a.toInt = b.toInt := BitVec.toInt_inj.symm
  have hnat : a = b ↔ a.toNat = b.toNat := BitVec.toNat_inj.symm
  cases m
  case eq | eqU | ne | neU | leS | leU => simp [cmpHolds, cmpOfOrders, BitVec.sle_eq_decide, BitVec.ule_eq_decide]
  case ltS | gtS | geS =>
    rw [Bool.eq_iff_iff]
    simp only [cmpHolds, cmpOfOrders, BitVec.slt_eq_decide, BitVec.sle_eq_decide, hint, Bool.and_eq_true,
      Bool.or_eq_true, Bool.not_eq_true', decide_eq_true_eq, decide_eq_false_iff_not]
    omega
  case ltU | gtU | geU =>
    rw [Bool.eq_iff_iff]
    simp only [cmpHolds, cmpOfOrders, BitVec.ult_eq_decide, BitVec.ule_eq_decide, hnat, Bool.and_eq_true,
      Bool.or_eq_true, Bool.not_eq_true', decide_eq_true_eq, decide_eq_false_iff_not]
    omega

/-- P2G's word is the sum of the predicates at their places; P7 reads 1 and gives 2^7 (R75). -/
theorem predWord_eq (c : Ctx) (l : Nat) : predWord c.g l = BitVec.ofNat 32 (2 ^ 7 + (c.rp l 0).toNat + (c.rp l 1).toNat * 2 +
    (c.rp l 2).toNat * 4 + (c.rp l 3).toNat * 8 + (c.rp l 4).toNat * 16 + (c.rp l 5).toNat * 32 + (c.rp l 6).toNat * 64) := by
  have hP7 : c.g.rdP l 7#8 = true := rfl
  have hrange : List.range 8 = [0, 1, 2, 3, 4, 5, 6, 7] := rfl
  have hbit (b : Bool) (n : Nat) : (if b then n else 0) = b.toNat * n := by cases b <;> simp
  simp only [predWord, hrange, List.foldl, hP7, hbit, Ctx.rp, BitVec.ofNat_eq_ofNat, Bool.toNat_true]
  congr 1
  omega

/-! ### The statements -/

/-- Settles O1: the writes of MOV, MOVS, MOVSW, IADD64, ISUB64 and LEA. -/
theorem moveAndWideArithmeticResults : Obligations.MoveAndWideArithmeticResults := by
  unfold Obligations.MoveAndWideArithmeticResults
  constructor
  · intro s c h d a code
    refine ⟨?mov, ?mov64, fun hcode => ⟨?movs, ?movsw⟩⟩
    case mov => exact gives_of_exec_eq_alu (exec_mov ..) fun _ => rfl
    case mov64 => exact gives_of_exec_eq_alu (exec_mov ..) fun _ => rfl
    case movs =>
      exact gives_of_exec_eq_issueI (exec_movs ..) (by simp [hcode]) fun l =>
        congrArg (wr1 l d) (BitVec.setWidth_eq_extractLsb' (by decide))
    case movsw => exact gives_of_exec_eq_issueI (exec_movsw ..) (by simp [hcode]) fun _ => rfl
  · intro s c h d a r b sh B2
    refine ⟨?iadd64, ?isub64, ?lea, ?leaSigned⟩
    case iadd64 => exact gives_of_exec_eq_alu (exec_iadd64 ..) fun l => congrArg (wr64 l d) (BitVec.add_def ..)
    case isub64 => exact gives_of_exec_eq_alu (exec_isub64 ..) fun l => congrArg (wr64 l d) (sub_eq_ofInt_sub ..)
    case lea => exact gives_of_exec_eq_alu (exec_lea ..) fun l => congrArg (wr64 l d) (leaVal_unsigned ..)
    case leaSigned => exact gives_of_exec_eq_alu (exec_lea ..) fun l => congrArg (wr64 l d) (leaVal_signed ..)

/-- Settles O2: every result is that of the exact integers, narrowed once. -/
theorem integerArithmeticResults : Obligations.IntegerArithmeticResults := by
  unfold Obligations.IntegerArithmeticResults
  intro s c h d a r b pout A B
  refine ⟨?iadd, ?iaddSat, ?iaddUsat, ?isub, ?isubSat, ?isubUsat, ?iaddx, ?imul, ?imulhS, ?imulhU, ?imulhSu, ?imad,
    ?imadwSigned, ?imadw, ?iminSigned, ?imin, ?imaxSigned, ?imax, ?iabs, ?iabsSat, ?dot⟩
  case iadd => exact gives_of_exec_eq_alu (exec_iadd ..) fun l => congrArg (wr1 l d) (BitVec.add_def ..)
  case iaddSat => exact gives_of_exec_eq_alu (exec_iadd ..) fun _ => rfl
  case iaddUsat => exact gives_of_exec_eq_alu (exec_iadd ..) fun _ => rfl
  case isub => exact gives_of_exec_eq_alu (exec_isub ..) fun l => congrArg (wr1 l d) (sub_eq_ofInt_sub ..)
  case isubSat => exact gives_of_exec_eq_alu (exec_isub ..) fun _ => rfl
  case isubUsat => exact gives_of_exec_eq_alu (exec_isub ..) fun _ => rfl
  case iaddx =>
    intro m bb cin
    -- each mode fixes both the second summand and the carry in
    cases m <;> exact gives_of_exec_eq_alu (exec_iaddx ..) fun _ => rfl
  case imul => exact gives_of_exec_eq_alu (exec_imul ..) fun l => congrArg (wr1 l d) (BitVec.mul_def ..)
  case imulhS => exact gives_of_exec_eq_alu (exec_imulh ..) fun _ => rfl
  case imulhU => exact gives_of_exec_eq_alu (exec_imulh ..) fun _ => rfl
  case imulhSu => exact gives_of_exec_eq_alu (exec_imulh ..) fun _ => rfl
  case imad => exact gives_of_exec_eq_alu (exec_imad ..) fun l => congrArg (wr1 l d) (mul_add_eq_ofNat ..)
  case imadwSigned => exact gives_of_exec_eq_alu (exec_imadw ..) fun l => congrArg (wr64 l d) (imadwVal_signed ..)
  case imadw => exact gives_of_exec_eq_alu (exec_imadw ..) fun l => congrArg (wr64 l d) (imadwVal_unsigned ..)
  case iminSigned => exact gives_of_exec_eq_alu (exec_imin ..) fun l => congrArg (wr1 l d) (iminVal_signed ..)
  case imin => exact gives_of_exec_eq_alu (exec_imin ..) fun l => congrArg (wr1 l d) (iminVal_unsigned ..)
  case imaxSigned => exact gives_of_exec_eq_alu (exec_imax ..) fun l => congrArg (wr1 l d) (imaxVal_signed ..)
  case imax => exact gives_of_exec_eq_alu (exec_imax ..) fun l => congrArg (wr1 l d) (imaxVal_unsigned ..)
  case iabs => exact gives_of_exec_eq_alu (exec_iabs ..) fun l => congrArg (wr1 l d) (iabsVal_wrap ..)
  case iabsSat => exact gives_of_exec_eq_alu (exec_iabs ..) fun l => congrArg (wr1 l d) (iabsVal_eq true _)
  case dot =>
    intro asg bsg sat part narrow
    have hpart (w : Nat) (sg : Bool) (x : Word) (i : Nat) : dotPart w sg x i = part w sg x i := dotPart_eq w sg x i
    constructor
    · refine gives_of_exec_eq_alu (exec_idp4 ..) fun l => congrArg (wr1 l d) ?_
      simp only [dotVal_bytes, hpart]
      rfl
    · refine gives_of_exec_eq_alu (exec_idp2 ..) fun l => congrArg (wr1 l d) ?_
      simp only [dotVal_halves, hpart]
      rfl

/-- Settles O3: the logic instructions are the operations of the model on words. -/
theorem logicResults : Obligations.LogicResults := by
  unfold Obligations.LogicResults
  intro s c h d a b B
  refine ⟨?and, ?or, ?xor, ?andn⟩
  case and => exact gives_of_exec_eq_alu (exec_and ..) fun _ => rfl
  case or => exact gives_of_exec_eq_alu (exec_or ..) fun _ => rfl
  case xor => exact gives_of_exec_eq_alu (exec_xor ..) fun _ => rfl
  case andn => exact gives_of_exec_eq_alu (exec_andn ..) fun _ => rfl

/-- Settles O4: an amount at or above the width is a shift by the width. -/
theorem shiftResults : Obligations.ShiftResults := by
  unfold Obligations.ShiftResults
  intro s c h d a r b n A B V N
  have hB (l : Nat) : (c.src l b).toNat = B l := by cases b <;> rfl
  have hN (l : Nat) : c.sel l n = N l := by cases n <;> rfl
  refine ⟨?shl, ?shr, ?sar, ?rol, ?fshfLeft, ?fshfRight, ?shl64, ?shr64, ?shr64Arith⟩
  case shl => exact gives_of_exec_eq_alu (exec_shl ..) fun l => by rw [shiftLeft_min, hB]
  case shr => exact gives_of_exec_eq_alu (exec_shr ..) fun l => by rw [ushiftRight_min, hB]
  case sar => exact gives_of_exec_eq_alu (exec_sar ..) fun l => by rw [sarVal, sshiftRight_min, hB]; rfl
  case rol => exact gives_of_exec_eq_alu (exec_rol ..) fun l => by rw [hB]
  case fshfLeft => exact gives_of_exec_eq_alu (exec_fshf ..) fun l => by rw [hN]; rfl
  case fshfRight => exact gives_of_exec_eq_alu (exec_fshf ..) fun l => by rw [hN]; rfl
  case shl64 => exact gives_of_exec_eq_alu (exec_shl64 ..) fun l => by rw [shiftLeft_min, hB]
  case shr64 => exact gives_of_exec_eq_alu (exec_shr64 ..) fun l => congrArg (wr64 l d) (by rw [hB]; exact ushiftRight_min ..)
  case shr64Arith =>
    exact gives_of_exec_eq_alu (exec_shr64 ..) fun l => congrArg (wr64 l d) (by rw [hB]; exact sshiftRight_min ..)

/-- Settles O6: comparisons by Table 3-3, selection, and the operations on predicates. -/
theorem predicateResults : Obligations.PredicateResults := by
  unfold Obligations.PredicateResults
  intro s c h d a p q b m lut mask holds B B2 t1 t2
  have ht1 (l : Nat) : cmpHolds m (c.r1 l a) (c.src l b) = t1 l := cmpHolds_eq_cmpOfOrders ..
  have ht2 (l : Nat) : cmpHolds m (c.r2 l a) (c.src2 l b) = t2 l := cmpHolds_eq_cmpOfOrders ..
  refine ⟨?isetp, ?icmps, ?isetp64, ?sel, ?sel64, ?plop, ?p2g, ?g2p⟩
  case isetp => exact gives_of_exec_eq_alu (exec_isetp ..) fun l => by rw [ht1]
  case icmps => exact gives_of_exec_eq_alu (exec_icmps ..) fun l => by rw [ht1]
  case isetp64 => exact gives_of_exec_eq_alu (exec_isetp64 ..) fun l => by rw [ht2]
  case sel => exact gives_of_exec_eq_alu (exec_sel ..) fun _ => rfl
  case sel64 => exact gives_of_exec_eq_alu (exec_sel ..) fun _ => rfl
  case plop => exact gives_of_exec_eq_alu (exec_plop ..) fun _ => rfl
  case p2g => exact gives_of_exec_eq_alu (exec_p2g ..) fun l => congrArg (wr1 l d) (predWord_eq c l)
  case g2p => exact gives_of_exec_eq_alu (exec_g2p ..) fun _ => rfl

end Sys2Proof.Machine
end
